-- ==== Sys2Proof/Word.lean ====
section
/-! DEFINITION. The units the ring carries (R149): bytes, and values of two bytes. -/

namespace Sys2Proof

/-- One byte of a ring frame (R149). -/
abbrev Byte := BitVec 8

/-- A value of two bytes, such as a cadence number or the check of a frame (R149, R151). -/
abbrev Word16 := BitVec 16

end Sys2Proof
end

