-- ==== Sys2Proof/Config.lean ====
section
/-! DEFINITION. The capacities the FX-6420 fixes, the time units, and the one free value of the model: the
outcomes of the orders and choices that the spec leaves open. -/

namespace Sys2Proof

namespace Config

/-- Ticks of 10 µs in one unit of 100 µs (relay times, extra settle; 00_scope, Durations). -/
def ticksPer100us : Nat := 10

/-- Ticks of 10 µs in one ms (keepalive, grace, debounce, supervision interval; 00_scope, Durations). -/
def ticksPerMs : Nat := 100

/-- A visit takes 40 µs (R123, R124). -/
def visitTicks : Nat := 4

/-- An input is debounced for 5 ms (R116). -/
def debounceTicks : Nat := 500

/-- The interval timer counts up to 127 ms (R122). -/
def intervalMax : Nat := 12700

/-- The forward list holds up to 4 frames (R152). -/
def forwardCapacity : Nat := 4

/-- REQUEST parameters and response data are 0 to 56 bytes each (R149). -/
def maxRequestData : Nat := 56

end Config

/-- How the acceptance calls that two sequencers make on one CADENCE frame lie (R85, R99): plane A's call of each comes
before its plane B's, and the calls of the other may be "before, between or after them". "First" is the sequencer whose
plane A is taken first. -/
inductive Weave where
  /-- the first's A and B, then the other's A and B -/
  | apart
  /-- the first's A, the other's A and B, then the first's B -/
  | within
  /-- the first's A, the other's A, the first's B, then the other's B -/
  | crossed
deriving DecidableEq, Repr, Inhabited

/-- The outcome of every order that one step may have to settle and that the spec leaves open (log 3). -/
structure Arb where
  /-- Where both planes act within one step: plane B acts first. -/
  planeBFirst : Bool
  /-- Where both sequencers take one CADENCE frame: List Sequencer 2 makes the first call (R85). -/
  seq2First : Bool
  /-- Where both sequencers make calls on one CADENCE frame: how their calls lie (R85, R99). -/
  weave : Weave
  /-- The point of the frame's calls and what they bring at which a node reads its settle and attention bits (R158,
  R159): its position among those points, modulo their number. -/
  bits : Nat
  /-- In one CLEAR_FAULTS naming COIL and DRIFT: COIL (R135) is cleared before DRIFT (R134). -/
  coilFirst : Bool
  /-- Of the timer ends that are due together, the one taken next (its position modulo their number). -/
  pick : Nat
deriving DecidableEq, Repr, Inhabited

/-- FREE VALUE (log 3): nothing constrains the order taken at the n-th draw. -/
opaque Config.freeArb : Nat → Arb

end Sys2Proof
end

