-- ==== Sys2Proof/Syntax.lean ====
section
/-! DEFINITION. The commands of the block: the frames of the control ring as the part receives them, the names
their operands use, and `Instr`, one constructor for each row of spec/opcode_table.json. -/

namespace Sys2Proof

/-- The two polarisation planes (00_scope, Conventions). -/
inductive Plane where
  | a
  | b
deriving DecidableEq, Repr

/-- The two stations (07). List Sequencer 1 belongs to S1 and List Sequencer 2 to S2. -/
inductive Station where
  | s1
  | s2
deriving DecidableEq, Repr

/-- B0 to B23. -/
abbrev BankId := Fin 24

/-- route 0 to route 127. -/
abbrev RouteId := Fin 128

/-- P0 to P15. -/
abbrev Slot := Fin 16

/-- step 0 to step 511. -/
abbrev StepId := Fin 512

/-- F1 to F4, numbered from 0. -/
abbrev FixtureId := Fin 4

/-- The five debounced inputs of the Chamber Line Unit (R116). -/
inductive ChamberInput where
  | seat (n : FixtureId)
  | door
deriving DecidableEq, Repr

/-- The header fields of a frame that its kind does not fix (R149). Bits 7..4 of byte 1 are zero in every frame
with a good layout, so the destination has the 4 bits that are left. -/
structure Header where
  /-- hop count 0..15 -/
  hop : BitVec 4
  /-- destination 0..15; 0 names all nodes (REQUEST only; carried in other kinds) -/
  dest : BitVec 4
  /-- frame tag, carried unchanged -/
  tag : Byte
deriving DecidableEq, Repr

/-- A REQUEST frame but for its code (R149): the parameter length and response length are those of the lists. -/
structure Request where
  hdr : Header
  /-- station field: 0 none, 1 S1, 2 S2 -/
  station : Byte
  params : List Byte
  /-- FFH (NOT_TAKEN) as the chamber controller sends it; another value once a node has executed it (R156) -/
  status : Byte
  /-- response data as it arrived; the ack map in a broadcast (R157) -/
  resp : List Byte
deriving DecidableEq, Repr

/-- A CADENCE frame (R149). -/
structure CadenceFrame where
  hdr : Header
  number : Word16
  /-- bit 0 S1A, bit 1 S1B, bit 2 S2A, bit 3 S2B; bits 7..4 carried -/
  gates : Byte
  settle : Word16
  attention : Word16
deriving DecidableEq, Repr

/-- The commands: one constructor for each row of spec/opcode_table.json. -/
inductive Instr where
  /-- IDENT (01H), R162. -/
  | ident (f : Request)
  /-- GET_SETTINGS (02H), R165. -/
  | getSettings (f : Request)
  /-- SET_SETTINGS (03H), R164. -/
  | setSettings (f : Request)
  /-- LOAD_BANK (10H), R4 to R7. -/
  | loadBank (f : Request)
  /-- READ_BANK (11H), R13. -/
  | readBank (f : Request)
  /-- LOAD_ROUTE (12H), R15, R16. -/
  | loadRoute (f : Request)
  /-- READ_ROUTE (13H), R18. -/
  | readRoute (f : Request)
  /-- LOAD_STEPS (14H), R76. -/
  | loadSteps (f : Request)
  /-- READ_STEPS (15H), R77. -/
  | readSteps (f : Request)
  /-- OPEN_PATH (20H), R21 to R24. -/
  | openPath (f : Request)
  /-- CLOSE_PATH (21H), R21, R36. -/
  | closePath (f : Request)
  /-- SWAP_PATH (22H), R21, R26, R27. -/
  | swapPath (f : Request)
  /-- CANCEL_CHANGE (23H), R21, R37. -/
  | cancelChange (f : Request)
  /-- READ_PATHS (24H), R40. -/
  | readPaths (f : Request)
  /-- READ_QUEUE (25H), R74. -/
  | readQueue (f : Request)
  /-- SET_SEQUENCER (30H), R79. -/
  | setSequencer (f : Request)
  /-- READ_SEQUENCER (31H), R98. -/
  | readSequencer (f : Request)
  /-- SEQ_RUN (32H), R81, R82. -/
  | seqRun (f : Request)
  /-- SEQ_HOLD (33H), R92. -/
  | seqHold (f : Request)
  /-- SEQ_RESUME (34H), R93. -/
  | seqResume (f : Request)
  /-- SEQ_STOP (35H), R94. -/
  | seqStop (f : Request)
  /-- ARM_DIVERT (36H), R91. -/
  | armDivert (f : Request)
  /-- CLAIM (40H), R112. -/
  | claim (f : Request)
  /-- RELEASE (41H), R113. -/
  | release (f : Request)
  /-- READ_CLAIMS (42H), R115. -/
  | readClaims (f : Request)
  /-- READ_EVENTS (50H), R168. -/
  | readEvents (f : Request)
  /-- CLEAR_EVENTS (51H), R169. -/
  | clearEvents (f : Request)
  /-- READ_FAULTS (52H), R137. -/
  | readFaults (f : Request)
  /-- CLEAR_FAULTS (53H), R131 to R135. -/
  | clearFaults (f : Request)
  /-- SAFE_ENTER (60H), R145. -/
  | safeEnter (f : Request)
  /-- SAFE_EXIT (61H), R146. -/
  | safeExit (f : Request)
  /-- NODE_RESET (62H), R147. -/
  | nodeReset (f : Request)
  /-- FORGET (63H), R155. -/
  | forget (f : Request)
  /-- E_UNKNOWN: a REQUEST with a code not in the table, R161. -/
  | eUnknown (code : Byte) (f : Request)
  /-- CADENCE, R158. -/
  | cadence (f : CadenceFrame)
  /-- WINDOW_OPEN, R42, R43. -/
  | windowOpen (h : Header) (tag planes : Byte) (budget : Word16)
  /-- WINDOW_SHUT, R45. -/
  | windowShut (h : Header) (tag : Byte)
  /-- ENUMERATE, R154. -/
  | enumerate (h : Header) (next flags : Byte)
  /-- REQUEST_OTHER_DESTINATION: a REQUEST for another address, R153. -/
  | requestOtherDestination (code : Byte) (f : Request)
  /-- ADDRESS_CLASH: a REQUEST to the node's address that carries a status, R156. -/
  | addressClash (code : Byte) (f : Request)
  /-- BAD_FRAME: the bytes of a frame that fails a test of R150. -/
  | badFrame (bytes : List Byte)
  /-- UNKNOWN_FRAME: the bytes of a frame of unknown kind, R150. -/
  | unknownFrame (bytes : List Byte)
  /-- FORWARD_LIST_FULL: the bytes of a frame that ends while the forward list holds 4 frames, R152. -/
  | forwardListFull (bytes : List Byte)
  /-- FORWARD_FRAME_SENT, R152. -/
  | forwardFrameSent
  /-- WINDOW_BUDGET_END of one tracker, R44. -/
  | windowBudgetEnd (p : Plane)
  /-- LEG_DRIVE_END of one Plane Driver, R64. -/
  | legDriveEnd (p : Plane)
  /-- LEG_READBACK of one Plane Driver, R64. -/
  | legReadback (p : Plane)
  /-- FORCED_PAUSE_END of one Plane Driver, R73. -/
  | forcedPauseEnd (p : Plane)
  /-- PATH_SETTLE_TIMER_END of one slot, R31. -/
  | pathSettleTimerEnd (p : Slot)
  /-- GRACE_END, R141. -/
  | graceEnd
  /-- KEEPALIVE_EXPIRY, R160. -/
  | keepaliveExpiry
  /-- VISIT_CYCLE_START, R123. -/
  | visitCycleStart
  /-- VISIT_END, R124. -/
  | visitEnd
  /-- INPUT_LEVEL_CHANGE: the input now stands at `closed` (SEATED for a seat, CLOSED for the door), R116. -/
  | inputLevelChange (input : ChamberInput) (closed : Bool)
  /-- DOOR_DEBOUNCED_CHANGE, R116, R139. -/
  | doorDebouncedChange
  /-- SEAT_DEBOUNCED_CHANGE of one fixture port, R118 to R121. -/
  | seatDebouncedChange (n : FixtureId)
  /-- HARDWARE_RESET: power-on or the RESET pin, R2 and every block's reset values. -/
  | hardwareReset
  /-- HARDWARE_RESET_END: the end of the reset, R116, R122, R139. -/
  | hardwareResetEnd
deriving DecidableEq, Repr

end Sys2Proof
end

