-- ==== Sys2Proof/WellFormed.lean ====
section
/-! DEFINITION. What makes a command one that its row can spell: the sizes R149 gives a REQUEST, and the field
that tells each ring row from its neighbours (R150, R153, R156, R161). The machine itself is total: a command that
is not well formed is taken by the tests of R150 or by the rule its fields meet (log 9). -/

namespace Sys2Proof

/-- The 33 request codes of R161. -/
def requestCodes : List Byte :=
  [0x01, 0x02, 0x03, 0x10, 0x11, 0x12, 0x13, 0x14, 0x15] ++
  [0x20, 0x21, 0x22, 0x23, 0x24, 0x25] ++
  [0x30, 0x31, 0x32, 0x33, 0x34, 0x35, 0x36] ++
  [0x40, 0x41, 0x42, 0x50, 0x51, 0x52, 0x53, 0x60, 0x61, 0x62, 0x63]

/-- R149: parameters of 0..56 bytes and response data of 0..56 bytes. -/
def Request.wellFormed (f : Request) : Bool :=
  decide (f.params.length ≤ Config.maxRequestData) && decide (f.resp.length ≤ Config.maxRequestData)

/-- R149 and R150, tests 1 and 3: 6 to 126 bytes, of a kind that is none of the five. -/
def unknownBytesWellFormed (bytes : List Byte) : Bool :=
  decide (6 ≤ bytes.length) && decide (bytes.length ≤ 126) &&
    (match bytes with
     | [] => false
     | b :: _ => decide (b.toNat / 16 = 0) || decide (6 ≤ b.toNat / 16))

/-- The check for one command. -/
def Instr.wellFormed : Instr → Bool
  | .ident f | .getSettings f | .setSettings f | .loadBank f | .readBank f | .loadRoute f | .readRoute f
  | .loadSteps f | .readSteps f | .openPath f | .closePath f | .swapPath f | .cancelChange f | .readPaths f
  | .readQueue f | .setSequencer f | .readSequencer f | .seqRun f | .seqHold f | .seqResume f | .seqStop f
  | .armDivert f | .claim f | .release f | .readClaims f | .readEvents f | .clearEvents f | .readFaults f
  | .clearFaults f | .safeEnter f | .safeExit f | .nodeReset f | .forget f => f.wellFormed
  | .eUnknown code f => f.wellFormed && !(requestCodes.contains code)
  | .requestOtherDestination _ f => f.wellFormed && decide (f.hdr.dest ≠ 0)
  | .addressClash _ f => f.wellFormed && decide (f.hdr.dest ≠ 0) && decide (f.status ≠ 0xFF)
  | .badFrame bytes => !bytes.isEmpty
  | .unknownFrame bytes => unknownBytesWellFormed bytes
  | .forwardListFull bytes => !bytes.isEmpty
  | .cadence _ | .windowOpen _ _ _ _ | .windowShut _ _ | .enumerate _ _ _ | .forwardFrameSent
  | .windowBudgetEnd _ | .legDriveEnd _ | .legReadback _ | .forcedPauseEnd _ | .pathSettleTimerEnd _
  | .graceEnd | .keepaliveExpiry | .visitCycleStart | .visitEnd | .inputLevelChange _ _
  | .doorDebouncedChange | .seatDebouncedChange _ | .hardwareReset | .hardwareResetEnd => true

end Sys2Proof
end

