-- ==== Sys2Proof/Decode.lean ====
section
/-! DEFINITION. The words of the opcode table. No row of spec/opcode_table.json gives bits ("n_rows_with_fixed": 0
in spec/98_reader.md), so no word spells a command. The frames of the ring are decoded by Machine/RingFrames.lean. -/

namespace Sys2Proof

/-- The command a word spells by the table's bits: no row gives bits, so every word is rejected. -/
def decodeTableWord (_nbits _w : Nat) : Option Instr := none

end Sys2Proof
end

