-- ==== Sys2Proof/Machine/State.lean ====
section
/-! DEFINITION. The state of the FX-6420: the record of every block (00_scope, "The blocks and what each holds"),
its pins, the queue of waiting commands, and the value of all of it right after hardware reset. Times that run are
held in ticks of 10 µs (log 2). -/

namespace Sys2Proof.Machine

/-- One copy for each plane. -/
structure ByPlane (α : Type) where
  a : α
  b : α
deriving DecidableEq, Repr

/-- One copy for each station. -/
structure ByStation (α : Type) where
  s1 : α
  s2 : α
deriving DecidableEq, Repr

/-! ## Banks (R1, R3) -/

/-- A position the contacts can show (R3): TERM, or T1 (`thr 0`) to T8 (`thr 7`). -/
inductive Contact where
  | term
  | thr (t : Fin 8)
deriving DecidableEq, Repr

/-- A recorded position: `none` is UNKNOWN (R1). -/
abbrev Position := Option Contact

/-- The result of a readback: `none` is "no valid reading", which is recorded as UNKNOWN (R3). -/
abbrev Reading := Option Contact

/-- One record of the Bank Map (R1). -/
structure BankRecord where
  fitted : Bool
  plane : Plane
  /-- 1..8 -/
  throwsFitted : Nat
  /-- 1..200 (×100 µs) -/
  operate : Nat
  /-- 0..200 (×100 µs) -/
  settle : Nat
  /-- 0..4 294 967 295; 0 means no limit -/
  lifeLimit : Nat
  /-- 0..4 294 967 295, saturating (R9) -/
  lifeCount : Nat
  position : Position
  holder : Option Slot
  homeOwed : Bool
  /-- 0..7, saturating (R10) -/
  hotDeferrals : Nat
deriving DecidableEq, Repr

/-- The value of a bank record after hardware reset (R2). -/
def BankRecord.reset : BankRecord :=
  { fitted := false, plane := .a, throwsFitted := 1, operate := 1, settle := 0, lifeLimit := 0, lifeCount := 0,
    position := none, holder := none, homeOwed := false, hotDeferrals := 0 }

/-- The sense lines of one bank (00_scope, "Bank lines"; R3, R62, R124): pins that the outside drives (log 4). -/
structure BankLines where
  /-- bit 0: the TERM contact is closed; bit n: the Tn contact is closed -/
  contacts : BitVec 9
  /-- the RF detector on the common port, code 0..1023 -/
  detector : BitVec 10
  /-- the coil continuity sense, code 0..1023 -/
  coil : BitVec 10
deriving DecidableEq, Repr

/-! ## Routes (R14) -/

/-- The station of a route (R14). -/
inductive RouteStation where
  | s1
  | s2
  | either
deriving DecidableEq, Repr

/-- The far end of a route (R14). -/
inductive Endpoint where
  | probe (n : Fin 64)
  | fixture (n : FixtureId)
deriving DecidableEq, Repr

/-- One leg of a route's leg list (R14). -/
structure RouteLeg where
  bank : BankId
  thr : Fin 8
deriving DecidableEq, Repr

/-- One record of the Route Table (R14). -/
structure RouteRecord where
  defined : Bool
  station : RouteStation
  /-- 1..8 -/
  port : Nat
  plane : Plane
  endpoint : Endpoint
  legs : List RouteLeg
  /-- 0..200 (×100 µs) -/
  extraSettle : Nat
deriving DecidableEq, Repr

/-- The values of an undefined route (R14). -/
def RouteRecord.undefined : RouteRecord :=
  { defined := false, station := .s1, port := 1, plane := .a, endpoint := .probe 0, legs := [], extraSettle := 0 }

/-! ## Paths (R19) -/

inductive PathState where
  | free
  | forming
  | settling
  | live
  | closing
  | failed
deriving DecidableEq, Repr

/-- Who formed a path (R19). -/
inductive PathOrigin where
  | request
  | sequencer
deriving DecidableEq, Repr

/-- The event that set close owed (R19, R34). -/
inductive CloseCause where
  | closePath
  | fixtureLoss
deriving DecidableEq, Repr

/-- Why a path went FAILED (R19). -/
inductive FailReason where
  | makeFailed
  | bankFault
  | fixtureLost
  | breakFailed
deriving DecidableEq, Repr

/-- The state a path held when it last became CLOSING (R19). -/
inductive PriorState where
  | settling
  | live
  | failed
deriving DecidableEq, Repr

/-- One record of the Path Set (R19). -/
structure PathRecord where
  state : PathState
  route : Option RouteId
  station : Option Station
  origin : Option PathOrigin
  /-- 0..6 -/
  legsDone : Nat
  closeOwed : Bool
  closeOwedCause : Option CloseCause
  failure : Option FailReason
  prior : Option PriorState
  /-- 0..6 -/
  priorLegs : Nat
  /-- stopped, or the time left in ticks -/
  settleTimer : Option Nat
  established : Option Word16
deriving DecidableEq, Repr

/-- The FREE values (R20). -/
def PathRecord.free : PathRecord :=
  { state := .free, route := none, station := none, origin := none, legsDone := 0, closeOwed := false,
    closeOwedCause := none, failure := none, prior := none, priorLegs := 0, settleTimer := none,
    established := none }

/-! ## The Change Queue (R51) -/

inductive ChangeKind where
  | makeChange
  | breakChange
  | swapChange
deriving DecidableEq, Repr

/-- Who caused a change (R51). -/
inductive ChangeOrigin where
  | request (s : Station)
  | sequencer (s : Station)
  | part
deriving DecidableEq, Repr

inductive ChangePart where
  | breakPart
  | makePart
deriving DecidableEq, Repr

/-- Whose legs done a leg's completion raises (R51). -/
inductive CountsFor where
  | oldSlot
  | newSlot
  | neither
deriving DecidableEq, Repr

/-- One leg of a plan (R51): action BREAK is the target TERM, action MAKE the target throw. -/
structure PlanLeg where
  bank : BankId
  target : Contact
  part : ChangePart
  counts : CountsFor
deriving DecidableEq, Repr

/-- One change entry (R51). -/
structure Entry where
  kind : ChangeKind
  old : Option Slot
  new : Option Slot
  plane : Plane
  origin : ChangeOrigin
  /-- no: WAITING; yes: ACTIVE -/
  active : Bool
  plan : List PlanLeg
deriving DecidableEq, Repr

/-! ## Windows and drivers (R41, R56) -/

/-- One Window Tracker (R41), with one mark of the model's own. -/
structure Tracker where
  /-- window state OPEN -/
  isOpen : Bool
  tag : Option Byte
  /-- 0..4095 (×10 µs); 1..4095 while open -/
  budget : Nat
  closingHeld : Bool
  /-- the model's own (log 2): the last 10 µs of the open window have passed, and its budget end is due; until that is
  taken the tracker is open with budget 1 -/
  due : Bool := false
deriving DecidableEq, Repr

/-- The tracker called "shut" (R41). -/
def Tracker.shut : Tracker := { isOpen := false, tag := none, budget := 0, closingHeld := false }

inductive DriverPhase where
  | idle
  | driving
  | settling
  | checking
deriving DecidableEq, Repr

/-- What a leg is performed for (R56): the head entry, a home, or a forced leg of teardown (a path's break or a
home, R72). -/
inductive LegSource where
  | entry
  | home
  | forcedBreak (p : Slot)
  | forcedHome
deriving DecidableEq, Repr

/-- A leg being performed (R56). -/
structure FlightLeg where
  bank : BankId
  target : Contact
  source : LegSource
deriving DecidableEq, Repr

/-- Why a driver starts no work until an opening notice (R56). -/
inductive WaitReason where
  | noFit
  | hot
deriving DecidableEq, Repr

/-- The pause after a mismatched forced leg (R73). -/
structure ForcedPause where
  leg : FlightLeg
  /-- the time left in ticks -/
  left : Nat
deriving DecidableEq, Repr

/-- One Plane Driver (R56). -/
structure Driver where
  phase : DriverPhase
  leg : Option FlightLeg
  /-- the time left of the drive or settle phase in ticks (R63, R64) -/
  left : Nat
  held : Option PlanLeg
  waiting : Option WaitReason
  /-- homes passed over: bit n for bank n -/
  passed : BitVec 24
  forced : Bool
  pause : Option ForcedPause
deriving DecidableEq, Repr

/-- The value of a driver after hardware reset (R56). -/
def Driver.reset : Driver :=
  { phase := .idle, leg := none, left := 0, held := none, waiting := none, passed := 0, forced := false,
    pause := none }

/-! ## Step Memory and sequencers (R75, R78, R80) -/

/-- What a step asks for one plane (R75). -/
inductive RouteField where
  | route (r : RouteId)
  | keep
  | clear
deriving DecidableEq, Repr

inductive Condition where
  | always
  | live
  | idle
  | gate
  | noGate
  | fault
  | noFault
  | lastPass
deriving DecidableEq, Repr

/-- APPLY with its dwell (1..4096), or JUMP with its target (R75). -/
inductive StepKind where
  | apply (dwell : Nat)
  | jump (target : StepId)
deriving DecidableEq, Repr

/-- One step record (R75). -/
structure StepRecord where
  kind : StepKind
  routeA : RouteField
  routeB : RouteField
  cond : Condition
  mark : Bool
  hold : Bool
deriving DecidableEq, Repr

/-- The reset step (R75). -/
def StepRecord.reset : StepRecord :=
  { kind := .apply 1, routeA := .keep, routeB := .keep, cond := .always, mark := false, hold := false }

/-- A sequencer's settings record (R78). -/
structure SeqSettings where
  regionFirst : StepId
  regionLast : StepId
  start : StepId
  stop : Option StepId
  /-- group start and group end: both none or both steps -/
  group : Option (StepId × StepId)
  /-- 0..255 -/
  groupCount : Nat
  divertTarget : StepId
deriving DecidableEq, Repr

/-- The settings after hardware reset (R78). -/
def SeqSettings.reset : SeqSettings :=
  { regionFirst := 0, regionLast := 511, start := 0, stop := none, group := none, groupCount := 0,
    divertTarget := 0 }

inductive SeqState where
  | idle
  | waiting
  | dwelling
  | stalled
  | held
  | done
  | faulted
deriving DecidableEq, Repr

/-- The phase a HELD sequencer returns to (R80). -/
inductive HeldPhase where
  | arrival
  | waiting
  | dwelling
  | stalled
deriving DecidableEq, Repr

/-- The kind of call that a stalled plane repeats (R108): a BREAK never stalls (R103). -/
inductive StalledCall where
  | makeCall
  | swapCall
deriving DecidableEq, Repr

inductive SeqFaultReason where
  | route
  | station
  | claim
  | fixture
  | inhibited
  | conflict
  | plane
  | region
  | safe
deriving DecidableEq, Repr

/-- A sequencer's fault record (R80, R96). -/
structure SeqFault where
  step : StepId
  plane : Option Plane
  reason : SeqFaultReason
deriving DecidableEq, Repr

/-- One record of a pending list (R84): the change is the entry that names these slots (log 11). -/
structure PendingChange where
  plane : Plane
  old : Option Slot
  new : Option Slot
deriving DecidableEq, Repr

/-- The run state of a sequencer (R80). -/
structure SeqRun where
  state : SeqState
  cursor : StepId
  copy : StepRecord
  /-- 0..255 -/
  groupCounter : Nat
  divertArmed : Bool
  heldPhase : Option HeldPhase
  heldByLoopback : Bool
  /-- 0..4096 CADENCE frames -/
  dwell : Nat
  jumpTaken : Bool
  applied : ByPlane Bool
  /-- a stalled plane with the call it repeats -/
  stalled : ByPlane (Option StalledCall)
  changes : List PendingChange
  current : ByPlane (Option Slot)
  fault : Option SeqFault
  lastMark : Option StepId
deriving DecidableEq, Repr

/-- The reset values of the run state (R80). -/
def SeqRun.reset : SeqRun :=
  { state := .idle, cursor := 0, copy := StepRecord.reset, groupCounter := 0, divertArmed := false,
    heldPhase := none, heldByLoopback := false, dwell := 0, jumpTaken := false, applied := ⟨false, false⟩,
    stalled := ⟨none, none⟩, changes := [], current := ⟨none, none⟩, fault := none, lastMark := none }

/-- One List Sequencer: its settings and its run state. -/
structure Sequencer where
  cfg : SeqSettings
  run : SeqRun
deriving DecidableEq, Repr

/-! ## Claims and chamber lines (R111, R116) -/

/-- The Claim Table (R111). -/
structure ClaimTable where
  banks : Vector (Option Station) 24
  fixtures : Vector (Option Station) 4
deriving DecidableEq, Repr

def ClaimTable.empty : ClaimTable :=
  { banks := Vector.replicate 24 none, fixtures := Vector.replicate 4 none }

/-- One debounced input (R116). `true` is SEATED for a seat and CLOSED for the door. -/
structure DebouncedInput where
  /-- the pin, as the strap makes it read -/
  level : Bool
  debounced : Bool
  /-- stopped, or the time left in ticks -/
  timer : Option Nat
deriving DecidableEq, Repr

/-- The Chamber Line Unit (R116, R144, R171). -/
structure ChamberLines where
  seats : Vector DebouncedInput 4
  door : DebouncedInput
  mute1 : Bool
  mute2 : Bool
  alert : Bool
deriving DecidableEq, Repr

/-! ## Supervision (R122) -/

inductive FaultKind where
  | coil
  | drift
  | stray
  | position
  | hot
  | worn
deriving DecidableEq, Repr

/-- A set of fault kinds in the kind set coding of R131: bit 0 COIL to bit 5 WORN. -/
abbrev KindSet := BitVec 6

inductive CycleState where
  | stopped
  | waiting
  | visiting
deriving DecidableEq, Repr

/-- The three readings of a visit (R124). -/
structure Sample where
  coil : BitVec 10
  detector : BitVec 10
  reading : Reading
deriving DecidableEq, Repr

/-- The visit under way on the bank at the visit position (R124). -/
structure Visit where
  sample : Sample
  /-- the time left in ticks -/
  left : Nat
deriving DecidableEq, Repr

/-- The miss counters of one bank, 0..7 each (R128); WORN has none. -/
structure MissCounters where
  coil : Nat
  drift : Nat
  stray : Nat
  position : Nat
  hot : Nat
deriving DecidableEq, Repr

def MissCounters.zero : MissCounters := { coil := 0, drift := 0, stray := 0, position := 0, hot := 0 }

/-- The Supervision Unit (R122). -/
structure Supervision where
  cycle : CycleState
  position : BankId
  /-- the interval timer: ticks since the start of the last cycle, up to 127 ms -/
  elapsed : Nat
  /-- the interval timer runs (R123: not with interval 0, nor until the cycle then under way has ended) -/
  running : Bool
  visit : Option Visit
  counters : Vector MissCounters 24
  /-- the Fault Table: the valid kinds of each bank (R129) -/
  faults : Vector KindSet 24
  summaries : KindSet
  samples : Vector (Option Sample) 24
deriving DecidableEq, Repr

def Supervision.reset : Supervision :=
  { cycle := .waiting, position := 0, elapsed := 0, running := true, visit := none,
    counters := Vector.replicate 24 MissCounters.zero, faults := Vector.replicate 24 0, summaries := 0,
    samples := Vector.replicate 24 none }

/-! ## Events (R166, R167) -/

inductive Event where
  | pathLive
  | pathFailed
  | pathFreed
  | changeFailed
  | windowOverrun
  | hotDefer
  | seq1Mark
  | seq2Mark
  | seq1Stopped
  | seq2Stopped
  | seq1Fault
  | seq2Fault
  | seq1Stall
  | seq2Stall
  | seq1Wrap
  | seq2Wrap
  | fault
  | safe
  | fixture
  | cadenceSlip
  | ringError
  | addressClash
deriving DecidableEq, Repr

/-- Why an entry failed (R69). -/
inductive EntryFailure where
  | inhibited
  | hot
  | position
  | safe
deriving DecidableEq, Repr

/-- The last change failure record (R69, R167). -/
structure ChangeFailure where
  kind : ChangeKind
  old : Option Slot
  new : Option Slot
  route : Option RouteId
  reason : EntryFailure
  bank : Option BankId
  part : ChangePart
deriving DecidableEq, Repr

/-- Whether an overrun leg was an entry's leg, a home or a forced leg (R67). -/
inductive OverrunSource where
  | entry
  | home
  | forced
deriving DecidableEq, Repr

/-- The last overrun record (R67, R167); `settling` is the phase the leg was in, else DRIVING. -/
structure Overrun where
  bank : BankId
  plane : Plane
  settling : Bool
  source : OverrunSource
deriving DecidableEq, Repr

/-- The last fixture change record (R121, R167): slot sets hold bit n for Pn. -/
structure FixtureChange where
  fixture : FixtureId
  seated : Bool
  failedSlots : BitVec 16
  cancelledSlots : BitVec 16
deriving DecidableEq, Repr

/-- The Event Unit (R166, R167): flag n of the event map is bit n. -/
structure EventUnit where
  flags : BitVec 22
  lastFailure : Option ChangeFailure
  lastOverrun : Option Overrun
  lastFixture : Option FixtureChange
deriving DecidableEq, Repr

def EventUnit.reset : EventUnit :=
  { flags := 0, lastFailure := none, lastOverrun := none, lastFixture := none }

/-! ## Safe Controller (R138) -/

inductive SafeState where
  | normal
  | grace
  | teardown
  | safe
deriving DecidableEq, Repr

inductive SafeCause where
  | keepalive
  | door
  | fault
  | request
  | reset
deriving DecidableEq, Repr

/-- The Safe Controller (R138); the cause set in the coding of R145, bit 0 KEEPALIVE to bit 4 RESET. -/
structure SafeController where
  state : SafeState
  causes : BitVec 5
  /-- stopped, or the time left in ticks -/
  grace : Option Nat
  resetPending : Bool
deriving DecidableEq, Repr

def SafeController.reset : SafeController :=
  { state := .normal, causes := 0, grace := none, resetPending := false }

/-! ## Ring Interface (R148) and settings (R163) -/

/-- The Ring Interface (R148); the gate bits as a frame carries them, bit 0 S1A to bit 3 S2B. -/
structure RingInterface where
  address : Option (BitVec 4)
  /-- 0..255, saturating -/
  badFrames : Nat
  lastCadence : Option Word16
  gates : BitVec 4
  /-- stopped, or the time left in ticks -/
  keepalive : Option Nat
  /-- the frames taken and not yet sent, oldest first, as the bytes that leave -/
  forward : List (List Byte)
deriving DecidableEq, Repr

def RingInterface.reset : RingInterface :=
  { address := none, badFrames := 0, lastCadence := none, gates := 0, keepalive := none, forward := [] }

/-- The settings record (R163). -/
structure Settings where
  /-- 0..255 ms; 0 = off -/
  keepalivePeriod : Nat
  /-- 1..255 ms -/
  muteGrace : Nat
  /-- 0..127 ms; 0 = stopped -/
  interval : Nat
  /-- 0..7; 0 acts as 1 -/
  missThreshold : Nat
  bypass : KindSet
  /-- 0..1023 -/
  hotThreshold : Nat
  /-- 0..1023 -/
  strayThreshold : Nat
  /-- 0..1023 -/
  coilMin : Nat
  /-- 0..1023 -/
  coilMax : Nat
  alertMask : KindSet
  safeMask : KindSet
  attentionMask : BitVec 22
deriving DecidableEq, Repr

/-- The defaults (R163). -/
def Settings.default : Settings :=
  { keepalivePeriod := 0, muteGrace := 10, interval := 20, missThreshold := 2, bypass := 0, hotThreshold := 64,
    strayThreshold := 128, coilMin := 200, coilMax := 800, alertMask := 0x3F, safeMask := 0,
    attentionMask := 0x3FFFFF }

/-! ## The whole -/

/-- The state of the part. -/
structure State where
  /-- the RESET input holds the part in reset -/
  inReset : Bool
  ring : RingInterface
  settings : Settings
  banks : Vector BankRecord 24
  lines : Vector BankLines 24
  routes : Vector RouteRecord 128
  paths : Vector PathRecord 16
  queue : List Entry
  trackers : ByPlane Tracker
  drivers : ByPlane Driver
  steps : Vector StepRecord 512
  seqs : ByStation Sequencer
  claims : ClaimTable
  chamber : ChamberLines
  sup : Supervision
  events : EventUnit
  safe : SafeController
  /-- the outcome of the next order the spec leaves open: FREE VALUE (log 3) -/
  arb : Arb
  /-- how many of those have been drawn (log 3) -/
  draws : Nat
  /-- the commands waiting, first in, first out (log 1) -/
  pending : List Instr
deriving DecidableEq, Repr

/-- DESIGN CHOICE (log 3): the orders taken first after reset. No statement rests on them. -/
def Arb.initial : Arb :=
  { planeBFirst := false, seq2First := false, weave := .apart, bits := 0, coilFirst := false, pick := 0 }

/-- DESIGN CHOICE (log 5): the level of a seat or door input in `State.reset`, and its sampled debounced state
(R116). -/
def DebouncedInput.sampled (level : Bool) : DebouncedInput :=
  { level := level, debounced := level, timer := none }

/-- The machine right after hardware reset with the door closed (log 6): every block at its hardware reset values
(R2, R14, R20, R41, R55, R56, R75, R78, R80, R111, R116, R122, R138, R144, R148, R163, R166, R167, R171). -/
def State.reset : State :=
  { inReset := false
    ring := RingInterface.reset
    settings := Settings.default
    banks := Vector.replicate 24 BankRecord.reset
    lines := Vector.replicate 24 { contacts := 0, detector := 0, coil := 0 }
    routes := Vector.replicate 128 RouteRecord.undefined
    paths := Vector.replicate 16 PathRecord.free
    queue := []
    trackers := ⟨Tracker.shut, Tracker.shut⟩
    drivers := ⟨Driver.reset, Driver.reset⟩
    steps := Vector.replicate 512 StepRecord.reset
    seqs := ⟨⟨SeqSettings.reset, SeqRun.reset⟩, ⟨SeqSettings.reset, SeqRun.reset⟩⟩
    claims := ClaimTable.empty
    chamber :=
      { seats := Vector.replicate 4 (DebouncedInput.sampled false), door := DebouncedInput.sampled true,
        mute1 := false, mute2 := false, alert := false }
    sup := Supervision.reset
    events := EventUnit.reset
    safe := SafeController.reset
    arb := Arb.initial
    draws := 0
    pending := [] }

/-- The block has no reason to stop: no rule of the spec gives a command no effect at all. Nobody raises one. -/
inductive Fault where
deriving DecidableEq, Repr

/-- Why a command is turned away without a meaning. -/
inductive Refusal where
  /-- The dispatcher raises it for a command the model has not reached yet. Safe: the model stops where the part
  goes on. -/
  | notModelled (mnemonic : String)
deriving DecidableEq, Repr

end Sys2Proof.Machine
end

