-- ==== Sys2Proof/Machine/Flags.lean ====
section
/-! DEFINITION. Flag computations: the event flags (R166), kind sets (R131), the cause set (R145), the settle and
attention bits (R39, R170) and the MUTE1, MUTE2 and ALERT outputs (R144, R171). -/

namespace Sys2Proof.Machine

/-- The place of a kind in the kind set coding (R131). -/
def FaultKind.bit : FaultKind → Nat
  | .coil => 0
  | .drift => 1
  | .stray => 2
  | .position => 3
  | .hot => 4
  | .worn => 5

/-- The kind set holding one kind. -/
def FaultKind.mask (k : FaultKind) : KindSet := 1#6 <<< k.bit

/-- The kind is in the set. -/
def kindIn (k : FaultKind) (set : KindSet) : Bool := set.getLsbD k.bit

/-- The set with the kind added. -/
def kindInsert (k : FaultKind) (set : KindSet) : KindSet := set ||| k.mask

/-- The set with the kind taken out. -/
def kindErase (k : FaultKind) (set : KindSet) : KindSet := set &&& ~~~k.mask

/-- The six kinds in the order of the coding. -/
def allKinds : List FaultKind := [.coil, .drift, .stray, .position, .hot, .worn]

/-- The number of a flag in the event map (R166). -/
def Event.bit : Event → Nat
  | .pathLive => 0
  | .pathFailed => 1
  | .pathFreed => 2
  | .changeFailed => 3
  | .windowOverrun => 4
  | .hotDefer => 5
  | .seq1Mark => 6
  | .seq2Mark => 7
  | .seq1Stopped => 8
  | .seq2Stopped => 9
  | .seq1Fault => 10
  | .seq2Fault => 11
  | .seq1Stall => 12
  | .seq2Stall => 13
  | .seq1Wrap => 14
  | .seq2Wrap => 15
  | .fault => 16
  | .safe => 17
  | .fixture => 18
  | .cadenceSlip => 19
  | .ringError => 20
  | .addressClash => 21

/-- The event map naming one flag. -/
def Event.mask (e : Event) : BitVec 22 := 1#22 <<< e.bit

/-- R166: a flag is set each time its event is raised, whether or not it is in the attention mask. -/
def State.raise (s : State) (e : Event) : State :=
  { s with events := { s.events with flags := s.events.flags ||| e.mask } }

/-- The flag of an event is set. -/
def State.flagSet (s : State) (e : Event) : Bool := s.events.flags.getLsbD e.bit

/-- The place of a cause in the coding of R145. -/
def SafeCause.bit : SafeCause → Nat
  | .keepalive => 0
  | .door => 1
  | .fault => 2
  | .request => 3
  | .reset => 4

def SafeCause.mask (c : SafeCause) : BitVec 5 := 1#5 <<< c.bit

/-- The cause is in the set. -/
def causeIn (c : SafeCause) (set : BitVec 5) : Bool := set.getLsbD c.bit

/-- R139: a cause joins the set; if it is already in the set, the set is unchanged. -/
def causeInsert (c : SafeCause) (set : BitVec 5) : BitVec 5 := set ||| c.mask

/-- R139: a cause leaves the set. -/
def causeErase (c : SafeCause) (set : BitVec 5) : BitVec 5 := set &&& ~~~c.mask

/-- The Safe Controller is NORMAL (R138). -/
def State.isNormal (s : State) : Bool := decide (s.safe.state = .normal)

/-- R39: the node is settled. -/
def State.settled (s : State) : Bool :=
  s.queue.isEmpty
    && (List.finRange 16).all (fun p =>
          decide ((s.paths.get p).state = .free) || decide ((s.paths.get p).state = .live))
    && s.isNormal

/-- R170: at least one event flag that is in the attention mask is set. -/
def State.attention (s : State) : Bool := decide (s.events.flags &&& s.settings.attentionMask ≠ 0)

/-- The events that a CADENCE frame itself raises (R170): CADENCE_SLIP and the marks, stops, faults, stalls and wraps of
the two sequencers that take it. -/
def frameEvents : BitVec 22 := Event.cadenceSlip.mask ||| 0xFFC0#22

/-- R170: at least one event that a CADENCE frame raises is set and in the attention mask. -/
def State.frameAttention (s : State) : Bool := decide (s.events.flags &&& frameEvents &&& s.settings.attentionMask ≠ 0)

/-- R171: ALERT is asserted while a kind in the alert mask has its summary set, or the state is not NORMAL. -/
def State.alertDue (s : State) : Bool :=
  decide (s.sup.summaries &&& s.settings.alertMask ≠ 0) || !s.isNormal

/-- R144: MUTE1 and MUTE2 are asserted while the state is not NORMAL. -/
def State.muteDue (s : State) : Bool := !s.isNormal

/-- R144, R171: the three outputs take the values of their conditions. Every command ends with it (log 18). -/
def State.driveOutputs (s : State) : State :=
  { s with chamber := { s.chamber with mute1 := s.muteDue, mute2 := s.muteDue, alert := s.alertDue } }

end Sys2Proof.Machine
end

