-- ==== Sys2Proof/Machine/Ops.lean ====
section
/-! DEFINITION. The named operations over the tables of State: reading and writing one record, the readback of a
bank, the passing of time, and the free orders. -/

namespace Sys2Proof.Machine

/-! ## One copy per plane or per station -/

def ByPlane.get {α : Type} (x : ByPlane α) : Plane → α
  | .a => x.a
  | .b => x.b

def ByPlane.set {α : Type} (x : ByPlane α) (p : Plane) (v : α) : ByPlane α :=
  match p with
  | .a => { x with a := v }
  | .b => { x with b := v }

def ByStation.get {α : Type} (x : ByStation α) : Station → α
  | .s1 => x.s1
  | .s2 => x.s2

def ByStation.set {α : Type} (x : ByStation α) (st : Station) (v : α) : ByStation α :=
  match st with
  | .s1 => { x with s1 := v }
  | .s2 => { x with s2 := v }

/-! ## Index lists -/

/-- B0 to B23 in index order. -/
def allBanks : List BankId := List.finRange 24

/-- P0 to P15 in slot order. -/
def allSlots : List Slot := List.finRange 16

/-- F1 to F4. -/
def allFixtures : List FixtureId := List.finRange 4

/-! ## Records -/

def State.bank (s : State) (b : BankId) : BankRecord := s.banks.get b

def State.setBank (s : State) (b : BankId) (r : BankRecord) : State := { s with banks := s.banks.set b.1 r b.2 }

/-- Every bank record rewritten by one rule. -/
def State.mapBanks (s : State) (f : BankId → BankRecord → BankRecord) : State :=
  { s with banks := Vector.ofFn fun b => f b (s.banks.get b) }

def State.route (s : State) (r : RouteId) : RouteRecord := s.routes.get r

def State.setRoute (s : State) (r : RouteId) (x : RouteRecord) : State :=
  { s with routes := s.routes.set r.1 x r.2 }

def State.path (s : State) (p : Slot) : PathRecord := s.paths.get p

def State.setPath (s : State) (p : Slot) (r : PathRecord) : State := { s with paths := s.paths.set p.1 r p.2 }

def State.tracker (s : State) (p : Plane) : Tracker := s.trackers.get p

def State.setTracker (s : State) (p : Plane) (t : Tracker) : State := { s with trackers := s.trackers.set p t }

def State.driver (s : State) (p : Plane) : Driver := s.drivers.get p

def State.setDriver (s : State) (p : Plane) (d : Driver) : State := { s with drivers := s.drivers.set p d }

def State.seq (s : State) (st : Station) : Sequencer := s.seqs.get st

/-- The run state of a station's sequencer is rewritten; its settings stand. -/
def State.setRun (s : State) (st : Station) (r : SeqRun) : State :=
  { s with seqs := s.seqs.set st { s.seqs.get st with run := r } }

def State.setSeqCfg (s : State) (st : Station) (c : SeqSettings) : State :=
  { s with seqs := s.seqs.set st { s.seqs.get st with cfg := c } }

def State.step (s : State) (n : StepId) : StepRecord := s.steps.get n

def State.setStep (s : State) (n : StepId) (r : StepRecord) : State := { s with steps := s.steps.set n.1 r n.2 }

def State.setQueue (s : State) (q : List Entry) : State := { s with queue := q }

def State.setRing (s : State) (r : RingInterface) : State := { s with ring := r }

def State.setSup (s : State) (x : Supervision) : State := { s with sup := x }

def State.setSafe (s : State) (x : SafeController) : State := { s with safe := x }

/-- The valid faults of a bank (R129). -/
def State.faultsOf (s : State) (b : BankId) : KindSet := s.sup.faults.get b

/-- The fault of the kind is valid on the bank (R129). -/
def State.faultValid (s : State) (b : BankId) (k : FaultKind) : Bool := kindIn k (s.faultsOf b)

/-- R12: the bank has at least one valid fault of any kind. -/
def State.inhibited (s : State) (b : BankId) : Bool := decide (s.faultsOf b ≠ 0)

/-- R12: a break leg on the bank is skipped: a valid COIL fault, and not recorded at TERM. -/
def State.breakSkipped (s : State) (b : BankId) : Bool :=
  s.faultValid b .coil && decide ((s.bank b).position ≠ some .term)

/-! ## Paths and routes -/

/-- The route record a slot's path was formed from. -/
def State.slotRoute (s : State) (p : Slot) : Option RouteRecord := (s.path p).route.map s.route

/-- The leg list of a slot's route, in leg order. -/
def State.slotLegs (s : State) (p : Slot) : List RouteLeg :=
  match s.slotRoute p with
  | some r => r.legs
  | none => []

/-- The slot's path is on the plane: its route's plane (00_scope, Planes and stations). -/
def State.slotOnPlane (s : State) (p : Slot) (pl : Plane) : Bool :=
  match s.slotRoute p with
  | some r => decide (r.plane = pl)
  | none => false

/-- The slot's path ends at the fixture port. -/
def State.slotEndsAt (s : State) (p : Slot) (n : FixtureId) : Bool :=
  match s.slotRoute p with
  | some r => decide (r.endpoint = .fixture n)
  | none => false

/-- The slot holds a path. -/
def State.slotUsed (s : State) (p : Slot) : Bool := decide ((s.path p).state ≠ .free)

/-- The banks the slot holds, in its route's leg order. -/
def State.heldBanks (s : State) (p : Slot) : List BankId :=
  ((s.slotLegs p).map RouteLeg.bank).filter fun b => decide ((s.bank b).holder = some p)

/-- R28: the number of the route's legs whose banks the slot no longer holds. -/
def State.legsReleased (s : State) (p : Slot) : Nat :=
  (s.slotLegs p).countP fun l => decide ((s.bank l.bank).holder ≠ some p)

/-- The lowest-numbered FREE slot (R24). -/
def State.lowestFree (s : State) : Option Slot := allSlots.find? fun p => !s.slotUsed p

/-! ## The queue -/

/-- R54: the head of a plane, the oldest of its entries. -/
def State.headOf (s : State) (pl : Plane) : Option Entry := s.queue.find? fun e => decide (e.plane = pl)

/-- The entry names the slot. -/
def Entry.names (e : Entry) (p : Slot) : Bool := decide (e.old = some p) || decide (e.new = some p)

/-- The entry of the queue that names the slot (R52: at most one does). -/
def State.entryNaming (s : State) (p : Slot) : Option Entry := s.queue.find? fun e => e.names p

/-- The first entry equal to `e` is rewritten in place. -/
def replaceFirst (e e' : Entry) : List Entry → List Entry
  | [] => []
  | x :: xs => if x = e then e' :: xs else x :: replaceFirst e e' xs

/-- The first entry equal to `e` leaves; the others keep their order (R55). -/
def removeFirst (e : Entry) : List Entry → List Entry
  | [] => []
  | x :: xs => if x = e then xs else x :: removeFirst e xs

/-- R52: the number of entries of the plane in the queue, WAITING or ACTIVE. -/
def State.entriesOn (s : State) (pl : Plane) : Nat := s.queue.countP fun e => decide (e.plane = pl)

/-! ## Banks -/

/-- R3: the result a readback gives for the state of the contacts. -/
def readingOf (contacts : BitVec 9) : Reading :=
  if contacts = 1#9 then some .term
  else ((List.finRange 8).find? fun t => decide (contacts = 1#9 <<< (t.1 + 1))).map Contact.thr

/-- R3: a readback of the bank. -/
def State.readback (s : State) (b : BankId) : Reading := readingOf (s.lines.get b).contacts

/-- The detector code of the bank (R62). -/
def State.detector (s : State) (b : BankId) : Nat := (s.lines.get b).detector.toNat

/-- R5: the bank is the bank of this driver's leg in flight. -/
def State.flightOn (s : State) (pl : Plane) (b : BankId) : Bool :=
  match (s.driver pl).leg with
  | some l => decide (l.bank = b)
  | none => false

/-- R5: the plane of the leg in flight on the bank, if there is one. -/
def State.flightPlane (s : State) (b : BankId) : Option Plane :=
  if s.flightOn .a b then some .a else if s.flightOn .b b then some .b else none

/-- R5: a leg is in flight on the bank. -/
def State.inFlight (s : State) (b : BankId) : Bool := (s.flightPlane b).isSome

/-- The recorded position is written (R8). -/
def State.recordPosition (s : State) (b : BankId) (x : Position) : State :=
  s.setBank b { s.bank b with position := x }

/-- The holder is written (R10). -/
def State.setHolder (s : State) (b : BankId) (h : Option Slot) : State :=
  s.setBank b { s.bank b with holder := h }

/-- Home owed is written (R11). -/
def State.setHomeOwed (s : State) (b : BankId) (x : Bool) : State :=
  s.setBank b { s.bank b with homeOwed := x }

/-- R35: a released bank: holder none, and home owed if it is not recorded at TERM. -/
def releasedBank (r : BankRecord) : BankRecord :=
  { r with holder := none, homeOwed := r.homeOwed || decide (r.position ≠ some .term) }

/-- R24: a reserved bank: held by the new slot, and its home no longer owed. -/
def reservedBank (p : Slot) (r : BankRecord) : BankRecord := { r with holder := some p, homeOwed := false }

/-- R9: one completed leg operation; the count saturates at 4 294 967 295. -/
def countedBank (r : BankRecord) : BankRecord := { r with lifeCount := min (r.lifeCount + 1) 4294967295 }

/-- R9: the life limit is not 0 and the life count is at or above it. -/
def BankRecord.isWorn (r : BankRecord) : Bool := decide (r.lifeLimit ≠ 0) && decide (r.lifeLimit ≤ r.lifeCount)

/-! ## Free orders (log 3) -/

/-- The next outcome of an open order is drawn. -/
def State.redraw (s : State) : State := { s with arb := Config.freeArb s.draws, draws := s.draws + 1 }

/-- Both planes act within one step, in the order the free value gives; it is used up first. -/
def eachPlane (f : Plane → State → State) (s : State) : State :=
  if s.arb.planeBFirst then f .a (f .b s.redraw) else f .b (f .a s.redraw)

/-! ## Time (log 2) -/

/-- R44: the time to the budget end of an open window. -/
def Tracker.timeLeft (t : Tracker) : Nat := if t.due then 0 else t.budget

/-- R44: only an open window's budget counts down. An open tracker has a budget of 1 at least (R41): when the last of it
passes, the budget end is due (log 2). -/
def Tracker.elapse (n : Nat) (t : Tracker) : Tracker :=
  if t.isOpen && !t.closingHeld then
    (if n < t.timeLeft then { t with budget := t.budget - n } else { t with budget := 1, due := true })
  else t

/-- R64, R73: the drive, the settle phase and the forced pause run. -/
def Driver.elapse (n : Nat) (d : Driver) : Driver :=
  { d with left := d.left - n, pause := d.pause.map fun x => { x with left := x.left - n } }

/-- A timer that runs has less time left. -/
def elapseTimer (n : Nat) (t : Option Nat) : Option Nat := t.map (· - n)

/-- R116: a debounce timer runs. -/
def DebouncedInput.elapse (n : Nat) (x : DebouncedInput) : DebouncedInput :=
  { x with timer := elapseTimer n x.timer }

/-- R123, R124: the interval timer and the visit under way run. -/
def Supervision.elapse (n : Nat) (x : Supervision) : Supervision :=
  { x with
    elapsed := if x.running then min (x.elapsed + n) Config.intervalMax else x.elapsed
    visit := x.visit.map fun v => { v with left := v.left - n } }

/-- `n` ticks of 10 µs pass: every timer that runs moves on, none beyond its end. -/
def State.elapse (s : State) (n : Nat) : State :=
  { s with
    trackers := ⟨s.trackers.a.elapse n, s.trackers.b.elapse n⟩
    drivers := ⟨s.drivers.a.elapse n, s.drivers.b.elapse n⟩
    paths := Vector.ofFn fun p => { s.paths.get p with settleTimer := elapseTimer n (s.paths.get p).settleTimer }
    safe := { s.safe with grace := elapseTimer n s.safe.grace }
    ring := { s.ring with keepalive := elapseTimer n s.ring.keepalive }
    chamber :=
      { s.chamber with
        seats := Vector.ofFn fun i => (s.chamber.seats.get i).elapse n
        door := s.chamber.door.elapse n }
    sup := s.sup.elapse n }

end Sys2Proof.Machine
end

