-- ==== Sys2Proof/Machine/Operands.lean ====
section
/-! DEFINITION. The operand forms: how bytes carry the parameters of the requests and the items of the responses.
A value of two bytes is sent most significant byte first (R149). -/

namespace Sys2Proof.Machine

/-! ## Status codes and replies (R161) -/

inductive Status where
  | ok
  | queued
  | eArg
  | eState
  | eFull
  | eClaim
  | eConflict
  | eSafe
  | eFault
  | eUnknown
deriving DecidableEq, Repr

/-- The status code written into the frame (R161). -/
def Status.code : Status → Byte
  | .ok => 0x00
  | .queued => 0x01
  | .eArg => 0x10
  | .eState => 0x11
  | .eFull => 0x12
  | .eClaim => 0x13
  | .eConflict => 0x14
  | .eSafe => 0x15
  | .eFault => 0x16
  | .eUnknown => 0x17

/-- NOT_TAKEN, the status a node executes (R156, R161). -/
def notTaken : Byte := 0xFF

/-- The answer of a request: its status and response data. -/
structure Reply where
  status : Status
  data : List Byte
deriving DecidableEq, Repr

/-! ## Bytes and values -/

/-- A value sent as one byte. -/
def byteOf (n : Nat) : Byte := BitVec.ofNat 8 n

/-- A value sent as two bytes. -/
def bytes2 (n : Nat) : List Byte := [byteOf (n / 256), byteOf n]

/-- A value sent as three bytes. -/
def bytes3 (n : Nat) : List Byte := [byteOf (n / 65536), byteOf (n / 256), byteOf n]

/-- A value sent as four bytes, most significant byte first. R149 orders values of two bytes; that the four bytes of the
life limit and the life count (R4, R13) go the same way is the model's choice (log 26). -/
def bytes4 (n : Nat) : List Byte := bytes2 (n / 65536) ++ bytes2 n

/-- The parameter byte at a position, as a number. -/
def val1 (ps : List Byte) (i : Nat) : Nat := (ps.getD i 0).toNat

/-- The value of the two bytes from a position. -/
def val2 (ps : List Byte) (i : Nat) : Nat := val1 ps i * 256 + val1 ps (i + 1)

/-- The value of the three bytes from a position. -/
def val3 (ps : List Byte) (i : Nat) : Nat := val2 ps i * 256 + val1 ps (i + 2)

/-- The value of the four bytes from a position, most significant byte first (R4; the order is the model's choice,
log 26). -/
def val4 (ps : List Byte) (i : Nat) : Nat := val2 ps i * 65536 + val2 ps (i + 2)

def boolByte (x : Bool) : Byte := if x then 1 else 0

/-- The value of a flag within a coded byte. -/
def boolVal (x : Bool) (n : Nat) : Nat := if x then n else 0

/-! ## Names -/

/-- The station field: 1 is S1, 2 is S2 (R149). -/
def stationOf (b : Byte) : Option Station := if b = 1 then some .s1 else if b = 2 then some .s2 else none

/-- 0 is plane A, 1 is plane B. -/
def planeByte : Plane → Byte
  | .a => 0
  | .b => 1

def planeOfVal (n : Nat) : Plane := if n = 1 then .b else .a

/-- 0..15, or FFH for none. -/
def slotByte : Option Slot → Byte
  | some p => byteOf p.1
  | none => 0xFF

/-- 0..127, or FFH for none. -/
def routeByte : Option RouteId → Byte
  | some r => byteOf r.1
  | none => 0xFF

/-- 0..23, or FFH for none. -/
def bankByte : Option BankId → Byte
  | some b => byteOf b.1
  | none => 0xFF

/-- 0 for TERM, 1 to 8 for T1 to T8. -/
def contactByte : Contact → Byte
  | .term => 0
  | .thr t => byteOf (t.1 + 1)

/-- A recorded position: FFH for UNKNOWN (R7, R13). -/
def positionByte : Position → Byte
  | some c => contactByte c
  | none => 0xFF

/-- A fixture port as a route's endpoint and as a refusal's item: 40H..43H are F1..F4 (R15, R22). -/
def fixtureByte (n : FixtureId) : Byte := byteOf (0x40 + n.1)

/-- 0..63 is a probe, 40H..43H are F1..F4 (R15). -/
def endpointByte : Endpoint → Byte
  | .probe n => byteOf n.1
  | .fixture n => fixtureByte n

def endpointOfVal (n : Nat) : Endpoint :=
  if n < 64 then .probe (Fin.ofNat 64 n) else .fixture (Fin.ofNat 4 (n - 0x40))

/-- 1 is S1, 2 is S2, 3 is EITHER (R15). -/
def routeStationByte : RouteStation → Byte
  | .s1 => 1
  | .s2 => 2
  | .either => 3

def routeStationOfVal (n : Nat) : RouteStation := if n = 1 then .s1 else if n = 2 then .s2 else .either

/-! ## Maps -/

/-- A map with bit n for slot Pn, sent as a value (R149). -/
def slotMap (f : Slot → Bool) : BitVec 16 :=
  allSlots.foldl (fun m p => if f p then m ||| (1#16 <<< p.1) else m) 0

def bytesOfMap16 (m : BitVec 16) : List Byte := bytes2 m.toNat

/-- An event map: a 3-byte value, flags 0 to 7 in the last byte (R166). -/
def eventMapBytes (m : BitVec 22) : List Byte := bytes3 m.toNat

/-- A kind set in one byte (R131). -/
def kindSetByte (k : KindSet) : Byte := byteOf k.toNat

/-- A byte with bit i set where `f i`. -/
def mapByte (f : Nat → Bool) : Byte :=
  (List.range 8).foldl (fun m i => if f i then m ||| (1#8 <<< i) else m) 0

/-- The claimable items of R111. -/
inductive Item where
  | bank (b : BankId)
  | fixture (n : FixtureId)
deriving DecidableEq, Repr

/-- A bank's bit in the first three bytes of a map that holds bits 0..7 in its first byte (R111, R131). -/
def bankMapBytes (f : BankId → Bool) : List Byte :=
  [0, 1, 2].map fun k => mapByte fun i => f (Fin.ofNat 24 (k * 8 + i))

/-- The 4-byte item map (R111). -/
def itemMapBytes (f : Item → Bool) : List Byte :=
  bankMapBytes (fun b => f (.bank b)) ++
    [mapByte fun i => decide (i < 4) && f (.fixture (Fin.ofNat 4 i))]

/-- The item is named in the map (R111). -/
def itemNamed (ps : List Byte) : Item → Bool
  | .bank b => (ps.getD (b.1 / 8) 0).getLsbD (b.1 % 8)
  | .fixture n => (ps.getD 3 0).getLsbD n.1

/-- The parameter of CLAIM and RELEASE is well formed: 4 bytes, bits 4..7 of the fourth zero (R112). -/
def itemMapOk (ps : List Byte) : Bool := decide (ps.length = 4) && decide (val1 ps 3 < 16)

/-! ## Bank parameters (R4) -/

/-- The parameters of LOAD_BANK (R4). -/
structure BankParams where
  bank : BankId
  fitted : Bool
  plane : Plane
  throwsFitted : Nat
  operate : Nat
  settle : Nat
  lifeLimit : Nat
  setCount : Bool
  lifeCount : Nat
deriving DecidableEq, Repr

/-- R4: the position of the first parameter that fails, 0 for the length; `none` when all pass. -/
def bankParamsFault (ps : List Byte) : Option Nat :=
  if ps.length ≠ 15 then some 0
  else if 23 < val1 ps 0 then some 1
  else if 1 < val1 ps 1 then some 2
  else if 1 < val1 ps 2 then some 3
  else if val1 ps 3 < 1 ∨ 8 < val1 ps 3 then some 4
  else if val1 ps 4 < 1 ∨ 200 < val1 ps 4 then some 5
  else if 200 < val1 ps 5 then some 6
  else if 1 < val1 ps 10 then some 8
  else none

/-- The parameters, read by position. -/
def bankParams (ps : List Byte) : BankParams :=
  { bank := Fin.ofNat 24 (val1 ps 0), fitted := decide (val1 ps 1 = 1), plane := planeOfVal (val1 ps 2),
    throwsFitted := val1 ps 3, operate := val1 ps 4, settle := val1 ps 5, lifeLimit := val4 ps 6,
    setCount := decide (val1 ps 10 = 1), lifeCount := val4 ps 11 }

/-- The bank configuration as LOAD_BANK encodes it (R13). -/
def bankConfigBytes (r : BankRecord) : List Byte :=
  [boolByte r.fitted, planeByte r.plane, byteOf r.throwsFitted, byteOf r.operate, byteOf r.settle] ++
    bytes4 r.lifeLimit

/-! ## Route parameters (R15) -/

/-- The (bank, throw) bytes of a leg list, leg 0 first. -/
def legPairs : List Byte → List (Nat × Nat)
  | x :: y :: rest => (x.toNat, y.toNat) :: legPairs rest
  | _ => []

/-- R15, checks 1 and 2 fail. -/
def routeParamsBad (ps : List Byte) : Bool :=
  decide (ps.length < 2) || decide (127 < val1 ps 0) || decide (1 < val1 ps 1) ||
    (decide (val1 ps 1 = 1) &&
      (decide (ps.length < 8)
        || decide (val1 ps 2 < 1) || decide (3 < val1 ps 2)
        || decide (val1 ps 3 < 1) || decide (8 < val1 ps 3)
        || decide (1 < val1 ps 4)
        || decide (0x43 < val1 ps 5)
        || decide (200 < val1 ps 6)
        || decide (val1 ps 7 < 1) || decide (6 < val1 ps 7)
        || decide (ps.length ≠ 8 + 2 * val1 ps 7)))

/-- R15, check 3 for one leg whose bank did not appear before. -/
def legLoadable (s : State) (pl : Plane) (bank thr : Nat) : Bool :=
  if h : bank < 24 then
    let r := s.bank ⟨bank, h⟩
    r.fitted && decide (r.plane = pl) && decide (1 ≤ thr) && decide (thr ≤ r.throwsFitted)
  else false

/-- R15, check 3: the index of the first leg that fails. -/
def firstBadLeg (s : State) (pl : Plane) : List (Nat × Nat) → List Nat → Nat → Option Nat
  | [], _, _ => none
  | (b, t) :: rest, seen, i =>
    if seen.contains b || !legLoadable s pl b t then some i else firstBadLeg s pl rest (b :: seen) (i + 1)

/-- The record that a defining LOAD_ROUTE writes. -/
def routeOfParams (ps : List Byte) : RouteRecord :=
  { defined := true, station := routeStationOfVal (val1 ps 2), port := val1 ps 3,
    plane := planeOfVal (val1 ps 4), endpoint := endpointOfVal (val1 ps 5),
    legs := (legPairs (ps.drop 8)).map fun x => ⟨Fin.ofNat 24 x.1, Fin.ofNat 8 (x.2 - 1)⟩,
    extraSettle := val1 ps 6 }

/-- A route record encoded as the parameters of LOAD_ROUTE (R18). -/
def routeBytes (n : RouteId) (r : RouteRecord) : List Byte :=
  [byteOf n.1, boolByte r.defined, routeStationByte r.station, byteOf r.port, planeByte r.plane,
   endpointByte r.endpoint, byteOf r.extraSettle, byteOf r.legs.length] ++
    r.legs.flatMap fun l => [byteOf l.bank.1, byteOf (l.thr.1 + 1)]

/-! ## Step records (R76) -/

def conditionVal : Condition → Nat
  | .always => 0
  | .live => 1
  | .idle => 2
  | .gate => 3
  | .noGate => 4
  | .fault => 5
  | .noFault => 6
  | .lastPass => 7

def conditionOfVal (n : Nat) : Condition :=
  match n with
  | 0 => .always
  | 1 => .live
  | 2 => .idle
  | 3 => .gate
  | 4 => .noGate
  | 5 => .fault
  | 6 => .noFault
  | _ => .lastPass

def routeFieldByte : RouteField → Byte
  | .route r => byteOf r.1
  | .keep => 0x80
  | .clear => 0x81

def routeFieldOfVal (n : Nat) : RouteField :=
  if n = 0x80 then .keep else if n = 0x81 then .clear else .route (Fin.ofNat 128 n)

/-- The control byte of a step record (R76). -/
def controlVal (r : StepRecord) : Nat :=
  conditionVal r.cond + (match r.kind with | .apply _ => 0 | .jump _ => 0x10) + boolVal r.mark 0x20 +
    boolVal r.hold 0x40

/-- The dwell of an APPLY record or the target of a JUMP record. -/
def dwellOrTarget (r : StepRecord) : Nat :=
  match r.kind with
  | .apply d => d
  | .jump t => t.1

/-- One step record in 5 bytes; `extra` is added to the control byte (R76, R98). -/
def stepBytesWith (extra : Nat) (r : StepRecord) : List Byte :=
  [routeFieldByte r.routeA, routeFieldByte r.routeB, byteOf (controlVal r + extra)] ++ bytes2 (dwellOrTarget r)

def stepBytes (r : StepRecord) : List Byte := stepBytesWith 0 r

/-- R76: the record in the 5 bytes from position `i` fails a test. -/
def stepBad (ps : List Byte) (i : Nat) : Bool :=
  decide (0x82 ≤ val1 ps i) || decide (0x82 ≤ val1 ps (i + 1))
    || (ps.getD (i + 2) 0).getLsbD 3 || (ps.getD (i + 2) 0).getLsbD 7
    || (if (ps.getD (i + 2) 0).getLsbD 4 then decide (511 < val2 ps (i + 3))
        else decide (val2 ps (i + 3) = 0) || decide (4096 < val2 ps (i + 3)))

/-- The record in the 5 bytes from position `i` (R76). -/
def stepOf (ps : List Byte) (i : Nat) : StepRecord :=
  { kind := if (ps.getD (i + 2) 0).getLsbD 4 then .jump (Fin.ofNat 512 (val2 ps (i + 3)))
            else .apply (val2 ps (i + 3))
    routeA := routeFieldOfVal (val1 ps i)
    routeB := routeFieldOfVal (val1 ps (i + 1))
    cond := conditionOfVal (val1 ps (i + 2) % 8)
    mark := (ps.getD (i + 2) 0).getLsbD 5
    hold := (ps.getD (i + 2) 0).getLsbD 6 }

/-! ## Sequencer settings and state (R79, R98) -/

/-- A step, or FFFFH for none. -/
def stepOptVal : Option StepId → Nat
  | some n => n.1
  | none => 0xFFFF

def stepOptOf (n : Nat) : Option StepId := if n = 0xFFFF then none else some (Fin.ofNat 512 n)

/-- A value of two bytes names a step. -/
def isStep (n : Nat) : Bool := decide (n ≤ 511)

/-- A value of two bytes names a step or none. -/
def isStepOrNone (n : Nat) : Bool := isStep n || decide (n = 0xFFFF)

/-- R79, checks 1 to 7: the response data of the first that fails; `none` when all pass. Where check 2 finds several
parameters outside their values, the lowest position is reported (the model's choice, log 28). -/
def seqParamsFault (ps : List Byte) : Option Nat :=
  let first := val2 ps 0
  let last := val2 ps 2
  let inside (n : Nat) : Bool := decide (first ≤ n) && decide (n ≤ last)
  if ps.length ≠ 15 then some 0
  else if !isStep first then some 1
  else if !isStep last then some 2
  else if !isStep (val2 ps 4) then some 3
  else if !isStepOrNone (val2 ps 6) then some 4
  else if !isStepOrNone (val2 ps 8) then some 5
  else if !isStepOrNone (val2 ps 10) then some 6
  else if !isStep (val2 ps 13) then some 8
  else if last < first then some 2
  else if !inside (val2 ps 4) then some 3
  else if decide (val2 ps 6 ≠ 0xFFFF) && !inside (val2 ps 6) then some 4
  else if decide (val2 ps 8 = 0xFFFF) != decide (val2 ps 10 = 0xFFFF) then some 6
  else if decide (val2 ps 8 ≠ 0xFFFF) &&
      (!inside (val2 ps 8) || !inside (val2 ps 10) || decide (val2 ps 10 < val2 ps 8)) then some 6
  else if !inside (val2 ps 13) then some 8
  else none

/-- The settings record carried by the parameters (R79). -/
def seqSettingsOf (ps : List Byte) : SeqSettings :=
  { regionFirst := Fin.ofNat 512 (val2 ps 0), regionLast := Fin.ofNat 512 (val2 ps 2),
    start := Fin.ofNat 512 (val2 ps 4), stop := stepOptOf (val2 ps 6),
    group := match stepOptOf (val2 ps 8), stepOptOf (val2 ps 10) with
      | some x, some y => some (x, y)
      | _, _ => none
    groupCount := val1 ps 12, divertTarget := Fin.ofNat 512 (val2 ps 13) }

/-- The settings in 15 bytes (R79, R98). -/
def seqSettingsBytes (c : SeqSettings) : List Byte :=
  bytes2 c.regionFirst.1 ++ bytes2 c.regionLast.1 ++ bytes2 c.start.1 ++ bytes2 (stepOptVal c.stop) ++
    bytes2 (stepOptVal (c.group.map Prod.fst)) ++ bytes2 (stepOptVal (c.group.map Prod.snd)) ++
    [byteOf c.groupCount] ++ bytes2 c.divertTarget.1

/-- R98. -/
def seqStateByte : SeqState → Byte
  | .idle => 0x00
  | .waiting => 0x01
  | .dwelling => 0x02
  | .stalled => 0x03
  | .held => 0x04
  | .done => 0x05
  | .faulted => 0x06

/-- R98. -/
def heldPhaseVal : Option HeldPhase → Nat
  | none => 0x00
  | some .waiting => 0x01
  | some .dwelling => 0x02
  | some .stalled => 0x03
  | some .arrival => 0x07

/-- R98. -/
def seqFaultReasonByte : SeqFaultReason → Byte
  | .route => 0x01
  | .station => 0x02
  | .claim => 0x03
  | .fixture => 0x04
  | .inhibited => 0x05
  | .conflict => 0x06
  | .plane => 0x07
  | .region => 0x08
  | .safe => 0x09

/-- A fault record in 4 bytes (R98). -/
def seqFaultBytes : Option SeqFault → List Byte
  | some f => bytes2 f.step.1 ++ [match f.plane with | some p => planeByte p | none => 0xFF,
      seqFaultReasonByte f.reason]
  | none => [0xFF, 0xFF, 0xFF, 0x00]

/-- READ_SEQUENCER's 37 bytes (R98). -/
def sequencerBytes (q : Sequencer) : List Byte :=
  seqSettingsBytes q.cfg ++
    [seqStateByte q.run.state, byteOf (heldPhaseVal q.run.heldPhase + boolVal q.run.heldByLoopback 0x80)] ++
    bytes2 q.run.cursor.1 ++
    [byteOf q.run.groupCounter,
     byteOf (boolVal q.run.divertArmed 0x01 + boolVal q.run.applied.a 0x02 + boolVal q.run.applied.b 0x04 +
       boolVal q.run.stalled.a.isSome 0x08 + boolVal q.run.stalled.b.isSome 0x10)] ++
    bytes2 q.run.dwell ++
    [slotByte q.run.current.a, slotByte q.run.current.b, byteOf q.run.changes.length] ++
    stepBytesWith (boolVal q.run.jumpTaken 0x80) q.run.copy ++
    seqFaultBytes q.run.fault ++
    bytes2 (stepOptVal q.run.lastMark)

/-! ## The settings record (R163, R164) -/

/-- R164: the response data of the first failure; `none` when all pass. Where several fields are outside their codings,
the lowest position is reported (the model's choice, log 28). -/
def settingsFault (ps : List Byte) : Option Nat :=
  if ps.length ≠ 18 then some 0
  else if val1 ps 1 < 1 then some 2
  else if 127 < val1 ps 2 then some 3
  else if 7 < val1 ps 3 then some 4
  else if 31 < val1 ps 4 then some 5
  else if 1023 < val2 ps 5 then some 6
  else if 1023 < val2 ps 7 then some 7
  else if 1023 < val2 ps 9 then some 8
  else if 1023 < val2 ps 11 then some 9
  else if 63 < val1 ps 13 then some 10
  else if 63 < val1 ps 14 then some 11
  else if 4194303 < val3 ps 15 then some 12
  else if val2 ps 11 < val2 ps 9 then some 9
  else none

/-- The record carried by the parameters (R163). -/
def settingsOf (ps : List Byte) : Settings :=
  { keepalivePeriod := val1 ps 0, muteGrace := val1 ps 1, interval := val1 ps 2, missThreshold := val1 ps 3,
    bypass := BitVec.ofNat 6 (val1 ps 4), hotThreshold := val2 ps 5, strayThreshold := val2 ps 7,
    coilMin := val2 ps 9, coilMax := val2 ps 11, alertMask := BitVec.ofNat 6 (val1 ps 13),
    safeMask := BitVec.ofNat 6 (val1 ps 14), attentionMask := BitVec.ofNat 22 (val3 ps 15) }

/-- The record in 18 bytes (R163). -/
def settingsBytes (x : Settings) : List Byte :=
  [byteOf x.keepalivePeriod, byteOf x.muteGrace, byteOf x.interval, byteOf x.missThreshold, kindSetByte x.bypass] ++
    bytes2 x.hotThreshold ++ bytes2 x.strayThreshold ++ bytes2 x.coilMin ++ bytes2 x.coilMax ++
    [kindSetByte x.alertMask, kindSetByte x.safeMask] ++ eventMapBytes x.attentionMask

/-! ## Path records and the queue (R40, R74) -/

/-- R40. -/
def pathStateByte : PathState → Byte
  | .free => 0x00
  | .forming => 0x01
  | .settling => 0x02
  | .live => 0x03
  | .closing => 0x04
  | .failed => 0x05

/-- R40. -/
def stationOriginByte : Option Station → Option PathOrigin → Byte
  | some .s1, some .request => 0x11
  | some .s2, some .request => 0x21
  | some .s1, some .sequencer => 0x12
  | some .s2, some .sequencer => 0x22
  | _, _ => 0x00

/-- R40. -/
def priorVal : Option PriorState → Nat
  | none => 0x00
  | some .settling => 0x10
  | some .live => 0x20
  | some .failed => 0x30

/-- R40. -/
def failReasonByte : Option FailReason → Byte
  | none => 0x00
  | some .makeFailed => 0x01
  | some .bankFault => 0x02
  | some .fixtureLost => 0x03
  | some .breakFailed => 0x04

/-- One path record in 8 bytes (R40). -/
def pathBytes (r : PathRecord) : List Byte :=
  [pathStateByte r.state, routeByte r.route, stationOriginByte r.station r.origin, byteOf r.legsDone,
   byteOf (boolVal r.closeOwed 1 + priorVal r.prior + boolVal (decide (r.closeOwedCause = some .fixtureLoss)) 0x40),
   failReasonByte r.failure] ++
    bytes2 (match r.established with | some n => n.toNat | none => 0xFFFF)

/-- A tracker in 4 bytes (R50, R74). -/
def trackerBytes (t : Tracker) : List Byte :=
  [if t.isOpen then (if t.closingHeld then 0x02 else 0x01) else 0x00,
   match t.tag with | some x => x | none => 0xFF] ++ bytes2 t.budget

/-- A driver in 2 bytes (R74). -/
def driverBytes (d : Driver) : List Byte :=
  [byteOf ((match d.phase with | .idle => 0 | .driving => 1 | .settling => 2 | .checking => 3) +
     (match d.waiting with | none => 0 | some .noFit => 0x10 | some .hot => 0x20) +
     boolVal d.pause.isSome 0x40 + boolVal d.forced 0x80),
   bankByte (match d.leg, d.held, d.pause with
     | some l, _, _ => some l.bank
     | none, some l, _ => some l.bank
     | none, none, some x => some x.leg.bank
     | none, none, none => none)]

/-- R74. -/
def changeKindByte : ChangeKind → Byte
  | .makeChange => 0x01
  | .breakChange => 0x02
  | .swapChange => 0x03

/-- R74. -/
def changeOriginByte : ChangeOrigin → Byte
  | .request .s1 => 0x11
  | .request .s2 => 0x21
  | .sequencer .s1 => 0x12
  | .sequencer .s2 => 0x22
  | .part => 0x30

/-- One entry at a queue position in 7 bytes (R74). -/
def entryBytes (i : Nat) (e : Entry) : List Byte :=
  [byteOf i, changeKindByte e.kind, byteOf ((planeByte e.plane).toNat + boolVal e.active 0x10),
   changeOriginByte e.origin, slotByte e.old, slotByte e.new, byteOf e.plan.length]

/-! ## Detail records (R167) -/

/-- Last change failure, 7 bytes (R167). -/
def changeFailureBytes : Option ChangeFailure → List Byte
  | none => [0x00, 0xFF, 0xFF, 0xFF, 0xFF, 0xFF, 0xFF]
  | some f =>
    [changeKindByte f.kind, slotByte f.old, slotByte f.new, routeByte f.route,
     match f.reason with | .inhibited => 0x01 | .hot => 0x02 | .position => 0x03 | .safe => 0x04,
     bankByte f.bank,
     match f.part with | .breakPart => 0x00 | .makePart => 0x01]

/-- Last overrun, 4 bytes (R167). -/
def overrunBytes : Option Overrun → List Byte
  | none => [0xFF, 0xFF, 0xFF, 0xFF]
  | some x =>
    [byteOf x.bank.1, planeByte x.plane, if x.settling then 0x02 else 0x01,
     match x.source with | .entry => 0x01 | .home => 0x02 | .forced => 0x03]

/-- Last fixture change, 9 bytes (R167). -/
def fixtureChangeBytes : Option FixtureChange → List Byte
  | none => [0, 0, 0, 0, 0xFF, 0, 0, 0, 0]
  | some x =>
    itemMapBytes (fun i => decide (i = .fixture x.fixture)) ++ [boolByte x.seated] ++
      bytesOfMap16 x.failedSlots ++ bytesOfMap16 x.cancelledSlots

/-! ## Faults and samples (R137) -/

/-- The readback of a last sample: FEH for no valid reading (R137). -/
def readingByte : Reading → Byte
  | some c => contactByte c
  | none => 0xFE

/-- A last sample in 5 bytes (R137). -/
def sampleBytes : Option Sample → List Byte
  | none => [0xFF, 0xFF, 0xFF, 0xFF, 0xFF]
  | some x => bytes2 x.coil.toNat ++ bytes2 x.detector.toNat ++ [readingByte x.reading]

/-- R137: the visit position while visiting, FEH waiting, FFH stopped. -/
def visitStateByte (x : Supervision) : Byte :=
  match x.cycle with
  | .visiting => byteOf x.position.1
  | .waiting => 0xFE
  | .stopped => 0xFF

/-! ## Safe Controller (R145) -/

/-- R145. -/
def safeStateByte : SafeState → Byte
  | .normal => 0x00
  | .grace => 0x01
  | .teardown => 0x02
  | .safe => 0x03

/-- The state and the cause set, 2 bytes (R145). -/
def safeBytes (x : SafeController) : List Byte := [safeStateByte x.state, byteOf x.causes.toNat]

end Sys2Proof.Machine
end

