-- ==== Sys2Proof/Machine/PathSet.lean ====
section
/-! DEFINITION. The Path Set and the Change Queue (02, 04): acceptance, leg plans, freeing a slot, settling and
failing, close owed, cancellation, and the notices an entry's end hands to its sequencer (R84, R95). -/

namespace Sys2Proof.Machine

/-! ## Freeing a slot (R38) -/

/-- R95: a current path that names the freed slot becomes none. -/
def SeqRun.dropCurrent (r : SeqRun) (p : Slot) : SeqRun :=
  { r with current := ⟨if r.current.a = some p then none else r.current.a,
                       if r.current.b = some p then none else r.current.b⟩ }

/-- R38: the slot takes the FREE values, its banks lose their holder, the sequencers' current paths on it are
cleared, and PATH_FREED is raised. -/
def freeSlot (p : Slot) (s : State) : State :=
  let s1 := (s.mapBanks fun _ r => if r.holder = some p then { r with holder := none } else r).setPath p PathRecord.free
  let s2 := s1.setRun .s1 ((s1.seq .s1).run.dropCurrent p)
  let s3 := s2.setRun .s2 ((s2.seq .s2).run.dropCurrent p)
  s3.raise .pathFreed

/-! ## Acceptance checks (R17, R22, R23) -/

/-- R17 for one leg: fitted, on the route's plane, and the throw not above the throws fitted. -/
def legUsable (s : State) (pl : Plane) (l : RouteLeg) : Bool :=
  (s.bank l.bank).fitted && decide ((s.bank l.bank).plane = pl) && decide (l.thr.1 + 1 ≤ (s.bank l.bank).throwsFitted)

/-- R22, check 1. `oldPlane` is the plane of the old path's route for a SWAP. Where the new route of a SWAP both fails
R17 and lies on another plane, the spec does not say which data byte is given; the model gives R17's (its choice,
log 30). -/
def useRefusal (s : State) (r : RouteRecord) (oldPlane : Option Plane) : Option Reply :=
  if !r.defined then some ⟨.eArg, [0xFE]⟩
  else match r.legs.findIdx? fun l => !legUsable s r.plane l with
    | some i => some ⟨.eArg, [byteOf i]⟩
    | none =>
      match oldPlane with
      | some pl => if pl = r.plane then none else some ⟨.eArg, [0xFD]⟩
      | none => none

/-- R22, check 2: the route admits the station. -/
def stationAdmitted (r : RouteRecord) (st : Station) : Bool :=
  match r.station, st with
  | .either, _ => true
  | .s1, .s1 => true
  | .s2, .s2 => true
  | _, _ => false

/-- R111: the item's holder in the Claim Table. -/
def State.claimOf (s : State) : Item → Option Station
  | .bank b => s.claims.banks.get b
  | .fixture n => s.claims.fixtures.get n

/-- The items a route needs: its banks in leg order, then its fixture port if it ends at one. -/
def routeItems (r : RouteRecord) : List Item :=
  r.legs.map (fun l => .bank l.bank) ++ (match r.endpoint with | .fixture n => [.fixture n] | .probe _ => [])

/-- An item in a refusal: bank 0..23, or fixture 40H..43H (R22). -/
def itemByte : Item → Byte
  | .bank b => byteOf b.1
  | .fixture n => fixtureByte n

/-- R22, check 3. -/
def claimRefusal (s : State) (r : RouteRecord) (st : Station) : Option Reply :=
  ((routeItems r).find? fun i => decide (s.claimOf i ≠ some st)).map fun i => ⟨.eClaim, [itemByte i]⟩

/-- The debounced seat state of a fixture port (R116, R117). -/
def State.seated (s : State) (n : FixtureId) : Bool := (s.chamber.seats.get n).debounced

/-- R22, check 4. -/
def seatRefusal (s : State) (r : RouteRecord) : Option Reply :=
  match r.endpoint with
  | .fixture n => if s.seated n then none else some ⟨.eState, [fixtureByte n]⟩
  | .probe _ => none

/-- R27: the leg is retained by a SWAP from a route with the legs `oldLegs`. -/
def retainedLeg (oldLegs : List RouteLeg) (l : RouteLeg) : Bool := oldLegs.contains l

/-- R22, check 5: a retained leg of a SWAP is exempt. -/
def faultRefusal (s : State) (r : RouteRecord) (oldLegs : List RouteLeg) : Option Reply :=
  (r.legs.find? fun l => !retainedLeg oldLegs l && s.inhibited l.bank).map fun l => ⟨.eFault, [byteOf l.bank.1]⟩

/-- R23: the slot conflicts with a change of station `st` on route `r`; a SWAP's old slot never does. -/
def conflicting (s : State) (st : Station) (r : RouteRecord) (old : Option Slot) (q : Slot) : Bool :=
  decide (old ≠ some q) &&
    (r.legs.any (fun l => decide ((s.bank l.bank).holder = some q)) ||
      (s.slotUsed q &&
        match s.slotRoute q with
        | none => false
        | some x =>
          decide (x.plane = r.plane) &&
            ((decide ((s.path q).station = some st) && decide (x.port = r.port)) ||
              decide (x.endpoint = r.endpoint))))

/-- R22, check 6. -/
def conflictRefusal (s : State) (st : Station) (r : RouteRecord) (old : Option Slot) : Option Reply :=
  let m := slotMap (conflicting s st r old)
  if m = 0 then none else some ⟨.eConflict, bytesOfMap16 m⟩

/-- R22, checks 1 to 6 in order: the refusal of the first that fails. -/
def acceptanceRefusal (s : State) (st : Station) (r : RouteRecord) (old : Option Slot) : Option Reply :=
  let oldRoute := old.bind s.slotRoute
  let oldLegs := match oldRoute with | some x => x.legs | none => []
  (useRefusal s r (oldRoute.map RouteRecord.plane)).or
    ((if stationAdmitted r st then none else some ⟨.eClaim, [0xFF]⟩ : Option Reply).or
      ((claimRefusal s r st).or
        ((seatRefusal s r).or
          ((faultRefusal s r oldLegs).or
            (conflictRefusal s st r old)))))

/-! ## Leg plans (R53) -/

/-- R53: every leg of the route in reverse leg order. -/
def makePlan (legs : List RouteLeg) : List PlanLeg :=
  legs.reverse.map fun l => ⟨l.bank, .thr l.thr, .makePart, .newSlot⟩

/-- R53: the banks the slot holds in the route's leg order. -/
def breakPlan (banks : List BankId) : List PlanLeg := banks.map fun b => ⟨b, .term, .breakPart, .oldSlot⟩

/-- R53: the changed and old-only banks in the old route's leg order, then the changed and new-only banks in the new
route's reverse leg order. -/
def swapPlan (oldLegs newLegs : List RouteLeg) : List PlanLeg :=
  (oldLegs.filter fun l => !newLegs.contains l).map (fun l =>
      ⟨l.bank, .term, .breakPart, if newLegs.any (fun x => decide (x.bank = l.bank)) then .neither else .oldSlot⟩) ++
    makePlan (newLegs.filter fun l => !oldLegs.contains l)

/-! ## Accepting a change (R24, R27, R28) -/

/-- The origin written into a path record (R24, R102). -/
def pathOriginOf : ChangeOrigin → PathOrigin
  | .sequencer _ => .sequencer
  | _ => .request

/-- R24: the record of a path being formed. -/
def formingPath (r : RouteId) (st : Station) (o : PathOrigin) (done : Nat) : PathRecord :=
  { PathRecord.free with state := .forming, route := some r, station := some st, origin := some o, legsDone := done }

/-- R24: a MAKE that has passed its checks is written into slot `p`. -/
def placeMake (s : State) (st : Station) (org : ChangeOrigin) (r : RouteId) (p : Slot) : State :=
  let x := s.route r
  let s1 := s.mapBanks fun b k => if x.legs.any (fun l => decide (l.bank = b)) then reservedBank p k else k
  let s2 := s1.setPath p (formingPath r st (pathOriginOf org) 0)
  s2.setQueue (s2.queue ++ [{ kind := .makeChange, old := none, new := some p, plane := x.plane, origin := org,
                              active := false, plan := makePlan x.legs }])

/-- R22 to R24: a MAKE is accepted into the lowest FREE slot, or refused. -/
def acceptMake (s : State) (st : Station) (org : ChangeOrigin) (r : RouteId) : Except Reply (Slot × State) :=
  match acceptanceRefusal s st (s.route r) none with
  | some x => .error x
  | none =>
    match s.lowestFree with
    | none => .error ⟨.eFull, []⟩
    | some p => .ok (p, placeMake s st org r p)

/-- The prior state a path that becomes CLOSING keeps (R19). -/
def priorOf : PathState → Option PriorState
  | .settling => some .settling
  | .live => some .live
  | .failed => some .failed
  | _ => none

/-- R27: a SWAP that has passed its checks replaces slot `o` by the new slot `p`. -/
def placeSwap (s : State) (st : Station) (org : ChangeOrigin) (o : Slot) (r : RouteId) (p : Slot) : State :=
  let x := s.route r
  let oldLegs := s.slotLegs o
  let inOld (b : BankId) : Bool := oldLegs.any fun l => decide (l.bank = b)
  let s1 := s.mapBanks fun b k =>
    if x.legs.any (fun l => decide (l.bank = b)) then
      (if inOld b then { k with holder := some p } else reservedBank p k)
    else k
  let rec0 := s.path o
  let s2 := s1.setPath o
    { rec0 with
      state := .closing, prior := priorOf rec0.state, priorLegs := rec0.legsDone, settleTimer := none
      legsDone := oldLegs.countP fun l => x.legs.any fun k => decide (k.bank = l.bank) }
  let s3 := s2.setPath p (formingPath r st (pathOriginOf org) (x.legs.countP fun l => retainedLeg oldLegs l))
  s3.setQueue (s3.queue ++ [{ kind := .swapChange, old := some o, new := some p, plane := x.plane, origin := org,
                              active := false, plan := swapPlan oldLegs x.legs }])

/-- R26: the tests of the old slot, in order. -/
def oldSlotRefusal (s : State) (st : Station) (o : Slot) : Option Reply :=
  let x := s.path o
  if x.state = .free then some ⟨.eState, [0x00]⟩
  else if x.station ≠ some st then some ⟨.eClaim, [0xFF]⟩
  else if x.state = .live ∨ x.state = .settling then none
  else some ⟨.eState, [pathStateByte x.state]⟩

/-- R26, R22, R27: a SWAP is accepted, or refused. -/
def acceptSwap (s : State) (st : Station) (org : ChangeOrigin) (o : Slot) (r : RouteId) :
    Except Reply (Slot × State) :=
  match oldSlotRefusal s st o with
  | some x => .error x
  | none =>
    match acceptanceRefusal s st (s.route r) (some o) with
    | some x => .error x
    | none =>
      match s.lowestFree with
      | none => .error ⟨.eFull, []⟩
      | some p => .ok (p, placeSwap s st org o r p)

/-- The plane of a slot's path. -/
def State.slotPlane (s : State) (p : Slot) : Plane :=
  match s.slotRoute p with
  | some r => r.plane
  | none => .a

/-- R28: a BREAK of the slot is accepted with the given prior state; R34: close owed returns to no. -/
def acceptBreak (p : Slot) (org : ChangeOrigin) (prior : Option PriorState) (s : State) : State :=
  let x := s.path p
  let s1 := s.setPath p
    { x with
      state := .closing, prior := prior, priorLegs := x.legsDone, settleTimer := none, closeOwed := false
      closeOwedCause := none, legsDone := s.legsReleased p }
  s1.setQueue (s1.queue ++ [{ kind := .breakChange, old := some p, new := none, plane := s.slotPlane p, origin := org,
                              active := false, plan := breakPlan (s.heldBanks p) }])

/-! ## Settling, going LIVE, failing (R30 to R33) -/

/-- R31: the path goes from SETTLING to LIVE. -/
def goLive (p : Slot) (s : State) : State :=
  (s.setPath p { s.path p with state := .live, settleTimer := none, established := s.ring.lastCadence }).raise .pathLive

/-- The route's extra settle in ticks. -/
def State.extraSettleTicks (s : State) (p : Slot) : Nat :=
  match s.slotRoute p with
  | some r => r.extraSettle * Config.ticksPer100us
  | none => 0

/-- R30: the path goes to SETTLING; with an extra settle of 0 the timer ends at once (R31). -/
def startSettling (p : Slot) (s : State) : State :=
  let s1 := s.setPath p { s.path p with state := .settling, settleTimer := some (s.extraSettleTicks p) }
  if s.extraSettleTicks p = 0 then goLive p s1 else s1

/-- R32: the path goes FAILED; a reason already set is kept, and PATH_FAILED is raised once for a slot that goes
FAILED. -/
def failSlot (p : Slot) (reason : FailReason) (s : State) : State :=
  let x := s.path p
  if x.state = .failed then s
  else
    (s.setPath p { x with state := .failed, failure := x.failure.or (some reason), settleTimer := none }).raise
      .pathFailed

/-! ## The end of an entry (R55, R84, R95) -/

/-- The pending record was made for this entry (log 11): it names the entry's new slot, or, for a BREAK, its old. -/
def PendingChange.isFor (c : PendingChange) (e : Entry) : Bool :=
  match e.new with
  | some p => decide (c.new = some p)
  | none => decide (c.new = none) && decide (c.old = e.old) && e.old.isSome

/-- The dwell of an APPLY copy (R84). -/
def SeqRun.copyDwell (r : SeqRun) : Nat :=
  match r.copy.kind with
  | .apply d => d
  | .jump _ => 1

/-- R84: the record of the ended entry leaves the pending list; a WAITING sequencer whose list becomes empty starts
to dwell. -/
def SeqRun.endChange (r : SeqRun) (e : Entry) : SeqRun :=
  if r.changes.any fun c => c.isFor e then
    let rest := r.changes.filter fun c => !c.isFor e
    if rest.isEmpty && decide (r.state = .waiting) then
      { r with changes := rest, state := .dwelling, dwell := r.copyDwell }
    else { r with changes := rest }
  else r

/-- R95: after a cancelled SWAP the field that is none takes the old slot, now restored. -/
def SeqRun.regainOld (r : SeqRun) (e : Entry) (s : State) : SeqRun :=
  match e.kind, e.old with
  | .swapChange, some o =>
    let st := (s.path o).state
    if r.current.get e.plane = none ∧ (st = .live ∨ st = .settling ∨ st = .failed) then
      { r with current := r.current.set e.plane (some o) }
    else r
  | _, _ => r

/-- R55: the entry ended notice to the sequencer of the entry's origin. -/
def notifyEnded (e : Entry) (cancelled : Bool) (s : State) : State :=
  match e.origin with
  | .sequencer st =>
    let r := (s.seq st).run.endChange e
    s.setRun st (if cancelled then r.regainOld e s else r)
  | _ => s

/-- R60, R69: the driver of the plane gives up its held leg and its wait. -/
def clearHeld (pl : Plane) (s : State) : State :=
  s.setDriver pl { s.driver pl with held := none, waiting := none }

/-- R55, R60: the entry leaves the queue; the removal of a head clears the held leg. -/
def removeEntry (e : Entry) (s : State) : State :=
  let s1 := if s.headOf e.plane = some e then clearHeld e.plane s else s
  s1.setQueue (removeFirst e s1.queue)

/-- R34: the origin of the BREAK that close owed brings. -/
def owedOrigin (x : PathRecord) : ChangeOrigin :=
  match x.closeOwedCause, x.station with
  | some .fixtureLoss, _ => .part
  | _, some st => .request st
  | _, none => .part

/-- R34: when the slot's change has ended with the Safe Controller in NORMAL and close owed is set, a BREAK is
accepted at once. -/
def applyCloseOwed (p : Slot) (s : State) : State :=
  let x := s.path p
  if x.closeOwed && s.isNormal then
    acceptBreak p (owedOrigin x) (if x.state = .failed then some .failed else some .settling) s
  else s

/-- R30, R34, R119: the Path Set's part of a forming change that completes. -/
def settleFormed (p : Slot) (s : State) : State :=
  let x := s.path p
  if decide (x.state = .forming) && !(x.closeOwed && s.isNormal) then startSettling p s else s

/-- The slot is freed if there is one. -/
def freeOpt (p : Option Slot) (s : State) : State :=
  match p with
  | some q => freeSlot q s
  | none => s

/-- R68: the entry, whose plan is empty, completes. -/
def completeEntry (e : Entry) (s : State) : State :=
  let s1 := freeOpt e.old s
  match e.new with
  | none => notifyEnded e false (removeEntry e s1)
  | some p => applyCloseOwed p (notifyEnded e false (removeEntry e (settleFormed p s1)))

/-- The part an entry fails in: that of the first leg still in its plan (R69, log 14). -/
def Entry.failingPart (e : Entry) : ChangePart :=
  match e.plan with
  | l :: _ => l.part
  | [] => .makePart

/-- R32: the paths a failed entry names. -/
def failPaths (e : Entry) (s : State) : State :=
  match e.kind, e.old, e.new with
  | .makeChange, _, some n => failSlot n .makeFailed s
  | .breakChange, some o, _ => failSlot o .breakFailed s
  | .swapChange, o, some n =>
    match e.failingPart with
    | .makePart => failSlot n .makeFailed (freeOpt o s)
    | .breakPart =>
      match o with
      | some q => failSlot q .breakFailed (failSlot n .makeFailed s)
      | none => failSlot n .makeFailed s
  | _, _, _ => s

/-- R69: the route named by the last change failure record. -/
def failingRoute (e : Entry) (s : State) : Option RouteId :=
  match e.failingPart with
  | .breakPart => e.old.bind fun o => (s.path o).route
  | .makePart => e.new.bind fun n => (s.path n).route

/-- R69, step 3: the last change failure record and CHANGE_FAILED. -/
def recordFailure (e : Entry) (reason : EntryFailure) (b : Option BankId) (r : Option RouteId) (s : State) : State :=
  State.raise { s with events := { s.events with
    lastFailure := some { kind := e.kind, old := e.old, new := e.new, route := r, reason := reason, bank := b,
                          part := e.failingPart } } } .changeFailed

/-- R69: the entry fails, in the order of its five steps. -/
def failEntry (e : Entry) (reason : EntryFailure) (b : Option BankId) (s : State) : State :=
  let s1 := failPaths e (clearHeld e.plane s)
  let s2 := recordFailure e reason b (failingRoute e s) s1
  let s3 := notifyEnded e false (removeEntry e s2)
  match e.new with
  | some n => applyCloseOwed n s3
  | none => s3

/-! ## Cancellation (R35) -/

/-- R35: the record of a path returned to its prior state. R19 writes the established cadence again when a path becomes
LIVE after a cancelled BREAK, R35 says that a path returned to LIVE keeps it; the model keeps it, as R35 says (log 27). -/
def restoredPath (s : State) (p : Slot) : PathRecord :=
  let x := s.path p
  match x.prior with
  | some .settling =>
    { x with state := .settling, settleTimer := some (s.extraSettleTicks p), legsDone := (s.slotLegs p).length }
  | some .live => { x with state := .live, legsDone := (s.slotLegs p).length }
  | some .failed => { x with state := .failed, legsDone := x.priorLegs }
  | none => x

/-- R35, R36: the banks of a SWAP's new slot: retained and changed banks return to the old slot, new-only banks are
released. -/
def returnBanks (o n : Slot) (s : State) : State :=
  let oldLegs := s.slotLegs o
  s.mapBanks fun b k =>
    if k.holder = some n then
      (if oldLegs.any (fun l => decide (l.bank = b)) then { k with holder := some o } else releasedBank k)
    else k

/-- R35: the slots a cancelled entry named are restored. -/
def undoAcceptance (e : Entry) (s : State) : State :=
  match e.kind, e.old, e.new with
  | .makeChange, _, some n =>
    freeSlot n (s.mapBanks fun _ k => if k.holder = some n then releasedBank k else k)
  | .breakChange, some o, _ => s.setPath o (restoredPath s o)
  | .swapChange, some o, some n =>
    let s1 := freeSlot n (returnBanks o n s)
    s1.setPath o (restoredPath s1 o)
  | _, _, _ => s

/-- R35: a WAITING entry is cancelled. -/
def cancelEntry (e : Entry) (s : State) : State :=
  notifyEnded e true (removeEntry e (undoAcceptance e s))

/-- Every entry of a list is cancelled, in its order. The entries of one SEQ_STOP (R94) or one safe entry (R140) are given
in queue order; the spec gives none, and R95 can show it (the model's choice, log 29). -/
def cancelAll (es : List Entry) (s : State) : State := es.foldl (fun s e => cancelEntry e s) s

/-! ## A SWAP becomes a BREAK (R36) -/

/-- R84: the pending record of a converted SWAP drops the new slot. -/
def SeqRun.convertChange (r : SeqRun) (e : Entry) : SeqRun :=
  { r with changes := r.changes.map fun c => if c.isFor e then { c with new := none } else c }

/-- R36, R52: a WAITING SWAP is rewritten in place as the BREAK of its old slot. -/
def convertSwap (e : Entry) (o n : Slot) (s : State) : State :=
  let s1 := match e.origin with
    | .sequencer st => s.setRun st ((s.seq st).run.convertChange e)
    | _ => s
  let s2 := freeSlot n (returnBanks o n s1)
  let s3 := s2.setPath o { s2.path o with legsDone := s2.legsReleased o }
  let s4 := if s3.headOf e.plane = some e then clearHeld e.plane s3 else s3
  s4.setQueue (replaceFirst e { e with kind := .breakChange, new := none, plan := breakPlan (s4.heldBanks o) } s4.queue)

end Sys2Proof.Machine
end

