-- ==== Sys2Proof/Machine/SafeEntry.lean ====
section
/-! DEFINITION. Miss counting (R128), a fault becoming valid (R130, R33), the causes of the Safe Controller (R139) and
safe entry (R140, R97, R71). -/

namespace Sys2Proof.Machine

/-! ## Miss counters (R128) -/

/-- The counter of a kind; WORN has none. -/
def MissCounters.get (c : MissCounters) : FaultKind → Nat
  | .coil => c.coil
  | .drift => c.drift
  | .stray => c.stray
  | .position => c.position
  | .hot => c.hot
  | .worn => 0

/-- The counter of a kind is written; WORN has none. -/
def MissCounters.set (c : MissCounters) (k : FaultKind) (n : Nat) : MissCounters :=
  match k with
  | .coil => { c with coil := n }
  | .drift => { c with drift := n }
  | .stray => { c with stray := n }
  | .position => { c with position := n }
  | .hot => { c with hot := n }
  | .worn => c

def State.counter (s : State) (b : BankId) (k : FaultKind) : Nat := (s.sup.counters.get b).get k

def State.setCounter (s : State) (b : BankId) (k : FaultKind) (n : Nat) : State :=
  s.setSup { s.sup with counters := s.sup.counters.set b.1 ((s.sup.counters.get b).set k n) b.2 }

/-- The valid kinds of a bank are written (R129). -/
def State.setFaults (s : State) (b : BankId) (ks : KindSet) : State :=
  s.setSup { s.sup with faults := s.sup.faults.set b.1 ks b.2 }

/-- R128: the effective threshold. -/
def Settings.effectiveThreshold (x : Settings) : Nat := if x.missThreshold = 0 then 1 else x.missThreshold

/-! ## Safe entry (R139, R140) -/

/-- R97: what the safe entry does to one sequencer's run state. -/
def SeqRun.safeEntry (r : SeqRun) : SeqRun :=
  let halted : SeqRun :=
    { r with state := .idle, changes := [], stalled := ⟨none, none⟩, heldPhase := none, divertArmed := false }
  match r.state with
  | .waiting | .dwelling | .stalled | .held => { halted with fault := some ⟨r.cursor, none, .safe⟩ }
  | .done | .faulted | .idle => halted

/-- R71: an ACTIVE head with no leg in flight fails at once with reason SAFE and bank none. -/
def failIdleHead (pl : Plane) (s : State) : State :=
  match s.headOf pl with
  | some e => if e.active && decide ((s.driver pl).leg = none) then failEntry e .safe none s else s
  | none => s

/-- R140: the node leaves NORMAL for GRACE. The WAITING entries are cancelled in queue order (the model's choice,
log 29). -/
def enterGrace (s : State) : State :=
  let s1 := (s.setSafe { s.safe with state := .grace, grace := some (s.settings.muteGrace * Config.ticksPerMs) }).raise
    .safe
  let s2 := s1.setRun .s1 (s1.seq .s1).run.safeEntry
  let s3 := s2.setRun .s2 (s2.seq .s2).run.safeEntry
  let s4 := cancelAll (s3.queue.filter fun e => !e.active) s3
  eachPlane failIdleHead s4

/-- R139: a cause joins the set; in NORMAL that is safe entry. -/
def addCause (c : SafeCause) (s : State) : State :=
  let s1 := s.setSafe { s.safe with causes := causeInsert c s.safe.causes }
  if s.isNormal then enterGrace s1 else s1

/-- R139: a cause leaves the set; the state is not changed. -/
def removeCause (c : SafeCause) (s : State) : State :=
  s.setSafe { s.safe with causes := causeErase c s.safe.causes }

/-! ## A fault becoming valid (R130) -/

/-- R33: the holder of a bank on which a fault of kind `k` becomes valid. -/
def failHolder (b : BankId) (k : FaultKind) (s : State) : State :=
  match (s.bank b).holder with
  | none => s
  | some p =>
    let live := decide ((s.path p).state = .live) || decide ((s.path p).state = .settling)
    let kindFails := match k with
      | .coil | .drift | .position | .hot => true
      | .stray | .worn => false
    if live && kindFails then failSlot p .bankFault s else s

/-- R130: the fault of kind `k` on bank `b` becomes valid. -/
def becomeValid (b : BankId) (k : FaultKind) (s : State) : State :=
  let s1 := s.setFaults b (kindInsert k (s.faultsOf b))
  let s2 := (s1.setSup { s1.sup with summaries := kindInsert k s1.sup.summaries }).raise .fault
  let s3 := failHolder b k s2
  if kindIn k s3.settings.safeMask then addCause .fault s3 else s3

/-- R128: a pass of a counted kind is taken. -/
def takePass (b : BankId) (k : FaultKind) (s : State) : State :=
  if s.faultValid b k then s else s.setCounter b k 0

/-- R128: a miss of a counted kind is taken. -/
def takeMiss (b : BankId) (k : FaultKind) (s : State) : State :=
  if s.faultValid b k then s
  else
    let n := min 7 (s.counter b k + 1)
    let s1 := s.setCounter b k n
    if kindIn k s.settings.bypass || decide (s.settings.effectiveThreshold ≤ n) then becomeValid b k s1 else s1

/-- R126, R127: WORN becomes valid if the bank is worn, unless it is valid already. -/
def reportWorn (b : BankId) (s : State) : State :=
  if (s.bank b).isWorn && !s.faultValid b .worn then becomeValid b .worn s else s

end Sys2Proof.Machine
end

