-- ==== Sys2Proof/Machine/Driver.lean ====
section
/-! DEFINITION. The Plane Drivers and the Window Trackers (03, 04) with the Safe Controller's teardown (09): choosing
work, a leg's start, its drive, settle and readback, forced mode, the clearing of NODE_RESET, and the windows. -/

namespace Sys2Proof.Machine

/-! ## Entries and their plans (R51, R54) -/

/-- The entry `e` of the queue becomes `e'`. -/
def updateEntry (e e' : Entry) (s : State) : State := s.setQueue (replaceFirst e e' s.queue)

/-- R29: the legs done of a slot go up by 1. -/
def addLegDone (p : Slot) (s : State) : State := s.setPath p { s.path p with legsDone := (s.path p).legsDone + 1 }

/-- R29, R68: a leg has left the plan of an ACTIVE entry, now `e`. An empty plan completes the entry; a SWAP whose
break part has ended frees its old slot. -/
def afterLeg (e : Entry) (s : State) : State :=
  if e.plan.isEmpty then completeEntry e s
  else
    match e.old with
    | none => s
    | some o =>
      if e.plan.any fun l => decide (l.part = .breakPart) then s
      else updateEntry e { e with old := none } (freeSlot o s)

/-- R29, R65: the first leg of the entry's plan ends (completed, released or skipped) and leaves the plan. -/
def endLeg (e : Entry) (l : PlanLeg) (s : State) : State :=
  let e' := { e with active := true, plan := e.plan.tail }
  let s1 := updateEntry e e' s
  let s2 :=
    match l.counts, e.old, e.new with
    | .oldSlot, some o, _ => addLegDone o (s1.setHolder l.bank none)
    | .newSlot, _, some n => addLegDone n s1
    | _, _, _ => s1
  afterLeg e' s2

/-! ## Checks before a leg (R48, R60 to R62) -/

/-- R48: a leg on the bank fits the window of the bank's plane. -/
def legFits (s : State) (b : BankId) : Bool :=
  let r := s.bank b
  let t := s.tracker r.plane
  t.isOpen && !t.closingHeld && decide (10 * (r.operate + r.settle) ≤ t.budget)

/-- R62: the bank's detector is hot. -/
def isHot (s : State) (b : BankId) : Bool := decide (s.settings.hotThreshold ≤ s.detector b)

/-- R62, steps 1 and 2: a hot deferral. -/
def deferHot (b : BankId) (s : State) : State :=
  (s.setBank b { s.bank b with hotDeferrals := min 7 ((s.bank b).hotDeferrals + 1) }).raise .hotDefer

/-- R60, R62: an entry's leg becomes the held leg. -/
def holdLeg (pl : Plane) (l : PlanLeg) (w : WaitReason) (s : State) : State :=
  s.setDriver pl { s.driver pl with held := some l, waiting := some w }

/-- R70: a bank joins homes passed over. -/
def passHome (pl : Plane) (b : BankId) (s : State) : State :=
  s.setDriver pl { s.driver pl with passed := (s.driver pl).passed ||| (1#24 <<< b.1) }

/-! ## A leg starts (R63, R73) -/

/-- The leg is a forced leg. -/
def LegSource.isForced : LegSource → Bool
  | .forcedBreak _ | .forcedHome => true
  | .entry | .home => false

/-- R63: a leg starts; a forced leg reports no HOT pass. -/
def startLeg (pl : Plane) (l : FlightLeg) (s : State) : State :=
  let s1 := s.setBank l.bank { s.bank l.bank with hotDeferrals := 0 }
  let s2 := if l.source.isForced then s1 else takePass l.bank .hot s1
  s2.setDriver pl
    { s2.driver pl with
      phase := .driving, leg := some l, left := (s.bank l.bank).operate * Config.ticksPer100us
      held := none, waiting := none }

/-- R63, R68: the first leg of the head's plan starts. The entry is ACTIVE; a SWAP with an empty break part frees its
old slot at its first make leg's start. -/
def startEntryLeg (pl : Plane) (e : Entry) (l : PlanLeg) (s : State) : State :=
  let flight : FlightLeg := { bank := l.bank, target := l.target, source := .entry }
  match e.old, e.plan.any (fun x => decide (x.part = .breakPart)) with
  | some o, false => startLeg pl flight (updateEntry e { e with active := true, old := none } (freeSlot o s))
  | _, _ => startLeg pl flight (updateEntry e { e with active := true } s)

/-! ## Choosing the next work (R57 to R62, R70) -/

/-- R62 for an entry's leg that is hot: whether the driver chooses again, and the state (log 13). -/
def meetHot (pl : Plane) (e : Entry) (l : PlanLeg) (s : State) : Bool × State :=
  let s1 := deferHot l.bank s
  if s1.faultValid l.bank .hot then (true, failEntry e .hot (some l.bank) s1)
  else
    let s2 := takeMiss l.bank .hot s1
    if s2.faultValid l.bank .hot then
      (if s2.isNormal then (true, failEntry e .hot (some l.bank) s2) else (false, s2))
    else (false, holdLeg pl l .hot s2)

/-- R60 to R62: the checks of an entry's leg that must be driven. -/
def checkLeg (pl : Plane) (e : Entry) (l : PlanLeg) (s : State) : Bool × State :=
  if !legFits s l.bank then (false, holdLeg pl l .noFit s)
  else if decide (l.target ≠ .term) && s.inhibited l.bank then (true, failEntry e .inhibited (some l.bank) s)
  else if isHot s l.bank then meetHot pl e l s
  else (false, startEntryLeg pl e l s)

/-- R59: the leg chosen from the head's plan is released, skipped or checked. -/
def takeLeg (pl : Plane) (e : Entry) (l : PlanLeg) (s : State) : Bool × State :=
  if l.target = .term then
    if (s.bank l.bank).position = some .term then (true, endLeg e l s)
    else if s.breakSkipped l.bank then (true, endLeg e l (s.recordPosition l.bank none))
    else checkLeg pl e l s
  else checkLeg pl e l s

/-- Work from the head of the plane; an empty plan completes at once (R68). -/
def takeEntry (pl : Plane) (e : Entry) (s : State) : Bool × State :=
  match e.plan with
  | [] => (true, completeEntry e s)
  | l :: _ => takeLeg pl e l s

/-- R57, step 2: the bank of the plane's next home. -/
def nextHome (s : State) (pl : Plane) : Option BankId :=
  allBanks.find? fun b =>
    (s.bank b).fitted && decide ((s.bank b).plane = pl) && (s.bank b).homeOwed && !(s.driver pl).passed.getLsbD b.1

/-- R70: a home is ended, passed over or started. -/
def takeHome (pl : Plane) (b : BankId) (s : State) : Bool × State :=
  if (s.bank b).position = some .term then (true, s.setHomeOwed b false)
  else if !legFits s b then (true, passHome pl b s)
  else if s.inhibited b then (true, passHome pl b s)
  else if isHot s b then (true, passHome pl b (takeMiss b .hot (deferHot b s)))
  else (false, startLeg pl { bank := b, target := .term, source := .home } s)

/-- R57: the driver chooses work: IDLE, its window open, not waiting for an opening, and NORMAL. -/
def canChoose (s : State) (pl : Plane) : Bool :=
  let d := s.driver pl
  let t := s.tracker pl
  decide (d.phase = .idle) && !d.forced && decide (d.waiting = none) && t.isOpen && !t.closingHeld && s.isNormal

/-- R57, steps 1 to 4: there is something to choose. -/
def hasWork (s : State) (pl : Plane) : Bool := (s.headOf pl).isSome || (nextHome s pl).isSome

/-- R57: one choice; whether the driver chooses again, and the state. -/
def chooseOnce (pl : Plane) (s : State) : Bool × State :=
  match s.headOf pl, nextHome s pl with
  | some e, some b => if e.active then takeEntry pl e s else takeHome pl b s
  | some e, none => takeEntry pl e s
  | none, some b => takeHome pl b s
  | none, none => (false, s)

/-- R57: the driver chooses until nothing is left to choose, at most `n` times. -/
def chooseLoop (pl : Plane) : Nat → State → State
  | 0, s => s
  | n + 1, s =>
    if canChoose s pl then
      (match chooseOnce pl s with
       | (true, s') => chooseLoop pl n s'
       | (false, s') => s')
    else s

/-- More choices than one event can bring: each ends a plan leg, an entry or a home, and each close owed brings one
BREAK of at most 6 legs. -/
def chooseFuel (s : State) : Nat := (s.queue.map fun e => e.plan.length + 1).sum + 24 + 16 * 7 + 1

/-- R57: the driver of one plane chooses work. -/
def choosePlane (pl : Plane) (s : State) : State := chooseLoop pl (chooseFuel s) s

/-- Both drivers choose work; where both have some, the order is free (log 3). -/
def chooseBoth (s : State) : State :=
  if canChoose s .a && hasWork s .a && (canChoose s .b && hasWork s .b) then eachPlane choosePlane s
  else choosePlane .b (choosePlane .a s)

/-! ## Forced mode (R72, R73) -/

/-- R38: a LIVE or SETTLING path becomes CLOSING when its driver reaches it in teardown. -/
def closeForced (p : Slot) (s : State) : State :=
  let x := s.path p
  if x.state = .live ∨ x.state = .settling then
    s.setPath p
      { x with
        state := .closing, prior := priorOf x.state, priorLegs := x.legsDone, settleTimer := none
        legsDone := s.legsReleased p }
  else s

/-- R29, R73: a forced break leg has ended: the bank leaves the path, and the slot is freed with its last bank. -/
def endForcedBreak (p : Slot) (b : BankId) (s : State) : State :=
  let s1 := s.setHolder b none
  let s2 := if (s1.path p).state = .closing then addLegDone p s1 else s1
  if (s2.heldBanks p).isEmpty then freeSlot p s2 else s2

/-- R73: a home that teardown counts as work: not one passed for a COIL fault. -/
def forcedHomeDue (s : State) (pl : Plane) (b : BankId) : Bool :=
  (s.bank b).fitted && decide ((s.bank b).plane = pl) && (s.bank b).homeOwed && !s.breakSkipped b

/-- R72: the next non-FREE path of the plane, in slot order. -/
def forcedPath (s : State) (pl : Plane) : Option Slot := allSlots.find? fun p => s.slotUsed p && s.slotOnPlane p pl

/-- R72: the next forced home of the plane, in bank index order. -/
def forcedHome (s : State) (pl : Plane) : Option BankId := allBanks.find? (forcedHomeDue s pl)

/-- R73: one forced break leg is decided. -/
def takeForcedBreak (pl : Plane) (p : Slot) (b : BankId) (s : State) : Bool × State :=
  if (s.bank b).position = some .term then (true, endForcedBreak p b s)
  else if s.breakSkipped b then (true, endForcedBreak p b (s.recordPosition b none))
  else (false, startLeg pl { bank := b, target := .term, source := .forcedBreak p } s)

/-- R72, R73: one piece of the plane's forced work; whether the driver goes on at once, and the state. -/
def forcedOnce (pl : Plane) (s : State) : Bool × State :=
  match forcedPath s pl with
  | some p =>
    let s1 := closeForced p s
    (match s1.heldBanks p with
     | [] => (true, freeSlot p s1)
     | b :: _ => takeForcedBreak pl p b s1)
  | none =>
    match forcedHome s pl with
    | some b =>
      if (s.bank b).position = some .term then (true, s.setHomeOwed b false)
      else (false, startLeg pl { bank := b, target := .term, source := .forcedHome } s)
    | none => (false, s)

/-- R72: the driver works through its forced work until a leg is driven or none is left, at most `n` pieces. -/
def forcedLoop (pl : Plane) : Nat → State → State
  | 0, s => s
  | n + 1, s =>
    match forcedOnce pl s with
    | (true, s') => forcedLoop pl n s'
    | (false, s') => s'

/-- More pieces of forced work than end without a drive: 24 held banks, 16 slots and 24 homes. -/
def forcedFuel : Nat := 24 + 16 + 24 + 1

/-- R71, R72: in TEARDOWN a driver with no leg in flight is in forced mode, and takes its next forced work unless it
pauses. -/
def workForced (pl : Plane) (s : State) : State :=
  if (s.driver pl).leg.isSome then s
  else
    let s1 := s.setDriver pl { s.driver pl with forced := true }
    if (s1.driver pl).pause.isSome then s1 else forcedLoop pl forcedFuel s1

/-- R72: the driver reports its plane done. -/
def planeDone (s : State) (pl : Plane) : Bool :=
  let d := s.driver pl
  d.forced && decide (d.leg = none) && decide (d.pause = none) && decide (forcedPath s pl = none) &&
    decide (forcedHome s pl = none)

/-! ## SAFE and the clearing of NODE_RESET (R142, R143, R147) -/

/-- R72: a driver leaves forced mode. -/
def Driver.leaveForced (d : Driver) : Driver := { d with forced := false, passed := 0, waiting := none }

/-- R147, the last step. -/
def finishReset (s : State) : State :=
  let s1 := s.setSafe { s.safe with resetPending := false }
  if s1.safe.causes = 0 then chooseBoth (s1.setSafe { s1.safe with state := .normal }) else s1

/-- R147, step 2: clearing the COIL detail of the bank sets home owed. -/
def clearedOwes (s : State) (b : BankId) : Bool := (s.bank b).fitted && s.breakSkipped b

/-- R147, steps 1 to 5, before what follows from home owed. -/
def clearWorking (s : State) : State :=
  let s1 := { s with claims := ClaimTable.empty }
  let s2 := s1.mapBanks fun b r => if clearedOwes s b then { r with homeOwed := true } else r
  let s3 := s2.setSup
    { s2.sup with
      counters := Vector.replicate 24 MissCounters.zero, faults := Vector.replicate 24 0, summaries := 0 }
  let s4 := ({ s3 with events := EventUnit.reset }).setRing { s3.ring with badFrames := 0 }
  let s5 := (s4.setRun .s1 SeqRun.reset).setRun .s2 SeqRun.reset
  removeCause .reset s5

/-- R147: the clearing, made in SAFE. Home owed sends the Safe Controller back to TEARDOWN; otherwise the last step is
made at once. -/
def clearing (s : State) : State :=
  let s1 := clearWorking s
  if allBanks.any (clearedOwes s) then workForced .b (workForced .a (s1.setSafe { s1.safe with state := .teardown }))
  else finishReset s1

/-- R142, R147: TEARDOWN passes to SAFE. -/
def reachSafe (s : State) : State :=
  let s1 := s.setSafe { s.safe with state := .safe }
  let s2 := { s1 with drivers := ⟨s1.drivers.a.leaveForced, s1.drivers.b.leaveForced⟩ }
  if causeIn .reset s2.safe.causes then clearing s2
  else if s2.safe.resetPending then finishReset s2
  else s2

/-- R142: the drivers work on in TEARDOWN; when both planes are done, SAFE is reached. -/
def settleTeardown (s : State) : State :=
  let s1 := workForced .b (workForced .a s)
  if planeDone s1 .a && planeDone s1 .b then reachSafe s1 else s1

/-- R143: home owed set on a fitted bank in SAFE returns the Safe Controller to TEARDOWN. -/
def owedInSafe (s : State) : State :=
  if s.safe.state = .safe then s.setSafe { s.safe with state := .teardown } else s

/-- What the drivers do once an event has had its effect: they choose work in NORMAL (R57) and go on with the forced
work in TEARDOWN (R72). In GRACE and SAFE they start nothing (R71, R143). -/
def react (s : State) : State :=
  match s.safe.state with
  | .normal => chooseBoth s
  | .teardown => settleTeardown s
  | .grace | .safe => s

/-! ## Drive, settle and readback (R64 to R66, R71, R73) -/

/-- R46, R64: the drive of a leg ends; a closing held tracker becomes shut. -/
def endDrive (pl : Plane) (s : State) : State :=
  match (s.driver pl).leg with
  | some l =>
    let s1 := s.setDriver pl
      { s.driver pl with phase := .settling, left := (s.bank l.bank).settle * Config.ticksPer100us }
    if (s1.tracker pl).closingHeld then s1.setTracker pl Tracker.shut else s1
  | none => s

/-- The driver returns to IDLE: its leg has ended (R65, R66). -/
def restDriver (pl : Plane) (s : State) : State :=
  s.setDriver pl { s.driver pl with phase := .idle, leg := none, left := 0 }

/-- R65, steps 1 to 4: a readback that equals the target. -/
def recordMatch (l : FlightLeg) (s : State) : State :=
  let s1 := s.setBank l.bank (countedBank { s.bank l.bank with position := some l.target })
  reportWorn l.bank (takePass l.bank .position s1)

/-- R71: outside NORMAL an ACTIVE head that its leg's readback has not completed fails with reason SAFE. -/
def failSafeHead (pl : Plane) (b : BankId) (s : State) : State :=
  if s.isNormal then s
  else
    match s.headOf pl with
    | some e => if e.active then failEntry e .safe (some b) s else s
    | none => s

/-- R65, step 5: what a completed leg ends. -/
def endMatched (pl : Plane) (l : FlightLeg) (s : State) : State :=
  match l.source with
  | .entry =>
    (match s.headOf pl with
     | some e =>
       (match e.plan with
        | x :: _ => failSafeHead pl l.bank (endLeg e x s)
        | [] => s)
     | none => s)
  | .home | .forcedHome => s.setHomeOwed l.bank false
  | .forcedBreak p => endForcedBreak p l.bank s

/-- R66, R71, R73: what a mismatched leg brings. -/
def endMismatched (pl : Plane) (l : FlightLeg) (s : State) : State :=
  match l.source with
  | .entry =>
    (match s.headOf pl with
     | some e =>
       if !s.isNormal then failSafeHead pl l.bank s
       else if s.faultValid l.bank .position then failEntry e .position (some l.bank) s
       else s
     | none => s)
  | .home => if s.faultValid l.bank .position then passHome pl l.bank s else s
  | .forcedBreak _ | .forcedHome =>
    let r := s.bank l.bank
    s.setDriver pl
      { s.driver pl with pause := some { leg := l, left := (r.operate + r.settle) * Config.ticksPer100us } }

/-- R64 to R66: the settle phase ends, the readback is taken, and its result is given to the leg; then the driver
chooses again. -/
def takeReadback (pl : Plane) (s : State) : State :=
  match (s.driver pl).leg with
  | some l =>
    let s1 := s.setDriver pl { s.driver pl with phase := .checking, left := 0 }
    let x := s1.readback l.bank
    if x = some l.target then react (endMatched pl l (restDriver pl (recordMatch l s1)))
    else
      react (endMismatched pl l (restDriver pl (takeMiss l.bank .position (s1.recordPosition l.bank x))))
  | none => s

/-- R73: a forced pause ends and the leg is decided again; the leg is still the first of the forced work unless a
request has ended it (log 19). -/
def endPause (pl : Plane) (s : State) : State :=
  match (s.driver pl).pause with
  | none => s
  | some x =>
    let s1 := s.setDriver pl { s.driver pl with pause := none }
    match x.leg.source with
    | .forcedBreak p =>
      if (s1.bank x.leg.bank).holder = some p then
        match takeForcedBreak pl p x.leg.bank s1 with
        | (true, s2) => react s2
        | (false, s2) => s2
      else react s1
    | .forcedHome | .home | .entry =>
      if forcedHomeDue s1 pl x.leg.bank && decide ((s1.bank x.leg.bank).position ≠ some .term) then
        startLeg pl { x.leg with source := .forcedHome } s1
      else react s1

/-! ## Windows (R43 to R46, R58, R67) -/

/-- R43, R58: the tracker opens and the driver takes the opening notice. -/
def openWindow (tag : Byte) (budget : Nat) (pl : Plane) (s : State) : State :=
  let s1 := s.setTracker pl { isOpen := true, tag := some tag, budget := budget, closingHeld := false }
  let d := s1.driver pl
  if d.forced then s1 else choosePlane pl (s1.setDriver pl { d with waiting := none, passed := 0 })

/-- R46: a closing leaves the tracker closing held: a leg that is not forced is in its drive phase. -/
def heldAtClosing (d : Driver) : Bool :=
  decide (d.phase = .driving) &&
    match d.leg with
    | some l => !l.source.isForced
    | none => false

/-- R67: the overrun record of a leg. -/
def overrunOf (pl : Plane) (d : Driver) (l : FlightLeg) : Overrun :=
  { bank := l.bank, plane := pl, settling := decide (d.phase = .settling),
    source := match l.source with
      | .entry => .entry
      | .home => .home
      | .forcedBreak _ | .forcedHome => .forced }

/-- R67: a closing notice that finds a leg driving or settling is an overrun. -/
def noteOverrun (pl : Plane) (s : State) : State :=
  let d := s.driver pl
  match d.leg with
  | some l =>
    if d.phase = .driving ∨ d.phase = .settling then
      State.raise { s with events := { s.events with lastOverrun := some (overrunOf pl d l) } } .windowOverrun
    else s
  | none => s

/-- R44 to R46: an open window closes. -/
def closeWindow (pl : Plane) (s : State) : State :=
  let t : Tracker :=
    if heldAtClosing (s.driver pl) then { isOpen := true, tag := none, budget := 0, closingHeld := true }
    else Tracker.shut
  noteOverrun pl (s.setTracker pl t)

/-- R45: the tracker of one plane takes a WINDOW_SHUT. -/
def shutWindow (tag : Byte) (pl : Plane) (s : State) : State :=
  let t := s.tracker pl
  if t.isOpen && !t.closingHeld && decide (t.tag = some tag) then closeWindow pl s else s

end Sys2Proof.Machine
end

