-- ==== Sys2Proof/Machine/TableRequests.lean ====
section
/-! DEFINITION. What the Request Unit does with the requests on the Bank Map, the Route Table and Step Memory (01, 05):
each takes the station field, the parameters and the state, and gives the answer and the state after its effect. -/

namespace Sys2Proof.Machine

/-- The execution of one request code. -/
abbrev RequestUnit := Byte → List Byte → State → Reply × State

/-- R161: a refused request leaves the state unchanged. -/
def refuse (st : Status) (data : List Byte) (s : State) : Reply × State := (⟨st, data⟩, s)

/-- The answer OK. -/
def answer (data : List Byte) (s : State) : Reply × State := (⟨.ok, data⟩, s)

/-- R57, R142: what the drivers start once a taken request has had its effect; the answer stands (log 10). -/
def settleRequest : Reply × State → Reply × State
  | (r, s) => if r.status = .ok ∨ r.status = .queued then (r, react s) else (r, s)

/-! ## Banks (R4 to R7, R13) -/

/-- R6: a readback that fits a bank. -/
def fittedBank (r : BankRecord) (x : Reading) : BankRecord :=
  { r with position := x, homeOwed := decide (x ≠ some .term), hotDeferrals := 0 }

/-- R6, R7: the record after a LOAD_BANK that is taken. -/
def loadedBank (old : BankRecord) (q : BankParams) (x : Reading) : BankRecord :=
  let r := { old with
    fitted := q.fitted, plane := q.plane, throwsFitted := q.throwsFitted, operate := q.operate, settle := q.settle
    lifeLimit := q.lifeLimit, lifeCount := if q.setCount then q.lifeCount else old.lifeCount }
  match old.fitted, q.fitted with
  | false, true => fittedBank r x
  | true, true => r
  | true, false => { r with position := none, homeOwed := false, hotDeferrals := 0 }
  | false, false => r

/-- R5: the plane of the leg in flight, or FFH. -/
def flightByte (s : State) (b : BankId) : Byte :=
  match s.flightPlane b with
  | some p => planeByte p
  | none => 0xFF

/-- R4 to R7, R143: LOAD_BANK. -/
def loadBankUnit (_ : Byte) (ps : List Byte) (s : State) : Reply × State :=
  match bankParamsFault ps with
  | some n => refuse .eArg [byteOf n] s
  | none =>
    let q := bankParams ps
    let old := s.bank q.bank
    if old.holder ≠ none ∨ s.inFlight q.bank then
      refuse .eState [slotByte old.holder, flightByte s q.bank] s
    else
      let r := loadedBank old q (s.readback q.bank)
      let s1 := s.setBank q.bank r
      let s2 := if !old.fitted && r.fitted && r.homeOwed then owedInSafe s1 else s1
      settleRequest (answer [positionByte r.position, boolByte r.homeOwed] s2)

/-- R13: READ_BANK. -/
def readBankUnit (_ : Byte) (ps : List Byte) (s : State) : Reply × State :=
  if ps.length ≠ 1 ∨ 23 < val1 ps 0 then refuse .eArg [0x00] s
  else
    let b : BankId := Fin.ofNat 24 (val1 ps 0)
    let r := s.bank b
    answer
      (bankConfigBytes r ++ bytes4 r.lifeCount ++
        [positionByte r.position, slotByte r.holder, boolByte r.homeOwed, byteOf r.hotDeferrals,
         boolByte (s.inhibited b), boolByte (s.breakSkipped b), boolByte (s.inFlight b)]) s

/-! ## Routes (R15, R16, R18) -/

/-- R16: the non-FREE slots that record the route. -/
def slotsOnRoute (s : State) (r : RouteId) : List Slot :=
  allSlots.filter fun p => s.slotUsed p && decide ((s.path p).route = some r)

/-- R15, check 3. -/
def routeLegFault (s : State) (ps : List Byte) : Option Nat :=
  if val1 ps 1 = 1 then firstBadLeg s (planeOfVal (val1 ps 4)) (legPairs (ps.drop 8)) [] 0 else none

/-- R15, R16: LOAD_ROUTE. -/
def loadRouteUnit (_ : Byte) (ps : List Byte) (s : State) : Reply × State :=
  if routeParamsBad ps then refuse .eArg [0xFF] s
  else
    match routeLegFault s ps with
    | some i => refuse .eArg [byteOf i] s
    | none =>
      let n : RouteId := Fin.ofNat 128 (val1 ps 0)
      match slotsOnRoute s n with
      | p :: _ => refuse .eState [byteOf p.1] s
      | [] => answer [] (s.setRoute n (if val1 ps 1 = 1 then routeOfParams ps else RouteRecord.undefined))

/-- R18: READ_ROUTE. -/
def readRouteUnit (_ : Byte) (ps : List Byte) (s : State) : Reply × State :=
  if ps.length ≠ 1 ∨ 127 < val1 ps 0 then refuse .eArg [0xFF] s
  else
    let n : RouteId := Fin.ofNat 128 (val1 ps 0)
    answer (routeBytes n (s.route n) ++ [byteOf (slotsOnRoute s n).length]) s

/-! ## Steps (R76, R77) -/

/-- R76: the records of a LOAD_STEPS are written from step `first`, `n` of them. -/
def writeSteps (ps : List Byte) (first : Nat) : Nat → State → State
  | 0, s => s
  | n + 1, s => (writeSteps ps first n s).setStep (Fin.ofNat 512 (first + n)) (stepOf ps (3 + 5 * n))

/-- R76: LOAD_STEPS. -/
def loadStepsUnit (_ : Byte) (ps : List Byte) (s : State) : Reply × State :=
  let first := val2 ps 0
  let count := val1 ps 2
  if ps.length ≠ 3 + 5 * count ∨ count < 1 ∨ 8 < count ∨ 511 < first ∨ 512 < first + count then
    refuse .eArg [0xFF] s
  else
    match (List.range count).find? fun i => stepBad ps (3 + 5 * i) with
    | some i => refuse .eArg [byteOf i] s
    | none => answer [] (writeSteps ps first count s)

/-- R77: READ_STEPS. -/
def readStepsUnit (_ : Byte) (ps : List Byte) (s : State) : Reply × State :=
  let first := val2 ps 0
  let count := val1 ps 2
  if ps.length ≠ 3 ∨ 511 < first ∨ count < 1 ∨ 8 < count then refuse .eArg [0xFF] s
  else
    answer
      ((List.range count).flatMap fun i =>
        if h : first + i < 512 then stepBytes (s.step ⟨first + i, h⟩) else []) s

end Sys2Proof.Machine
end

