-- ==== Sys2Proof/Machine/Visits.lean ====
section
/-! DEFINITION. Supervision visits: cycles, the visit start and end, and the checks of a visit (R123 to R126). -/

namespace Sys2Proof.Machine

/-- R123, R124: the next bank a cycle visits from index `n` upward: fitted, with no leg in flight. -/
def nextVisit (s : State) (n : Nat) : Option BankId :=
  allBanks.find? fun b => decide (n ≤ b.1) && (s.bank b).fitted && !s.inFlight b

/-- R124: the visit start samples the three readings. -/
def startVisit (b : BankId) (s : State) : State :=
  s.setSup
    { s.sup with
      cycle := .visiting, position := b
      visit := some { sample := ⟨(s.lines.get b).coil, (s.lines.get b).detector, s.readback b⟩,
                      left := Config.visitTicks } }

/-- R123: the cycle has passed B23 and ends. -/
def endCycle (s : State) : State :=
  let x := { s.sup with visit := none }
  if s.settings.interval = 0 then s.setSup { x with cycle := .stopped, running := false }
  else if x.running then s.setSup { x with cycle := .waiting }
  else s.setSup { x with cycle := .waiting, elapsed := 0, running := true }

/-- R123: the cycle goes on from index `n`. -/
def seekVisit (n : Nat) (s : State) : State :=
  match nextVisit s n with
  | some b => startVisit b s
  | none => endCycle s

/-- R123: a cycle starts; the interval timer restarts from 0. -/
def startCycle (s : State) : State :=
  seekVisit 0 (s.setSup { s.sup with cycle := .visiting, position := 0, elapsed := 0, running := true })

/-- R123: a cycle is due: none is under way and the interval timer has reached the interval. -/
def cycleDue (s : State) : Bool :=
  decide (s.sup.cycle = .waiting) && s.sup.running && decide (s.settings.interval ≠ 0) &&
    decide (s.settings.interval * Config.ticksPerMs ≤ s.sup.elapsed)

/-- R125: the COIL check. -/
def checkCoil (b : BankId) (x : Sample) (s : State) : State :=
  if x.coil.toNat < s.settings.coilMin ∨ s.settings.coilMax < x.coil.toNat then takeMiss b .coil s
  else takePass b .coil s

/-- R125: the DRIFT check of a bank whose record is `r`. -/
def checkDrift (b : BankId) (r : BankRecord) (x : Sample) (s : State) : State :=
  match r.position with
  | none => takePass b .drift s
  | some c => if x.reading = some c then takePass b .drift s else takeMiss b .drift s

/-- R126: the STRAY check of a bank whose record is `r`. -/
def checkStray (b : BankId) (r : BankRecord) (x : Sample) (s : State) : State :=
  if r.position = some .term ∧ r.holder = none then
    if s.settings.strayThreshold ≤ x.detector.toNat then takeMiss b .stray s else takePass b .stray s
  else s

/-- R124: the readings become the bank's last sample. -/
def keepSample (b : BankId) (x : Sample) (s : State) : State :=
  s.setSup { s.sup with samples := s.sup.samples.set b.1 (some x) b.2 }

/-- R124 to R126: the visit end judges the readings, unless a leg is in flight on the bank or it is unfitted. The bank
record is that of the visit end, also where an earlier check of it enters the safe state and so releases the bank
(log 32). -/
def judgeVisit (b : BankId) (x : Sample) (s : State) : State :=
  if (s.bank b).fitted && !s.inFlight b then
    keepSample b x (reportWorn b (checkStray b (s.bank b) x (checkDrift b (s.bank b) x (checkCoil b x s))))
  else s

/-- R124: a visit ends and the cycle moves on. -/
def endVisit (s : State) : State :=
  match s.sup.visit with
  | none => s
  | some v =>
    let b := s.sup.position
    let s1 := judgeVisit b v.sample (s.setSup { s.sup with visit := none })
    let s2 := seekVisit (b.1 + 1) s1
    if cycleDue s2 then startCycle s2 else s2

/-- R123: what a SET_SETTINGS of the interval does to the cycles, the new settings standing. -/
def retimeVisits (s : State) : State :=
  if s.settings.interval = 0 then
    match s.sup.cycle with
    | .visiting => s.setSup { s.sup with running := false }
    | .waiting | .stopped => s.setSup { s.sup with cycle := .stopped, running := false }
  else
    match s.sup.cycle with
    | .stopped => startCycle s
    | .waiting => if cycleDue s then startCycle s else s
    | .visiting => s

end Sys2Proof.Machine
end

