-- ==== Sys2Proof/Machine/NodeRequests.lean ====
section
/-! DEFINITION. What the Request Unit does with the requests on claims, identity, settings, events, faults, the safe
state and the address (07, 08, 09, 10, 11). -/

namespace Sys2Proof.Machine

/-- A request that takes no parameters and no station field. -/
def withoutParams (ps : List Byte) (s : State) (f : Reply × State) : Reply × State :=
  if ps.length ≠ 0 then refuse .eArg [0xFF] s else f

/-! ## Claims (R112, R113, R115) -/

/-- The Claim Table rewritten item by item. -/
def mapClaims (f : Item → Option Station → Option Station) (c : ClaimTable) : ClaimTable :=
  { banks := Vector.ofFn fun b => f (.bank b) (c.banks.get b)
    fixtures := Vector.ofFn fun n => f (.fixture n) (c.fixtures.get n) }

/-- The map of the items held by a station. -/
def heldMap (s : State) (st : Station) : List Byte := itemMapBytes fun i => decide (s.claimOf i = some st)

/-- R112: CLAIM. -/
def claimUnit (sf : Byte) (ps : List Byte) (s : State) : Reply × State :=
  match stationOf sf with
  | none => refuse .eArg [0xFF] s
  | some st =>
    if !itemMapOk ps then refuse .eArg [0xFF] s
    else
      let s1 := { s with claims := mapClaims (fun i h => if itemNamed ps i && h.isNone then some st else h) s.claims }
      answer (heldMap s1 st) s1

/-- R113: the item is in use by a path of the station. -/
def itemInUse (s : State) (st : Station) : Item → Bool
  | .bank b =>
    (match (s.bank b).holder with
     | some p => decide ((s.path p).station = some st)
     | none => false)
  | .fixture n => allSlots.any fun p => s.slotUsed p && decide ((s.path p).station = some st) && s.slotEndsAt p n

/-- R113: the item is held by the station, and RELEASE would keep it. -/
def itemKept (s : State) (st : Station) (i : Item) : Bool := decide (s.claimOf i = some st) && itemInUse s st i

/-- R113: RELEASE. -/
def releaseUnit (sf : Byte) (ps : List Byte) (s : State) : Reply × State :=
  match stationOf sf with
  | none => refuse .eArg [0xFF] s
  | some st =>
    if !itemMapOk ps then refuse .eArg [0xFF] s
    else
      let kept (i : Item) : Bool := itemNamed ps i && itemKept s st i
      let free (i : Item) (h : Option Station) : Option Station :=
        if itemNamed ps i && decide (h = some st) && !itemInUse s st i then none else h
      let s1 := { s with claims := mapClaims free s.claims }
      answer (itemMapBytes kept ++ heldMap s1 st) s1

/-- R115: the seat states. -/
def seatByte (s : State) : Byte :=
  mapByte fun i =>
    if i < 4 then (s.chamber.seats.get (Fin.ofNat 4 i)).debounced
    else (s.chamber.seats.get (Fin.ofNat 4 (i - 4))).timer.isSome

/-- R115: READ_CLAIMS. -/
def readClaimsUnit (_ : Byte) (ps : List Byte) (s : State) : Reply × State :=
  withoutParams ps s
    (answer
      (heldMap s .s1 ++ heldMap s .s2 ++ itemMapBytes (fun i => itemKept s .s1 i || itemKept s .s2 i) ++ [seatByte s])
      s)

/-! ## Identity and settings (R162, R164, R165) -/

/-- R162: IDENT. -/
def identUnit (_ : Byte) (ps : List Byte) (s : State) : Reply × State :=
  withoutParams ps s
    (answer
      ([0x19, 0x14, 1] ++ [match s.ring.address with | some a => a.setWidth 8 | none => 0] ++
        [24, 128, 16] ++ bytes2 512 ++ [2, 4]) s)

/-- R165: GET_SETTINGS. -/
def getSettingsUnit (_ : Byte) (ps : List Byte) (s : State) : Reply × State :=
  withoutParams ps s (answer (settingsBytes s.settings) s)

/-- R164: SET_SETTINGS. The keepalive timer is set when the node has finished with the frame (R160). -/
def setSettingsUnit (_ : Byte) (ps : List Byte) (s : State) : Reply × State :=
  match settingsFault ps with
  | some n => refuse .eArg [byteOf n] s
  | none => answer [] (retimeVisits { s with settings := settingsOf ps })

/-! ## Events (R168, R169) -/

/-- R168: READ_EVENTS. -/
def readEventsUnit (_ : Byte) (ps : List Byte) (s : State) : Reply × State :=
  withoutParams ps s
    (answer
      (eventMapBytes s.events.flags ++ [byteOf s.ring.badFrames] ++ changeFailureBytes s.events.lastFailure ++
        overrunBytes s.events.lastOverrun ++ seqFaultBytes s.seqs.s1.run.fault ++ seqFaultBytes s.seqs.s2.run.fault ++
        bytes2 (stepOptVal s.seqs.s1.run.lastMark) ++ bytes2 (stepOptVal s.seqs.s2.run.lastMark) ++
        fixtureChangeBytes s.events.lastFixture) s)

/-- R169: the named flags are cleared, and with RING_ERROR the bad-frame count. -/
def clearFlags (m : BitVec 22) (s : State) : State :=
  let s1 := { s with events := { s.events with flags := s.events.flags &&& ~~~m } }
  if m.getLsbD Event.ringError.bit then s1.setRing { s1.ring with badFrames := 0 } else s1

/-- R169: CLEAR_EVENTS. -/
def clearEventsUnit (_ : Byte) (ps : List Byte) (s : State) : Reply × State :=
  if ps.length ≠ 3 ∨ 4194303 < val3 ps 0 then refuse .eArg [0xFF] s
  else
    let s1 := clearFlags (BitVec.ofNat 22 (val3 ps 0)) s
    answer (eventMapBytes s1.events.flags) s1

/-! ## Faults (R131 to R135, R137) -/

/-- R137: READ_FAULTS. -/
def readFaultsUnit (_ : Byte) (ps : List Byte) (s : State) : Reply × State :=
  if ps.length ≠ 1 ∨ (23 < val1 ps 0 ∧ val1 ps 0 ≠ 0xFF) then refuse .eArg [0xFF] s
  else if val1 ps 0 = 0xFF then
    answer ([kindSetByte s.sup.summaries] ++ allBanks.map (fun b => kindSetByte (s.faultsOf b)) ++
      [visitStateByte s.sup]) s
  else
    let b : BankId := Fin.ofNat 24 (val1 ps 0)
    let c := s.sup.counters.get b
    answer ([byteOf b.1, kindSetByte (s.faultsOf b), byteOf c.coil, byteOf c.drift, byteOf c.stray, byteOf c.position,
      byteOf c.hot] ++ sampleBytes (s.sup.samples.get b)) s

/-- R132, R133: the detail flag and the counter of a pair are cleared. -/
def clearPair (b : BankId) (k : FaultKind) (s : State) : State :=
  (s.setFaults b (kindErase k (s.faultsOf b))).setCounter b k 0

/-- R134: DRIFT is kept: no valid reading, or another position than the one recorded under a LIVE or SETTLING path. -/
def driftKept (s : State) (b : BankId) : Bool :=
  match s.readback b with
  | none => true
  | some c =>
    match (s.bank b).holder with
    | none => false
    | some p =>
      decide ((s.bank b).position ≠ some c) &&
        (decide ((s.path p).state = .live) || decide ((s.path p).state = .settling))

/-- Home owed is set on a bank by a CLEAR_FAULTS (R134, R135, R143). -/
def oweByClear (b : BankId) (s : State) : State := owedInSafe (s.setHomeOwed b true)

/-- R134: a bank whose DRIFT detail is cleared takes the reading. -/
def resyncBank (b : BankId) (s : State) : State :=
  let x := s.readback b
  let s1 := clearPair b .drift (s.recordPosition b x)
  if decide (x ≠ some .term) && decide ((s.bank b).holder = none) then oweByClear b s1 else s1

/-- R134: DRIFT is cleared on a bank; whether it was kept. -/
def clearDrift (b : BankId) (s : State) : Bool × State :=
  if s.faultValid b .drift && (s.bank b).fitted && !s.inFlight b then
    if driftKept s b then (true, s) else (false, resyncBank b s)
  else (false, clearPair b .drift s)

/-- R135: COIL is cleared on a bank. -/
def clearCoil (b : BankId) (s : State) : State :=
  let s1 := clearPair b .coil s
  if s.breakSkipped b && (s.bank b).fitted && decide ((s.bank b).holder = none) then oweByClear b s1 else s1

/-- R132 to R135: a kind is cleared on a bank; whether it was kept. -/
def clearKindOn (b : BankId) (k : FaultKind) (s : State) : Bool × State :=
  match k with
  | .drift => clearDrift b s
  | .coil => (false, clearCoil b s)
  | .stray | .position | .hot | .worn => (false, clearPair b k s)

/-- The kinds of a set in the order they are cleared: that of COIL and DRIFT is free (log 17). -/
def clearOrder (s : State) (ks : KindSet) : List FaultKind :=
  (if s.arb.coilFirst then [.coil, .drift, .stray, .position, .hot, .worn]
   else [.drift, .coil, .stray, .position, .hot, .worn] : List FaultKind).filter fun k => kindIn k ks

/-- A pair is cleared and, if it was kept, its bank joins the kept map (R131). -/
def clearNoting (b : BankId) (k : FaultKind) (x : BitVec 24 × State) : BitVec 24 × State :=
  match clearKindOn b k x.2 with
  | (true, s) => (x.1 ||| (1#24 <<< b.1), s)
  | (false, s) => (x.1, s)

/-- R132: the summary of a kind is cleared, unless a DRIFT detail was kept. -/
def clearSummary (k : FaultKind) (x : BitVec 24 × State) : BitVec 24 × State :=
  if k = .drift ∧ x.1 ≠ 0 then x
  else (x.1, x.2.setSup { x.2.sup with summaries := kindErase k x.2.sup.summaries })

/-- R132: a kind is cleared on every bank. -/
def clearKindAll (k : FaultKind) (x : BitVec 24 × State) : BitVec 24 × State :=
  clearSummary k (allBanks.foldl (fun y b => clearNoting b k y) x)

/-- R131: the parameters are refused. -/
def clearFaultsBad (ps : List Byte) : Bool :=
  decide (ps.length ≠ 3) || decide (1 < val1 ps 0) ||
    (if val1 ps 0 = 0 then decide (val1 ps 1 ≠ 0xFF) else decide (23 < val1 ps 1)) || decide (63 < val1 ps 2)

/-- R132, R133: the clear, with the map of the banks whose DRIFT detail was kept. -/
def clearFaultsOf (ps : List Byte) (s : State) : BitVec 24 × State :=
  let kinds := clearOrder s (BitVec.ofNat 6 (val1 ps 2))
  if val1 ps 0 = 0 then kinds.foldl (fun x k => clearKindAll k x) (0, s)
  else kinds.foldl (fun x k => clearNoting (Fin.ofNat 24 (val1 ps 1)) k x) (0, s)

/-- R131: CLEAR_FAULTS. Naming both COIL and DRIFT uses up one free order. -/
def clearFaultsUnit (_ : Byte) (ps : List Byte) (s : State) : Reply × State :=
  if clearFaultsBad ps then refuse .eArg [0xFF] s
  else
    let x := clearFaultsOf ps s
    let ks : KindSet := BitVec.ofNat 6 (val1 ps 2)
    let s1 := if kindIn .coil ks && kindIn .drift ks then x.2.redraw else x.2
    settleRequest (answer ([kindSetByte s1.sup.summaries] ++ bankMapBytes (fun b => x.1.getLsbD b.1)) s1)

/-! ## The safe state (R145 to R147) -/

/-- R145: SAFE_ENTER. -/
def safeEnterUnit (_ : Byte) (ps : List Byte) (s : State) : Reply × State :=
  withoutParams ps s
    (let s1 := addCause .request s
     settleRequest (answer (safeBytes s1.safe) s1))

/-- R146: the summaries that are set and in the safe mask. -/
def blockingKinds (s : State) : KindSet := s.sup.summaries &&& s.settings.safeMask

/-- R146: SAFE_EXIT is refused. -/
def exitRefused (s : State) : Bool :=
  match s.safe.state with
  | .normal => false
  | .grace | .teardown => true
  | .safe => !s.chamber.door.debounced || decide (blockingKinds s ≠ 0)

/-- R146: SAFE_EXIT. -/
def safeExitUnit (_ : Byte) (ps : List Byte) (s : State) : Reply × State :=
  withoutParams ps s
    (if exitRefused s then refuse .eState (safeBytes s.safe ++ [kindSetByte (blockingKinds s)]) s
     else if s.isNormal then answer (safeBytes s.safe) s
     else
       let s1 := s.setSafe { s.safe with state := .normal, causes := 0 }
       settleRequest (answer (safeBytes s1.safe) s1))

/-- R147: NODE_RESET. -/
def nodeResetUnit (_ : Byte) (ps : List Byte) (s : State) : Reply × State :=
  withoutParams ps s
    (let s1 := addCause .reset (s.setSafe { s.safe with resetPending := true })
     let s2 := if s.safe.state = .safe then clearing s1 else s1
     settleRequest (answer (safeBytes s2.safe) s2))

/-! ## The address (R155) -/

/-- R155: FORGET. -/
def forgetUnit (_ : Byte) (ps : List Byte) (s : State) : Reply × State :=
  withoutParams ps s (answer [] (s.setRing { s.ring with address := none, keepalive := none }))

end Sys2Proof.Machine
end

