-- ==== Sys2Proof/Machine/PathRequests.lean ====
section
/-! DEFINITION. What the Request Unit does with the requests on paths and the queue (02, 04). -/

namespace Sys2Proof.Machine

/-- R21: the answer to a failed station, length or range test. -/
def badPathArg (s : State) : Reply × State := refuse .eArg [0xFF] s

/-- R22 to R24, R52: a MAKE of the station on the route. -/
def openChecked (st : Station) (r : RouteId) (s : State) : Reply × State :=
  match acceptMake s st (.request st) r with
  | .error x => (x, s)
  | .ok (p, s1) =>
    settleRequest (⟨.queued, [byteOf p.1, byteOf (s.entriesOn (s.route r).plane)]⟩, s1)

/-- R21: OPEN_PATH. -/
def openPathUnit (sf : Byte) (ps : List Byte) (s : State) : Reply × State :=
  match stationOf sf with
  | none => badPathArg s
  | some st =>
    if ps.length ≠ 1 ∨ 127 < val1 ps 0 then badPathArg s
    else if !s.isNormal then refuse .eSafe [] s
    else openChecked st (Fin.ofNat 128 (val1 ps 0)) s

/-- R26, R27, R52: a SWAP of the station from the slot to the route. -/
def swapChecked (st : Station) (o : Slot) (r : RouteId) (s : State) : Reply × State :=
  match acceptSwap s st (.request st) o r with
  | .error x => (x, s)
  | .ok (p, s1) =>
    settleRequest (⟨.queued, [byteOf o.1, byteOf p.1, byteOf (s.entriesOn (s.route r).plane)]⟩, s1)

/-- R21: SWAP_PATH. -/
def swapPathUnit (sf : Byte) (ps : List Byte) (s : State) : Reply × State :=
  match stationOf sf with
  | none => badPathArg s
  | some st =>
    if ps.length ≠ 2 ∨ 15 < val1 ps 0 ∨ 127 < val1 ps 1 then badPathArg s
    else if !s.isNormal then refuse .eSafe [] s
    else swapChecked st (Fin.ofNat 16 (val1 ps 0)) (Fin.ofNat 128 (val1 ps 1)) s

/-- R36: CLOSE_PATH on a FORMING slot, whose change is `e`. -/
def closeForming (p : Slot) (e : Entry) (s : State) : Reply × State :=
  if e.active then
    (⟨.queued, [byteOf p.1, 0xFF]⟩,
     s.setPath p { s.path p with closeOwed := true, closeOwedCause := some .closePath })
  else
    match e.kind, e.old with
    | .swapChange, some o => settleRequest (answer [] (convertSwap e o p s))
    | _, _ => settleRequest (answer [] (cancelEntry e s))

/-- R36: CLOSE_PATH of the station in NORMAL. -/
def closeChecked (st : Station) (p : Slot) (s : State) : Reply × State :=
  let x := s.path p
  if x.state = .free then refuse .eState [0x00] s
  else if x.station ≠ some st then refuse .eClaim [0xFF] s
  else if x.state = .closing then refuse .eState [0x04] s
  else if x.closeOwed then refuse .eState [0x06] s
  else
    match x.state, s.entryNaming p with
    | .forming, some e => closeForming p e s
    | _, _ =>
      settleRequest
        (⟨.queued, [byteOf p.1, byteOf (s.entriesOn (s.slotPlane p))]⟩,
         acceptBreak p (.request st) (priorOf x.state) s)

/-- R21: CLOSE_PATH. -/
def closePathUnit (sf : Byte) (ps : List Byte) (s : State) : Reply × State :=
  match stationOf sf with
  | none => badPathArg s
  | some st =>
    if ps.length ≠ 1 ∨ 15 < val1 ps 0 then badPathArg s
    else if !s.isNormal then answer [] s
    else closeChecked st (Fin.ofNat 16 (val1 ps 0)) s

/-- R37: the slot whose state after a cancellation is answered: a SWAP's old slot, else the slot named. -/
def cancelledSlot (e : Entry) (p : Slot) : Slot :=
  match e.kind, e.old with
  | .swapChange, some o => o
  | _, _ => p

/-- R37: CANCEL_CHANGE of the station on the slot. -/
def cancelChecked (st : Station) (p : Slot) (s : State) : Reply × State :=
  match s.entryNaming p with
  | none => refuse .eState [0x00] s
  | some e =>
    if (s.path p).station ≠ some st then refuse .eClaim [0xFF] s
    else if e.active then refuse .eState [0x01] s
    else
      let s1 := cancelEntry e s
      settleRequest (answer [pathStateByte (s1.path (cancelledSlot e p)).state] s1)

/-- R21: CANCEL_CHANGE. -/
def cancelChangeUnit (sf : Byte) (ps : List Byte) (s : State) : Reply × State :=
  match stationOf sf with
  | none => badPathArg s
  | some st =>
    if ps.length ≠ 1 ∨ 15 < val1 ps 0 then badPathArg s
    else cancelChecked st (Fin.ofNat 16 (val1 ps 0)) s

/-- R40: READ_PATHS. -/
def readPathsUnit (_ : Byte) (ps : List Byte) (s : State) : Reply × State :=
  let first := val1 ps 0
  let count := val1 ps 1
  if ps.length ≠ 2 ∨ 15 < first ∨ count < 1 ∨ 7 < count then refuse .eArg [0xFF] s
  else
    answer
      ((List.range count).flatMap fun i =>
        if h : first + i < 16 then pathBytes (s.path ⟨first + i, h⟩) else []) s

/-- R74: the entries from position `first`, at most `count`. -/
def queueBytes (q : List Entry) (first count : Nat) : List Byte :=
  (((q.drop first).take count).zipIdx first).flatMap fun x => entryBytes x.2 x.1

/-- R74: READ_QUEUE. -/
def readQueueUnit (_ : Byte) (ps : List Byte) (s : State) : Reply × State :=
  let first := val1 ps 0
  let count := val1 ps 1
  if ps.length ≠ 2 ∨ 15 < first ∨ 6 < count then refuse .eArg [0xFF] s
  else
    answer
      (trackerBytes s.trackers.a ++ trackerBytes s.trackers.b ++ driverBytes s.drivers.a ++ driverBytes s.drivers.b ++
        [byteOf s.queue.length] ++ queueBytes s.queue first count) s

end Sys2Proof.Machine
end

