-- ==== Sys2Proof/Machine/Sequencer.lean ====
section
/-! DEFINITION. The List Sequencers: evaluation on two planes (06), arrival, dwell, the next index, holding and
stopping (05). -/

namespace Sys2Proof.Machine

/-! ## The events of a station's sequencer -/

def markEvent : Station → Event
  | .s1 => .seq1Mark
  | .s2 => .seq2Mark

def stoppedEvent : Station → Event
  | .s1 => .seq1Stopped
  | .s2 => .seq2Stopped

def faultEvent : Station → Event
  | .s1 => .seq1Fault
  | .s2 => .seq2Fault

def stallEvent : Station → Event
  | .s1 => .seq1Stall
  | .s2 => .seq2Stall

def wrapEvent : Station → Event
  | .s1 => .seq1Wrap
  | .s2 => .seq2Wrap

def State.run (s : State) (st : Station) : SeqRun := (s.seq st).run

def State.seqCfg (s : State) (st : Station) : SeqSettings := (s.seq st).cfg

/-! ## Conditions (R100) -/

/-- R100: the gate bit of a station and plane, as R149 numbers them. -/
def gateBit (st : Station) (p : Plane) (gates : BitVec 4) : Bool :=
  gates.getLsbD
    (match st, p with
     | .s1, .a => 0
     | .s1, .b => 1
     | .s2, .a => 2
     | .s2, .b => 3)

/-- R100, FAULT: the current path is FAILED or holds a bank with a valid fault. -/
def pathFaulty (s : State) (cur : Option Slot) : Bool :=
  match cur with
  | none => false
  | some p =>
    decide ((s.path p).state = .failed) ||
      allBanks.any fun b => decide ((s.bank b).holder = some p) && s.inhibited b

/-- R100: the condition is true for the plane. -/
def holds (s : State) (st : Station) (c : Condition) (p : Plane) : Bool :=
  let cur := (s.run st).current.get p
  match c with
  | .always => true
  | .live => match cur with | some q => decide ((s.path q).state = .live) | none => false
  | .idle => cur.isNone
  | .gate => gateBit st p s.ring.gates
  | .noGate => !gateBit st p s.ring.gates
  | .fault => pathFaulty s cur
  | .noFault => !pathFaulty s cur
  | .lastPass => decide ((s.run st).groupCounter ≤ 1)

/-! ## Faulting (R96) -/

/-- R96: the sequencer becomes FAULTED at its cursor. -/
def faultSeq (st : Station) (pl : Option Plane) (why : SeqFaultReason) (s : State) : State :=
  let r := s.run st
  (s.setRun st
    { r with
      state := .faulted, fault := some ⟨r.cursor, pl, why⟩, changes := [], applied := ⟨false, false⟩
      stalled := ⟨none, none⟩ }).raise (faultEvent st)

/-! ## Calls to the Path Set (R102 to R106) -/

/-- R99: what became of one plane. -/
inductive PlaneOutcome where
  | passed
  | applied
  | stalled (call : StalledCall)
  | faulted (why : SeqFaultReason)
deriving DecidableEq, Repr

/-- R106: every slot named in the map of an E_CONFLICT is CLOSING. -/
def onlyClosing (s : State) (data : List Byte) : Bool :=
  let m := BitVec.ofNat 16 (val2 data 0)
  allSlots.all fun p => !m.getLsbD p.1 || decide ((s.path p).state = .closing)

/-- R105: the class of a refusal. -/
def classify (s : State) (call : StalledCall) (r : Reply) : PlaneOutcome :=
  match r.status with
  | .eArg => .faulted .route
  | .eClaim => if r.data = [0xFF] then .faulted .station else .faulted .claim
  | .eState => if 0x40 ≤ val1 r.data 0 then .faulted .fixture else .faulted .conflict
  | .eFault => .faulted .inhibited
  | .eConflict => if onlyClosing s r.data then .stalled call else .faulted .conflict
  | .eFull => .stalled call
  | .ok | .queued | .eSafe | .eUnknown => .faulted .conflict

/-- R104: the sequencer takes an acceptance. -/
def takeAccepted (st : Station) (pl : Plane) (old new : Option Slot) (s : State) : State :=
  let r := s.run st
  s.setRun st
    { r with
      applied := r.applied.set pl true
      changes := r.changes ++ [⟨pl, old, new⟩]
      current := match new with
        | some p => r.current.set pl (some p)
        | none => r.current }

/-- R102: a MAKE is asked of the Path Set. -/
def askMake (st : Station) (pl : Plane) (r : RouteId) (s : State) : PlaneOutcome × State :=
  match acceptMake s st (.sequencer st) r with
  | .ok (p, s') => (.applied, takeAccepted st pl none (some p) s')
  | .error x => (classify s .makeCall x, s)

/-- R102, R108: a SWAP from the current path is asked; with none, its old slot is FREE (E_STATE 00H). -/
def askSwap (st : Station) (pl : Plane) (r : RouteId) (s : State) : PlaneOutcome × State :=
  match (s.run st).current.get pl with
  | none => (.faulted .conflict, s)
  | some o =>
    match acceptSwap s st (.sequencer st) o r with
    | .ok (p, s') => (.applied, takeAccepted st pl (some o) (some p) s')
    | .error x => (classify s .swapCall x, s)

/-- R103: a BREAK of the slot is accepted. -/
def askBreak (st : Station) (pl : Plane) (o : Slot) (s : State) : PlaneOutcome × State :=
  (.applied, takeAccepted st pl (some o) none (acceptBreak o (.sequencer st) (priorOf (s.path o).state) s))

/-! ## Evaluation (R99, R101, R103, R109) -/

/-- The path may be swapped from, or broken by CLEAR when `failed` counts too (R101 test 6, R103). -/
def openForChange (x : PathRecord) (failed : Bool) : Bool :=
  (decide (x.state = .live) || decide (x.state = .settling) || (failed && decide (x.state = .failed))) &&
    !x.closeOwed

/-- R101, tests 4 to 7: the field names a route. -/
def evalRoute (st : Station) (pl : Plane) (r : RouteId) (s : State) : PlaneOutcome × State :=
  if (s.route r).defined && decide ((s.route r).plane ≠ pl) then (.faulted .plane, s)
  else
    match (s.run st).current.get pl with
    | none => askMake st pl r s
    | some o =>
      if (s.path o).route = some r ∧ (s.path o).state ≠ .closing then (.passed, s)
      else if openForChange (s.path o) false then askSwap st pl r s
      else askMake st pl r s

/-- R103: the field is CLEAR. -/
def evalClear (st : Station) (pl : Plane) (s : State) : PlaneOutcome × State :=
  match (s.run st).current.get pl with
  | none => (.passed, s)
  | some o => if openForChange (s.path o) true then askBreak st pl o s else (.passed, s)

/-- The route field of a record for a plane. -/
def StepRecord.field (r : StepRecord) : Plane → RouteField
  | .a => r.routeA
  | .b => r.routeB

/-- R101: one plane of an APPLY copy. -/
def evalPlane (st : Station) (pl : Plane) (s : State) : PlaneOutcome × State :=
  let c := (s.run st).copy
  if !holds s st c.cond pl then (.passed, s)
  else
    match c.field pl with
    | .keep => (.passed, s)
    | .clear => evalClear st pl s
    | .route r => evalRoute st pl r s

/-- R99: the outcome of a plane is written; whether the sequencer faulted. -/
def writeOutcome (st : Station) (pl : Plane) : PlaneOutcome × State → Bool × State
  | (.passed, s) | (.applied, s) => (false, s)
  | (.stalled c, s) => (false, s.setRun st { s.run st with stalled := (s.run st).stalled.set pl (some c) })
  | (.faulted why, s) => (true, faultSeq st (some pl) why s)

/-- The step lies within the region (R78). -/
def SeqSettings.inRegion (c : SeqSettings) (n : StepId) : Bool :=
  decide (c.regionFirst ≤ n) && decide (n ≤ c.regionLast)

/-- R109: a JUMP copy is evaluated on both planes. -/
def evalJump (st : Station) (target : StepId) (s : State) : Bool × State :=
  let c := (s.run st).copy.cond
  if holds s st c .a && holds s st c .b then
    if (s.seqCfg st).inRegion target then (false, s.setRun st { s.run st with jumpTaken := true })
    else (true, faultSeq st none .region s)
  else (false, s)

/-! ## Arrival (R83, R84) -/

def SeqRun.anyStalled (r : SeqRun) : Bool := r.stalled.a.isSome || r.stalled.b.isSome

/-- R84: the state taken after an evaluation that did not fault. -/
def settleSeq (st : Station) (s : State) : State :=
  let r := s.run st
  if r.anyStalled then (s.setRun st { r with state := .stalled }).raise (stallEvent st)
  else if r.changes.isEmpty then s.setRun st { r with state := .dwelling, dwell := 1 }
  else s.setRun st { r with state := .waiting }

/-- R83, steps 1 to 3: the copy is taken, the mark made and the group counter loaded. -/
def arriveAt (st : Station) (n : StepId) (loopback : Bool) (s : State) : State :=
  let r := s.run st
  let copy := s.step n
  let r1 : SeqRun :=
    { r with
      cursor := n, copy := copy, jumpTaken := false, applied := ⟨false, false⟩, stalled := ⟨none, none⟩
      changes := [], lastMark := if copy.mark then some n else r.lastMark
      groupCounter :=
        if decide ((s.seqCfg st).group.map Prod.fst = some n) && !loopback then (s.seqCfg st).groupCount
        else r.groupCounter }
  if copy.mark then (s.setRun st r1).raise (markEvent st) else s.setRun st r1

/-- R83, step 5: after an evaluation that faulted the sequencer nothing more is written. -/
def settleUnlessFaulted (st : Station) : Bool × State → State
  | (true, s) => s
  | (false, s) => settleSeq st s

/-- What a sequencer still has to do once plane A's call has been answered (R85, R99): the calls of another sequencer may
come before it. -/
inductive TurnRest where
  /-- nothing -/
  | over
  /-- plane B of an evaluation, and the state R84 gives -/
  | evalB
  /-- plane B of a retry, and the state R85 gives -/
  | retryB
deriving DecidableEq, Repr

/-- R83, R99: the sequencer arrives at a step and evaluates plane A of an APPLY copy; a JUMP copy makes no call and is
evaluated whole (R109). -/
def arriveA (st : Station) (n : StepId) (loopback : Bool) (s : State) : TurnRest × State :=
  let s1 := arriveAt st n loopback s
  match (s1.run st).copy.kind with
  | .jump t => (.over, settleUnlessFaulted st (evalJump st t s1))
  | .apply _ =>
    match writeOutcome st .a (evalPlane st .a s1) with
    | (true, s2) => (.over, s2)
    | (false, s2) => (.evalB, s2)

/-! ## Retries (R85, R108) -/

/-- R85: the acceptance call of one stalled plane is made again; whether the sequencer faulted. -/
def retryPlane (st : Station) (pl : Plane) (s : State) : Bool × State :=
  let r := s.run st
  match r.stalled.get pl, r.copy.field pl with
  | some call, .route x =>
    let asked := match call with
      | .makeCall => askMake st pl x s
      | .swapCall => askSwap st pl x s
    (match asked with
     | (.applied, s1) => (false, s1.setRun st { s1.run st with stalled := (s1.run st).stalled.set pl none })
     | (.faulted why, s1) => (true, faultSeq st (some pl) why s1)
     | (_, s1) => (false, s1))
  | _, _ => (false, s)

/-- R85: the state once the retries of a frame have been made. A change accepted at the retry is pending, so the state is
WAITING, where R107 has DWELLING if the other plane's change has ended (the model follows R85, log 31). -/
def afterRetry (st : Station) (s : State) : State :=
  let r := s.run st
  if r.anyStalled then s
  else if r.changes.isEmpty then s.setRun st { r with state := .dwelling, dwell := r.copyDwell }
  else s.setRun st { r with state := .waiting }

/-- R85: a STALLED sequencer retries plane A on a CADENCE frame. -/
def retryA (st : Station) (s : State) : TurnRest × State :=
  match retryPlane st .a s with
  | (true, s1) => (.over, s1)
  | (false, s1) => (.retryB, s1)

/-- R85, R99: plane B is taken, unless plane A ended the turn. -/
def finishTurn (st : Station) : TurnRest × State → State
  | (.over, s) => s
  | (.evalB, s) => settleUnlessFaulted st (writeOutcome st .b (evalPlane st .b s))
  | (.retryB, s) =>
    match retryPlane st .b s with
    | (true, s1) => s1
    | (false, s1) => afterRetry st s1

/-- R83: the sequencer arrives at a step, no other call coming between. -/
def arrive (st : Station) (n : StepId) (loopback : Bool) (s : State) : State :=
  finishTurn st (arriveA st n loopback s)

/-! ## The end of a step (R88, R89) -/

/-- R88: what the next index is found by. -/
inductive NextTest where
  | jump
  | divert
  | loopback
  | advance (wrap : Bool)
deriving DecidableEq, Repr

/-- R88: the next index, the test that gave it, and the run state the test leaves. -/
def nextIndex (c : SeqSettings) (r : SeqRun) : StepId × NextTest × SeqRun :=
  let atEnd := decide (c.group.map Prod.snd = some r.cursor)
  let advanced : StepId × NextTest × SeqRun :=
    let r1 := if atEnd && decide (r.groupCounter = 1) then { r with groupCounter := 0 } else r
    if r.cursor = c.regionLast then (c.regionFirst, .advance true, r1) else (r.cursor + 1, .advance false, r1)
  match r.copy.kind, r.jumpTaken with
  | .jump t, true => (t, .jump, r)
  | _, _ =>
    if r.copy.mark && r.divertArmed then (c.divertTarget, .divert, { r with divertArmed := false })
    else
      match c.group with
      | some (first, _) =>
        if atEnd && decide (1 < r.groupCounter) then
          (first, .loopback, { r with groupCounter := r.groupCounter - 1 })
        else advanced
      | none => advanced

/-- R88, R89: the step at the cursor ends; an arrival is taken up to plane A's answer. -/
def endStepA (st : Station) (s : State) : TurnRest × State :=
  let (n, test, r) := nextIndex (s.seqCfg st) (s.run st)
  let s1 := s.setRun st r
  let s2 := if test = .advance true then s1.raise (wrapEvent st) else s1
  if (s.seqCfg st).stop = some n then
    (.over, (s2.setRun st { s2.run st with state := .done, cursor := n }).raise (stoppedEvent st))
  else if r.copy.hold then
    (.over,
      s2.setRun st
        { s2.run st with
          state := .held, heldPhase := some .arrival, cursor := n, heldByLoopback := decide (test = .loopback) })
  else arriveA st n (decide (test = .loopback)) s2

/-- R88, R89: the step at the cursor ends. -/
def endStep (st : Station) (s : State) : State := finishTurn st (endStepA st s)

/-! ## CADENCE frames (R86, R87) -/

/-- R86: the cadence step and whether CADENCE_SLIP is raised. -/
def cadenceStep (last : Option Word16) (number : Word16) : Nat × Bool :=
  match last with
  | none => (1, false)
  | some x =>
    let d := (number - x).toNat
    if 1 ≤ d ∧ d ≤ 16 then (d, false) else (1, true)

/-- R87: one sequencer takes a CADENCE frame with cadence step `d`, up to plane A's answer. -/
def takeCadenceA (d : Nat) (st : Station) (s : State) : TurnRest × State :=
  let r := s.run st
  match r.state with
  | .dwelling =>
    let s1 := s.setRun st { r with dwell := r.dwell - d }
    if r.dwell - d = 0 then endStepA st s1 else (.over, s1)
  | .stalled => retryA st s
  | .waiting | .held | .idle | .done | .faulted => (.over, s)

/-- R87: one sequencer takes a CADENCE frame with cadence step `d`, no other call coming between. -/
def takeCadence (d : Nat) (st : Station) (s : State) : State := finishTurn st (takeCadenceA d st s)

/-! ## Running, holding, stopping (R82, R92 to R94) -/

/-- R82: the run state that SEQ_RUN sets before the arrival. -/
def SeqRun.started (r : SeqRun) (c : SeqSettings) : SeqRun :=
  { r with
    cursor := c.start, groupCounter := 0, changes := [], applied := ⟨false, false⟩, stalled := ⟨none, none⟩
    heldPhase := none, heldByLoopback := false, jumpTaken := false, dwell := 0 }

/-- R82: the sequencer starts at its start step. -/
def startSeq (st : Station) (s : State) : State :=
  let c := s.seqCfg st
  arrive st c.start false (s.setRun st ((s.run st).started c))

/-- R92: the phase a sequencer is held in. -/
def heldPhaseOf : SeqState → Option HeldPhase
  | .waiting => some .waiting
  | .dwelling => some .dwelling
  | .stalled => some .stalled
  | .idle | .held | .done | .faulted => none

/-- R93: a HELD sequencer returns to its held phase. -/
def resumeSeq (st : Station) (s : State) : State :=
  let r := s.run st
  let r1 := { r with heldPhase := none }
  match r.heldPhase with
  | some .arrival => arrive st r.cursor r.heldByLoopback (s.setRun st { r1 with heldByLoopback := false })
  | some .waiting =>
    if r.changes.isEmpty then s.setRun st { r1 with state := .dwelling, dwell := r.copyDwell }
    else s.setRun st { r1 with state := .waiting }
  | some .dwelling => s.setRun st { r1 with state := .dwelling }
  | some .stalled => s.setRun st { r1 with state := .stalled }
  | none => s

/-- R94: the entries that SEQ_STOP cancels. -/
def stoppable (st : Station) (s : State) : List Entry :=
  s.queue.filter fun e => !e.active && decide (e.origin = .sequencer st)

/-- R94: the sequencer stops. Its WAITING entries are cancelled in queue order (the model's choice, log 29). -/
def stopSeq (st : Station) (s : State) : State :=
  let s1 := cancelAll (stoppable st s) s
  s1.setRun st
    { s1.run st with
      state := .idle, changes := [], stalled := ⟨none, none⟩, heldPhase := none, divertArmed := false }

end Sys2Proof.Machine
end

