-- ==== Sys2Proof/Machine/SequencerRequests.lean ====
section
/-! DEFINITION. What the Request Unit does with the requests to a List Sequencer (05). -/

namespace Sys2Proof.Machine

/-- R81: the station field names the sequencer; any other value is refused. -/
def withStation (sf : Byte) (s : State) (f : Station → Reply × State) : Reply × State :=
  match stationOf sf with
  | some st => f st
  | none => refuse .eArg [0xFF] s

/-- R81: a request of the group that takes no parameters. -/
def withNoParams (sf : Byte) (ps : List Byte) (s : State) (f : Station → Reply × State) : Reply × State :=
  withStation sf s fun st => if ps.length ≠ 0 then refuse .eArg [0xFF] s else f st

/-- R81: the sequencer's state and cursor. -/
def seqReport (st : Station) (s : State) : List Byte :=
  [seqStateByte (s.run st).state] ++ bytes2 (s.run st).cursor.1

/-- R81: the request is taken; the answer is the state and cursor after it. -/
def reportSeq (st : Station) (s : State) : Reply × State := settleRequest (answer (seqReport st s) s)

/-- The state does not admit the request: E_STATE with the state. -/
def refuseSeqState (st : Station) (s : State) : Reply × State :=
  refuse .eState [seqStateByte (s.run st).state] s

/-- The sequencer is in IDLE, DONE or FAULTED. -/
def SeqState.stopped : SeqState → Bool
  | .idle | .done | .faulted => true
  | .waiting | .dwelling | .stalled | .held => false

/-- R79: the settings are written and the sequencer becomes IDLE at its start. -/
def writeSeqSettings (st : Station) (c : SeqSettings) (s : State) : State :=
  let s1 := s.setSeqCfg st c
  s1.setRun st { s1.run st with state := .idle, cursor := c.start, groupCounter := 0, changes := [] }

/-- R79: SET_SEQUENCER. -/
def setSequencerUnit (sf : Byte) (ps : List Byte) (s : State) : Reply × State :=
  withStation sf s fun st =>
    if !(s.run st).state.stopped then refuseSeqState st s
    else
      match seqParamsFault ps with
      | some n => refuse .eArg [byteOf n] s
      | none => answer [] (writeSeqSettings st (seqSettingsOf ps) s)

/-- R98: READ_SEQUENCER. -/
def readSequencerUnit (sf : Byte) (ps : List Byte) (s : State) : Reply × State :=
  withNoParams sf ps s fun st => answer (sequencerBytes (s.seq st)) s

/-- R81, R82: SEQ_RUN. -/
def seqRunUnit (sf : Byte) (ps : List Byte) (s : State) : Reply × State :=
  withNoParams sf ps s fun st =>
    if !s.isNormal then refuse .eSafe [] s
    else if !(s.run st).state.stopped then refuseSeqState st s
    else reportSeq st (startSeq st s)

/-- R92: SEQ_HOLD. -/
def seqHoldUnit (sf : Byte) (ps : List Byte) (s : State) : Reply × State :=
  withNoParams sf ps s fun st =>
    match heldPhaseOf (s.run st).state with
    | some h => reportSeq st (s.setRun st { s.run st with state := .held, heldPhase := some h })
    | none => refuseSeqState st s

/-- R93: SEQ_RESUME. -/
def seqResumeUnit (sf : Byte) (ps : List Byte) (s : State) : Reply × State :=
  withNoParams sf ps s fun st =>
    if (s.run st).state = .held then reportSeq st (resumeSeq st s) else refuseSeqState st s

/-- R94: SEQ_STOP. -/
def seqStopUnit (sf : Byte) (ps : List Byte) (s : State) : Reply × State :=
  withNoParams sf ps s fun st =>
    settleRequest (answer [byteOf (stoppable st s).length] (stopSeq st s))

/-- R91: ARM_DIVERT. -/
def armDivertUnit (sf : Byte) (ps : List Byte) (s : State) : Reply × State :=
  withNoParams sf ps s fun st => reportSeq st (s.setRun st { s.run st with divertArmed := true })

end Sys2Proof.Machine
end

