-- ==== Sys2Proof/Machine/RingFrames.lean ====
section
/-! DEFINITION. The Ring Interface (10): the bytes of a frame and its check, taking and forwarding a frame, and the
REQUEST, CADENCE, window and ENUMERATE frames. -/

namespace Sys2Proof.Machine

/-! ## Bytes of a frame (R149, R151) -/

/-- R151: one bit of the check: the generator 1021H, most significant bit first. -/
def crcBit (r : Word16) : Word16 := if r.getLsbD 15 then (r <<< 1) ^^^ 0x1021 else r <<< 1

/-- R151: one byte enters the check. -/
def crcByte (r : Word16) (b : Byte) : Word16 :=
  (List.range 8).foldl (fun x _ => crcBit x) (r ^^^ (b.setWidth 16 <<< 8))

/-- R151: the check over a list of bytes. -/
def crc (bytes : List Byte) : Word16 := bytes.foldl crcByte 0xFFFF

/-- The two bytes of a two-byte value, most significant first (R149). -/
def wordBytes (w : Word16) : List Byte := bytes2 w.toNat

/-- The value of two bytes. -/
def wordOf (hi lo : Byte) : Word16 := hi ++ lo

/-- The kinds of frame (R149). -/
inductive FrameKind where
  | cadence
  | windowOpen
  | windowShut
  | request
  | enumerate
deriving DecidableEq, Repr

def FrameKind.code : FrameKind → BitVec 4
  | .cadence => 1
  | .windowOpen => 2
  | .windowShut => 3
  | .request => 4
  | .enumerate => 5

/-- R149: the bytes of a frame: header, payload and check. -/
def frameBytes (k : FrameKind) (h : Header) (payload : List Byte) : List Byte :=
  let body := [k.code ++ h.hop, 0#4 ++ h.dest, h.tag, byteOf payload.length] ++ payload
  body ++ wordBytes (crc body)

/-- R152: the header of a frame acted on: hop count + 1, saturating at 15. -/
def hopped (h : Header) : Header := { h with hop := if h.hop = 15 then 15 else h.hop + 1 }

/-- R149: the payload of a REQUEST. -/
def requestPayload (code : Byte) (f : Request) : List Byte :=
  [f.station, code, byteOf f.params.length] ++ f.params ++ [f.status, byteOf f.resp.length] ++ f.resp

def requestFrame (code : Byte) (f : Request) : List Byte := frameBytes .request f.hdr (requestPayload code f)

def cadenceBytes (f : CadenceFrame) : List Byte :=
  frameBytes .cadence f.hdr (wordBytes f.number ++ [f.gates] ++ wordBytes f.settle ++ wordBytes f.attention)

def windowOpenBytes (h : Header) (tag planes : Byte) (budget : Word16) : List Byte :=
  frameBytes .windowOpen h ([tag, planes] ++ wordBytes budget)

def windowShutBytes (h : Header) (tag : Byte) : List Byte := frameBytes .windowShut h [tag]

def enumerateBytes (h : Header) (next flags : Byte) : List Byte := frameBytes .enumerate h [next, flags]

/-! ## Taking and forwarding (R150, R152, R160) -/

/-- R150, R152: the bad-frame count goes up by 1, saturating at 255, and RING_ERROR is raised. -/
def countBad (s : State) : State :=
  (s.setRing { s.ring with badFrames := min 255 (s.ring.badFrames + 1) }).raise .ringError

/-- R152: the frame joins the tail of the forward list. -/
def forwardFrame (bytes : List Byte) (s : State) : State :=
  s.setRing { s.ring with forward := s.ring.forward ++ [bytes] }

/-- R160: the keepalive timer restarts at the period that stands; it runs only on an addressed node with a period. -/
def restartKeepalive (s : State) : State :=
  s.setRing
    { s.ring with
      keepalive :=
        if s.ring.address.isSome ∧ s.settings.keepalivePeriod ≠ 0 then
          some (s.settings.keepalivePeriod * Config.ticksPerMs)
        else none }

/-- R152, R160: the node has finished with a frame whose check was good. -/
def finishFrame (bytes : List Byte) (s : State) : State := forwardFrame bytes (restartKeepalive s)

/-- R150, tests 1 and 2: a bad frame that does not restart the keepalive timer. -/
def dropBad (bytes : List Byte) (s : State) : State := forwardFrame bytes (countBad s)

/-- R150, tests 4 and 5: a bad frame whose check was good. -/
def noteBad (bytes : List Byte) (s : State) : State := finishFrame bytes (countBad s)

/-- R152: a frame that ends while the forward list is full is lost; any other is taken by `f`. -/
def receive (f : State → State) (s : State) : State :=
  if Config.forwardCapacity ≤ s.ring.forward.length then countBad s else f s

/-! ## Requests (R153, R156, R157) -/

/-- R157: the codes executed under destination 0. -/
def broadcastCodes : List Byte := [0x03, 0x51, 0x60, 0x61, 0x62, 0x63]

/-- Bit `n` of a map is written. -/
def writeBit (m : Word16) (n : Nat) (v : Bool) : Word16 :=
  if v then m ||| (1#16 <<< n) else m &&& ~~~(1#16 <<< n)

/-- R157: the node's own bit of the ack map is written. -/
def ackMap (resp : List Byte) (a : BitVec 4) (v : Bool) : List Byte :=
  wordBytes (writeBit (wordOf (resp.getD 0 0) (resp.getD 1 0)) a.toNat v)

/-- The frame as a node that acted on it forwards it, with the response data `resp` and status `st`. -/
def forwardedRequest (f : Request) (st : Byte) (resp : List Byte) : Request :=
  { f with hdr := hopped f.hdr, status := st, resp := resp }

/-- R157: a good REQUEST with destination 0 at the node with address `a`. -/
def takeBroadcast (code : Byte) (u : RequestUnit) (f : Request) (a : BitVec 4) (s : State) : State :=
  if broadcastCodes.contains code then
    let x := u f.station f.params s
    finishFrame (requestFrame code (forwardedRequest f f.status (ackMap f.resp a (decide (x.1.status = .ok))))) x.2
  else finishFrame (requestFrame code (forwardedRequest f f.status (ackMap f.resp a false))) s

/-- R156: a good REQUEST to the node's address. -/
def takeAddressed (code : Byte) (u : RequestUnit) (f : Request) (s : State) : State :=
  if f.status = notTaken then
    let x := u f.station f.params s
    finishFrame (requestFrame code (forwardedRequest f x.1.status.code x.1.data)) x.2
  else finishFrame (requestFrame code (forwardedRequest f f.status f.resp)) (s.raise .addressClash)

/-- R150 test 5, R153: a REQUEST that passes the tests of R150 up to its layout. -/
def deliverRequest (code : Byte) (u : RequestUnit) (f : Request) (s : State) : State :=
  match s.ring.address with
  | none => finishFrame (requestFrame code f) s
  | some a =>
    if f.hdr.dest = 0 then
      if f.resp.length ≠ 2 then noteBad (requestFrame code f) s else takeBroadcast code u f a s
    else if f.hdr.dest = a then takeAddressed code u f s
    else finishFrame (requestFrame code (forwardedRequest f f.status f.resp)) s

/-- R150, R152: a REQUEST row as the part takes it; sizes that no frame has fail test 1 or test 4 (log 9). -/
def takeRequest (code : Byte) (u : RequestUnit) (f : Request) : State → State :=
  receive fun s =>
    if 120 < (requestPayload code f).length then dropBad (requestFrame code f) s
    else if !f.wellFormed then noteBad (requestFrame code f) s
    else deliverRequest code u f s

/-- R161: the request code table. -/
def requestTable : List (Byte × RequestUnit) :=
  [(0x01, identUnit), (0x02, getSettingsUnit), (0x03, setSettingsUnit)] ++
  [(0x10, loadBankUnit), (0x11, readBankUnit), (0x12, loadRouteUnit), (0x13, readRouteUnit)] ++
  [(0x14, loadStepsUnit), (0x15, readStepsUnit)] ++
  [(0x20, openPathUnit), (0x21, closePathUnit), (0x22, swapPathUnit), (0x23, cancelChangeUnit)] ++
  [(0x24, readPathsUnit), (0x25, readQueueUnit)] ++
  [(0x30, setSequencerUnit), (0x31, readSequencerUnit), (0x32, seqRunUnit), (0x33, seqHoldUnit)] ++
  [(0x34, seqResumeUnit), (0x35, seqStopUnit), (0x36, armDivertUnit)] ++
  [(0x40, claimUnit), (0x41, releaseUnit), (0x42, readClaimsUnit)] ++
  [(0x50, readEventsUnit), (0x51, clearEventsUnit), (0x52, readFaultsUnit), (0x53, clearFaultsUnit)] ++
  [(0x60, safeEnterUnit), (0x61, safeExitUnit), (0x62, nodeResetUnit), (0x63, forgetUnit)]

/-- R161, test 1: an unknown code is refused with E_UNKNOWN and no data. -/
def unknownUnit (_ : Byte) (_ : List Byte) (s : State) : Reply × State := refuse .eUnknown [] s

/-- R161: the execution of a code. -/
def unitOf (code : Byte) : RequestUnit := (requestTable.lookup code).getD unknownUnit

/-! ## CADENCE (R158, R159) -/

/-- R158, steps 1 and 2. -/
def recordCadence (f : CadenceFrame) (slip : Bool) (s : State) : State :=
  let s1 := if slip then s.raise .cadenceSlip else s
  s1.setRing { s1.ring with lastCadence := some f.number, gates := f.gates.setWidth 4 }

/-- R158, step 3: the points a CADENCE frame passes as the two sequencers take it, in order: the state before, the state
after each sequencer's plane A and plane B in the order `x` gives (R85, R99), and the state once the drivers have chosen
what the calls bring. The drivers choose when no sequencer is between its two planes (log 10). -/
def cadencePoints (d : Nat) (x : Arb) (s : State) : List State :=
  let p : Station := if x.seq2First then .s2 else .s1
  let q : Station := if x.seq2First then .s1 else .s2
  let pA := takeCadenceA d p s
  match x.weave with
  | .apart =>
    let pB := finishTurn p pA
    let qA := takeCadenceA d q (react pB)
    let qB := finishTurn q qA
    [s, pA.2, pB, react pB, qA.2, qB, react qB]
  | .within =>
    let qA := takeCadenceA d q pA.2
    let qB := finishTurn q qA
    let pB := finishTurn p (pA.1, qB)
    [s, pA.2, qA.2, qB, pB, react pB]
  | .crossed =>
    let qA := takeCadenceA d q pA.2
    let pB := finishTurn p (pA.1, qA.2)
    let qB := finishTurn q (qA.1, pB)
    [s, pA.2, qA.2, pB, qB, react qB]

/-- R159: the frame with the node's bits of address `a`, read at state `s` of a frame that ends at state `t`: each bit
shows `s`, and the attention bit every event that the frame itself raises (R170, log 20). -/
def markedCadence (f : CadenceFrame) (a : BitVec 4) (s t : State) : CadenceFrame :=
  { f with
    hdr := hopped f.hdr
    settle := writeBit f.settle a.toNat s.settled
    attention := writeBit f.attention a.toNat (s.attention || t.frameAttention) }

/-- R158, steps 3 and 4: the frame is delivered and the bits are written. Which of the acceptances made on the frame, and
of what they bring, come before the bits is free (log 3). The frame as written, and the state. -/
def cadenceTurns (f : CadenceFrame) (a : BitVec 4) (d : Nat) (x : Arb) (s : State) : CadenceFrame × State :=
  let points := cadencePoints d x s
  let t := points.getLastD s
  (markedCadence f a (points.getD (x.bits % points.length) s) t, t)

/-- R153, R158: a good CADENCE frame. -/
def deliverCadence (f : CadenceFrame) (s : State) : State :=
  match s.ring.address with
  | none => finishFrame (cadenceBytes f) s
  | some a =>
    let (d, slip) := cadenceStep s.ring.lastCadence f.number
    let x := cadenceTurns f a d s.arb (recordCadence f slip s.redraw)
    finishFrame (cadenceBytes x.1) x.2

/-! ## Windows (R42, R43, R45) -/

/-- R42: the payload fields are malformed. -/
def windowOpenBad (planes : Byte) (budget : Word16) : Bool :=
  decide (planes = 0) || decide (3 < planes.toNat) || decide (budget = 0) || decide (4095 < budget.toNat)

/-- R43: each tracker named opens. -/
def openNamed (tag planes : Byte) (budget : Word16) (s : State) : State :=
  if planes = 1 then openWindow tag budget.toNat .a s
  else if planes = 2 then openWindow tag budget.toNat .b s
  else eachPlane (openWindow tag budget.toNat) s

/-- R42, R153: a WINDOW_OPEN that passes the tests of R150 up to its layout. -/
def deliverWindowOpen (h : Header) (tag planes : Byte) (budget : Word16) (s : State) : State :=
  match s.ring.address with
  | none => finishFrame (windowOpenBytes h tag planes budget) s
  | some _ =>
    if windowOpenBad planes budget then noteBad (windowOpenBytes h tag planes budget) s
    else finishFrame (windowOpenBytes (hopped h) tag planes budget) (openNamed tag planes budget s)

/-- R45, R153: a good WINDOW_SHUT. -/
def deliverWindowShut (h : Header) (tag : Byte) (s : State) : State :=
  match s.ring.address with
  | none => finishFrame (windowShutBytes h tag) s
  | some _ => finishFrame (windowShutBytes (hopped h) tag) (eachPlane (shutWindow tag) s)

/-! ## ENUMERATE (R154) -/

/-- R150 test 5, R153, R154: an ENUMERATE that passes the tests of R150 up to its layout. -/
def deliverEnumerate (h : Header) (next flags : Byte) (s : State) : State :=
  match s.ring.address with
  | some _ => finishFrame (enumerateBytes h next flags) s
  | none =>
    if next = 0 then noteBad (enumerateBytes h next flags) s
    else if next.toNat ≤ 15 then
      finishFrame (enumerateBytes (hopped h) (next + 1) flags)
        (s.setRing { s.ring with address := some (next.setWidth 4) })
    else finishFrame (enumerateBytes (hopped h) next (flags ||| 1)) s

/-! ## Frames given as bytes (R150) -/

/-- The payload length field of a frame. -/
def payloadLength (bytes : List Byte) : Nat := val1 bytes 3

/-- R150, test 1. -/
def sizeGood (bytes : List Byte) : Bool :=
  decide (6 ≤ bytes.length) && decide (bytes.length ≤ 126) && decide (payloadLength bytes ≤ 120) &&
    decide (bytes.length = 6 + payloadLength bytes)

/-- R150, test 2. -/
def checkGood (bytes : List Byte) : Bool :=
  let n := bytes.length - 2
  decide (wordBytes (crc (bytes.take n)) = bytes.drop n)

/-- The header fields of a frame. -/
def headerOf (bytes : List Byte) : Header :=
  { hop := (bytes.getD 0 0).setWidth 4, dest := (bytes.getD 1 0).setWidth 4, tag := bytes.getD 2 0 }

/-- The payload of a frame. -/
def payloadOf (bytes : List Byte) : List Byte := (bytes.drop 4).take (payloadLength bytes)

/-- R150, test 4, for the payload of a REQUEST. -/
def requestLayoutGood (p : List Byte) : Bool :=
  decide (5 ≤ p.length) && decide (val1 p 2 ≤ 56) && decide (val1 p (4 + val1 p 2) ≤ 56) &&
    decide (p.length = 5 + val1 p 2 + val1 p (4 + val1 p 2))

/-- The fields of the payload of a REQUEST (R149). -/
def requestOf (h : Header) (p : List Byte) : Request :=
  let n := val1 p 2
  { hdr := h, station := p.getD 0 0, params := (p.drop 3).take n, status := p.getD (3 + n) 0, resp := p.drop (5 + n) }

/-- R150, test 4, the first part: bits 7..4 of byte 1 are zero. -/
def upperZero (bytes : List Byte) : Bool := decide (val1 bytes 1 < 16)

/-- R150, tests 3 to 5: a frame with a good size and check, by its kind. -/
def deliverBytes (bytes : List Byte) (s : State) : State :=
  let h := headerOf bytes
  let p := payloadOf bytes
  match val1 bytes 0 / 16 with
  | 1 =>
    if upperZero bytes ∧ p.length = 7 then
      deliverCadence
        { hdr := h, number := wordOf (p.getD 0 0) (p.getD 1 0), gates := p.getD 2 0,
          settle := wordOf (p.getD 3 0) (p.getD 4 0), attention := wordOf (p.getD 5 0) (p.getD 6 0) } s
    else noteBad bytes s
  | 2 =>
    if upperZero bytes ∧ p.length = 4 then
      deliverWindowOpen h (p.getD 0 0) (p.getD 1 0) (wordOf (p.getD 2 0) (p.getD 3 0)) s
    else noteBad bytes s
  | 3 => if upperZero bytes ∧ p.length = 1 then deliverWindowShut h (p.getD 0 0) s else noteBad bytes s
  | 4 =>
    if upperZero bytes && requestLayoutGood p then
      deliverRequest (p.getD 1 0) (unitOf (p.getD 1 0)) (requestOf h p) s
    else noteBad bytes s
  | 5 =>
    if upperZero bytes ∧ p.length = 2 then deliverEnumerate h (p.getD 0 0) (p.getD 1 0) s else noteBad bytes s
  | _ => finishFrame bytes s

/-- R150: a whole frame has arrived on ring-in. -/
def receiveBytes (bytes : List Byte) : State → State :=
  receive fun s => if sizeGood bytes && checkGood bytes then deliverBytes bytes s else dropBad bytes s

end Sys2Proof.Machine
end

