-- ==== Sys2Proof/Machine/RequestCommands.lean ====
section
/-! DEFINITION. The meaning of each REQUEST row of the opcode table: the frame is taken from ring-in (R150 to R157),
the request executed where it is for this node (R161), and the frame forwarded. -/

namespace Sys2Proof.Machine

/-- One command: its effect unless the part is held in reset (log 7), and the outputs that follow (log 18). -/
def perform (f : State → State) (s : State) : Host.Outcome State Fault Refusal :=
  .next (if s.inReset then s else f s).driveOutputs

/-- IDENT (01H), R162. -/
def execIdent (f : Request) (s : State) : Host.Outcome State Fault Refusal :=
  perform (takeRequest 0x01 identUnit f) s

/-- GET_SETTINGS (02H), R165. -/
def execGetSettings (f : Request) (s : State) : Host.Outcome State Fault Refusal :=
  perform (takeRequest 0x02 getSettingsUnit f) s

/-- SET_SETTINGS (03H), R164. -/
def execSetSettings (f : Request) (s : State) : Host.Outcome State Fault Refusal :=
  perform (takeRequest 0x03 setSettingsUnit f) s

/-- LOAD_BANK (10H), R4. -/
def execLoadBank (f : Request) (s : State) : Host.Outcome State Fault Refusal :=
  perform (takeRequest 0x10 loadBankUnit f) s

/-- READ_BANK (11H), R13. -/
def execReadBank (f : Request) (s : State) : Host.Outcome State Fault Refusal :=
  perform (takeRequest 0x11 readBankUnit f) s

/-- LOAD_ROUTE (12H), R15. -/
def execLoadRoute (f : Request) (s : State) : Host.Outcome State Fault Refusal :=
  perform (takeRequest 0x12 loadRouteUnit f) s

/-- READ_ROUTE (13H), R18. -/
def execReadRoute (f : Request) (s : State) : Host.Outcome State Fault Refusal :=
  perform (takeRequest 0x13 readRouteUnit f) s

/-- LOAD_STEPS (14H), R76. -/
def execLoadSteps (f : Request) (s : State) : Host.Outcome State Fault Refusal :=
  perform (takeRequest 0x14 loadStepsUnit f) s

/-- READ_STEPS (15H), R77. -/
def execReadSteps (f : Request) (s : State) : Host.Outcome State Fault Refusal :=
  perform (takeRequest 0x15 readStepsUnit f) s

/-- OPEN_PATH (20H), R22. -/
def execOpenPath (f : Request) (s : State) : Host.Outcome State Fault Refusal :=
  perform (takeRequest 0x20 openPathUnit f) s

/-- CLOSE_PATH (21H), R36. -/
def execClosePath (f : Request) (s : State) : Host.Outcome State Fault Refusal :=
  perform (takeRequest 0x21 closePathUnit f) s

/-- SWAP_PATH (22H), R26. -/
def execSwapPath (f : Request) (s : State) : Host.Outcome State Fault Refusal :=
  perform (takeRequest 0x22 swapPathUnit f) s

/-- CANCEL_CHANGE (23H), R37. -/
def execCancelChange (f : Request) (s : State) : Host.Outcome State Fault Refusal :=
  perform (takeRequest 0x23 cancelChangeUnit f) s

/-- READ_PATHS (24H), R40. -/
def execReadPaths (f : Request) (s : State) : Host.Outcome State Fault Refusal :=
  perform (takeRequest 0x24 readPathsUnit f) s

/-- READ_QUEUE (25H), R74. -/
def execReadQueue (f : Request) (s : State) : Host.Outcome State Fault Refusal :=
  perform (takeRequest 0x25 readQueueUnit f) s

/-- SET_SEQUENCER (30H), R79. -/
def execSetSequencer (f : Request) (s : State) : Host.Outcome State Fault Refusal :=
  perform (takeRequest 0x30 setSequencerUnit f) s

/-- READ_SEQUENCER (31H), R98. -/
def execReadSequencer (f : Request) (s : State) : Host.Outcome State Fault Refusal :=
  perform (takeRequest 0x31 readSequencerUnit f) s

/-- SEQ_RUN (32H), R82. -/
def execSeqRun (f : Request) (s : State) : Host.Outcome State Fault Refusal :=
  perform (takeRequest 0x32 seqRunUnit f) s

/-- SEQ_HOLD (33H), R92. -/
def execSeqHold (f : Request) (s : State) : Host.Outcome State Fault Refusal :=
  perform (takeRequest 0x33 seqHoldUnit f) s

/-- SEQ_RESUME (34H), R93. -/
def execSeqResume (f : Request) (s : State) : Host.Outcome State Fault Refusal :=
  perform (takeRequest 0x34 seqResumeUnit f) s

/-- SEQ_STOP (35H), R94. -/
def execSeqStop (f : Request) (s : State) : Host.Outcome State Fault Refusal :=
  perform (takeRequest 0x35 seqStopUnit f) s

/-- ARM_DIVERT (36H), R91. -/
def execArmDivert (f : Request) (s : State) : Host.Outcome State Fault Refusal :=
  perform (takeRequest 0x36 armDivertUnit f) s

/-- CLAIM (40H), R112. -/
def execClaim (f : Request) (s : State) : Host.Outcome State Fault Refusal :=
  perform (takeRequest 0x40 claimUnit f) s

/-- RELEASE (41H), R113. -/
def execRelease (f : Request) (s : State) : Host.Outcome State Fault Refusal :=
  perform (takeRequest 0x41 releaseUnit f) s

/-- READ_CLAIMS (42H), R115. -/
def execReadClaims (f : Request) (s : State) : Host.Outcome State Fault Refusal :=
  perform (takeRequest 0x42 readClaimsUnit f) s

/-- READ_EVENTS (50H), R168. -/
def execReadEvents (f : Request) (s : State) : Host.Outcome State Fault Refusal :=
  perform (takeRequest 0x50 readEventsUnit f) s

/-- CLEAR_EVENTS (51H), R169. -/
def execClearEvents (f : Request) (s : State) : Host.Outcome State Fault Refusal :=
  perform (takeRequest 0x51 clearEventsUnit f) s

/-- READ_FAULTS (52H), R137. -/
def execReadFaults (f : Request) (s : State) : Host.Outcome State Fault Refusal :=
  perform (takeRequest 0x52 readFaultsUnit f) s

/-- CLEAR_FAULTS (53H), R131. -/
def execClearFaults (f : Request) (s : State) : Host.Outcome State Fault Refusal :=
  perform (takeRequest 0x53 clearFaultsUnit f) s

/-- SAFE_ENTER (60H), R145. -/
def execSafeEnter (f : Request) (s : State) : Host.Outcome State Fault Refusal :=
  perform (takeRequest 0x60 safeEnterUnit f) s

/-- SAFE_EXIT (61H), R146. -/
def execSafeExit (f : Request) (s : State) : Host.Outcome State Fault Refusal :=
  perform (takeRequest 0x61 safeExitUnit f) s

/-- NODE_RESET (62H), R147. -/
def execNodeReset (f : Request) (s : State) : Host.Outcome State Fault Refusal :=
  perform (takeRequest 0x62 nodeResetUnit f) s

/-- FORGET (63H), R155. -/
def execForget (f : Request) (s : State) : Host.Outcome State Fault Refusal :=
  perform (takeRequest 0x63 forgetUnit f) s

/-- E_UNKNOWN, R161: a code that is not in the table. -/
def execEUnknown (code : Byte) (f : Request) (s : State) : Host.Outcome State Fault Refusal :=
  perform (takeRequest code (unitOf code) f) s

/-- REQUEST_OTHER_DESTINATION, R153. -/
def execRequestOtherDestination (code : Byte) (f : Request) (s : State) : Host.Outcome State Fault Refusal :=
  perform (takeRequest code (unitOf code) f) s

/-- ADDRESS_CLASH, R156. -/
def execAddressClash (code : Byte) (f : Request) (s : State) : Host.Outcome State Fault Refusal :=
  perform (takeRequest code (unitOf code) f) s

end Sys2Proof.Machine
end

