-- ==== Sys2Proof/Machine/Events.lean ====
section
/-! DEFINITION. The meaning of the rows that are not frames: the ends of timers (R31, R44, R64, R73, R116, R123, R124,
R141, R160), the chamber inputs (R116 to R121, R139) and hardware reset (R2). A timer end that comes while its timer
still runs first lets the time left pass; with the timer stopped it has no effect (log 2). -/

namespace Sys2Proof.Machine

/-! ## Windows and drivers -/

/-- R44: the budget end of one tracker. -/
def budgetEnd (p : Plane) (s : State) : State :=
  if (s.tracker p).isOpen && !(s.tracker p).closingHeld then closeWindow p (s.elapse (s.tracker p).timeLeft) else s

/-- WINDOW_BUDGET_END, R44. -/
def execWindowBudgetEnd (p : Plane) (s : State) : Host.Outcome State Fault Refusal := perform (budgetEnd p) s

/-- R64: the drive end of one driver. -/
def driveEnd (p : Plane) (s : State) : State :=
  if (s.driver p).phase = .driving then endDrive p (s.elapse (s.driver p).left) else s

/-- LEG_DRIVE_END, R64. -/
def execLegDriveEnd (p : Plane) (s : State) : Host.Outcome State Fault Refusal := perform (driveEnd p) s

/-- R64: the settle end of one driver, and its readback. -/
def settleEnd (p : Plane) (s : State) : State :=
  if (s.driver p).phase = .settling then takeReadback p (s.elapse (s.driver p).left) else s

/-- LEG_READBACK, R64. -/
def execLegReadback (p : Plane) (s : State) : Host.Outcome State Fault Refusal := perform (settleEnd p) s

/-- R73: the end of one driver's forced pause. -/
def pauseEnd (p : Plane) (s : State) : State :=
  match (s.driver p).pause with
  | some x => endPause p (s.elapse x.left)
  | none => s

/-- FORCED_PAUSE_END, R73. -/
def execForcedPauseEnd (p : Plane) (s : State) : Host.Outcome State Fault Refusal := perform (pauseEnd p) s

/-! ## Paths, grace, keepalive -/

/-- R31: the end of one slot's settle timer. -/
def settleTimerEnd (p : Slot) (s : State) : State :=
  match (s.path p).settleTimer with
  | some n =>
    let s1 := s.elapse n
    if (s.path p).state = .settling then goLive p s1 else s1.setPath p { s1.path p with settleTimer := none }
  | none => s

/-- PATH_SETTLE_TIMER_END, R31. -/
def execPathSettleTimerEnd (p : Slot) (s : State) : Host.Outcome State Fault Refusal := perform (settleTimerEnd p) s

/-- R141: the grace timer ends. -/
def graceTimerEnd (s : State) : State :=
  match s.safe.grace with
  | some n =>
    let s1 := s.elapse n
    if s.safe.state = .grace then settleTeardown (s1.setSafe { s1.safe with state := .teardown, grace := none })
    else s1.setSafe { s1.safe with grace := none }
  | none => s

/-- GRACE_END, R141. -/
def execGraceEnd (s : State) : Host.Outcome State Fault Refusal := perform graceTimerEnd s

/-- R160: the keepalive timer expires. -/
def keepaliveEnd (s : State) : State :=
  match s.ring.keepalive with
  | some n =>
    let s1 := s.elapse n
    addCause .keepalive (s1.setRing { s1.ring with keepalive := none })
  | none => s

/-- KEEPALIVE_EXPIRY, R160. -/
def execKeepaliveExpiry (s : State) : Host.Outcome State Fault Refusal := perform keepaliveEnd s

/-! ## Visits -/

/-- R123: the interval timer reaches the interval with no cycle under way. -/
def intervalEnd (s : State) : State :=
  if s.sup.cycle = .waiting ∧ s.sup.running ∧ s.settings.interval ≠ 0 then
    startCycle (s.elapse (s.settings.interval * Config.ticksPerMs - s.sup.elapsed))
  else s

/-- VISIT_CYCLE_START, R123. -/
def execVisitCycleStart (s : State) : Host.Outcome State Fault Refusal := perform intervalEnd s

/-- R124: the visit under way ends. -/
def visitTimeEnd (s : State) : State :=
  match s.sup.visit with
  | some v => endVisit (s.elapse v.left)
  | none => s

/-- VISIT_END, R124. -/
def execVisitEnd (s : State) : Host.Outcome State Fault Refusal := perform visitTimeEnd s

/-! ## Seats and door (R116 to R121, R139) -/

/-- R116: the input now stands at `level`. -/
def DebouncedInput.setLevel (x : DebouncedInput) (level : Bool) : DebouncedInput :=
  if x.level = level then x
  else { x with level := level, timer := if level = x.debounced then none else some Config.debounceTicks }

/-- R116: the debounced state takes the level, and the timer stops. -/
def DebouncedInput.settleLevel (x : DebouncedInput) : DebouncedInput :=
  { x with debounced := x.level, timer := none }

def State.setSeat (s : State) (n : FixtureId) (x : DebouncedInput) : State :=
  { s with chamber := { s.chamber with seats := s.chamber.seats.set n.1 x n.2 } }

def State.setDoor (s : State) (x : DebouncedInput) : State := { s with chamber := { s.chamber with door := x } }

/-- R116: a level change of one input. -/
def changeLevel (i : ChamberInput) (closed : Bool) (s : State) : State :=
  match i with
  | .seat n => s.setSeat n ((s.chamber.seats.get n).setLevel closed)
  | .door => s.setDoor (s.chamber.door.setLevel closed)

/-- In reset no timer runs: the input only takes its level (log 7). -/
def holdLevel (i : ChamberInput) (closed : Bool) (s : State) : State :=
  match i with
  | .seat n => s.setSeat n { s.chamber.seats.get n with level := closed }
  | .door => s.setDoor { s.chamber.door with level := closed }

/-- INPUT_LEVEL_CHANGE, R116. -/
def execInputLevelChange (i : ChamberInput) (closed : Bool) (s : State) : Host.Outcome State Fault Refusal :=
  .next (if s.inReset then holdLevel i closed s else changeLevel i closed s).driveOutputs

/-- R116, R139: the DOOR debounce timer ends. -/
def doorDebounced (s : State) : State :=
  match s.chamber.door.timer with
  | some n =>
    let s1 := s.elapse n
    let x := s1.chamber.door.settleLevel
    let s2 := s1.setDoor x
    if x.debounced then removeCause .door s2 else addCause .door s2
  | none => s

/-- DOOR_DEBOUNCED_CHANGE, R116, R139. -/
def execDoorDebouncedChange (s : State) : Host.Outcome State Fault Refusal := perform doorDebounced s

/-- R118: the WAITING entries whose new slot's route ends at the port. -/
def lostEntries (n : FixtureId) (s : State) : List Entry :=
  s.queue.filter fun e => !e.active &&
    match e.new with
    | some p => s.slotEndsAt p n
    | none => false

/-- A map with bit n for each slot of the list. -/
def slotsMap (ps : List Slot) : BitVec 16 := slotMap fun p => ps.contains p

/-- R119: the slots the unseat of the port makes FAILED. -/
def lostSlots (n : FixtureId) (s : State) : List Slot :=
  allSlots.filter fun p => s.slotEndsAt p n &&
    (decide ((s.path p).state = .forming) || decide ((s.path p).state = .settling) ||
      decide ((s.path p).state = .live))

/-- R119: one path whose fixture is lost. -/
def loseFixture (p : Slot) (s : State) : State :=
  let s1 := failSlot p .fixtureLost s
  if !s.isNormal then s1
  else if (s.path p).state = .forming then
    s1.setPath p
      { s1.path p with
        closeOwed := true, closeOwedCause := (s1.path p).closeOwedCause.or (some .fixtureLoss) }
  else acceptBreak p .part (some .failed) s1

/-- R121: the last fixture change record and FIXTURE. -/
def noteFixture (x : FixtureChange) (s : State) : State :=
  State.raise { s with events := { s.events with lastFixture := some x } } .fixture

/-- R118, R119, R121: fixture port `n` is unseated. -/
def unseat (n : FixtureId) (s : State) : State :=
  let es := lostEntries n s
  let s1 := cancelAll es s
  let ps := lostSlots n s1
  let s2 := ps.foldl (fun t p => loseFixture p t) s1
  noteFixture
    { fixture := n, seated := false, failedSlots := slotsMap ps, cancelledSlots := slotsMap (es.filterMap Entry.new) }
    s2

/-- R120, R121: fixture port `n` is seated. -/
def seat (n : FixtureId) (s : State) : State :=
  noteFixture { fixture := n, seated := true, failedSlots := 0, cancelledSlots := 0 } s

/-- R116, R118 to R121: a seat debounce timer ends. -/
def seatDebounced (n : FixtureId) (s : State) : State :=
  match (s.chamber.seats.get n).timer with
  | some k =>
    let s1 := s.elapse k
    let x := (s1.chamber.seats.get n).settleLevel
    let s2 := s1.setSeat n x
    if x.debounced then seat n s2 else react (unseat n s2)
  | none => s

/-- SEAT_DEBOUNCED_CHANGE, R118 to R121. -/
def execSeatDebouncedChange (n : FixtureId) (s : State) : Host.Outcome State Fault Refusal :=
  perform (seatDebounced n) s

/-! ## Hardware reset -/

/-- R116: every debounced state takes the level of its input. -/
def ChamberLines.sampled (c : ChamberLines) : ChamberLines :=
  { c with seats := c.seats.map DebouncedInput.settleLevel, door := c.door.settleLevel }

/-- R2 and the hardware reset values of every block; the pins, the free orders and the queue are not the reset's. -/
def resetAll (s : State) : State :=
  { State.reset with
    inReset := true, lines := s.lines, chamber := { s.chamber.sampled with mute1 := false, mute2 := false, alert := false }
    arb := s.arb, draws := s.draws, pending := s.pending }

/-- HARDWARE_RESET, R2. -/
def execHardwareReset (s : State) : Host.Outcome State Fault Refusal := .next (resetAll s).driveOutputs

/-- R116, R122, R139: the inputs are sampled, the first cycle starts, and an open door adds DOOR. -/
def leaveReset (s : State) : State :=
  let s1 := startCycle { s with inReset := false, chamber := s.chamber.sampled }
  if s1.chamber.door.debounced then s1 else addCause .door s1

/-- HARDWARE_RESET_END, R116, R122, R139. -/
def execHardwareResetEnd (s : State) : Host.Outcome State Fault Refusal :=
  .next (if s.inReset then leaveReset s else s).driveOutputs

/-! ## What is due (log 2) -/

/-- The command, if the condition holds. -/
def dueIf (c : Bool) (i : Instr) : List Instr := if c then [i] else []

/-- The timer has run down. -/
def timerDue (t : Option Nat) : Bool := decide (t = some 0)

/-- The ends that are due on one plane. -/
def planeDue (s : State) (p : Plane) : List Instr :=
  let t := s.tracker p
  let d := s.driver p
  dueIf (t.isOpen && !t.closingHeld && t.due) (.windowBudgetEnd p) ++
    dueIf (decide (d.phase = .driving) && decide (d.left = 0)) (.legDriveEnd p) ++
    dueIf (decide (d.phase = .settling) && decide (d.left = 0)) (.legReadback p) ++
    dueIf (timerDue (d.pause.map ForcedPause.left)) (.forcedPauseEnd p)

/-- The timer ends that are due. -/
def dueEvents (s : State) : List Instr :=
  planeDue s .a ++ planeDue s .b ++
    (allSlots.filter fun p => timerDue (s.path p).settleTimer).map Instr.pathSettleTimerEnd ++
    dueIf (timerDue s.safe.grace) .graceEnd ++
    dueIf (timerDue s.ring.keepalive) .keepaliveExpiry ++
    dueIf (timerDue (s.sup.visit.map Visit.left)) .visitEnd ++
    dueIf (cycleDue s) .visitCycleStart ++
    (allFixtures.filter fun n => timerDue (s.chamber.seats.get n).timer).map Instr.seatDebouncedChange ++
    dueIf (timerDue s.chamber.door.timer) .doorDebouncedChange

/-- With no command waiting: the timer end that happens next, if one is due; which of several is free (log 3). -/
def idleCommand (s : State) : Option Instr :=
  if s.inReset then none
  else
    let es := dueEvents s
    es[s.arb.pick % es.length]?

/-- With no command waiting and no timer end due: one tick of 10 µs passes (log 1, log 2). -/
def idleTick (s : State) : State := if s.inReset then s else s.elapse 1

end Sys2Proof.Machine
end

