-- ==== Sys2Proof/Machine/FrameCommands.lean ====
section
/-! DEFINITION. The meaning of the rows of the ring that are not requests: CADENCE, the window frames, ENUMERATE, bad
and unknown frames, a full forward list, and ring-out (R42 to R45, R150 to R154, R158). -/

namespace Sys2Proof.Machine

/-- CADENCE, R158. -/
def execCadence (f : CadenceFrame) (s : State) : Host.Outcome State Fault Refusal :=
  perform (receive (deliverCadence f)) s

/-- WINDOW_OPEN, R42, R43. -/
def execWindowOpen (h : Header) (tag planes : Byte) (budget : Word16) (s : State) :
    Host.Outcome State Fault Refusal :=
  perform (receive (deliverWindowOpen h tag planes budget)) s

/-- WINDOW_SHUT, R45. -/
def execWindowShut (h : Header) (tag : Byte) (s : State) : Host.Outcome State Fault Refusal :=
  perform (receive (deliverWindowShut h tag)) s

/-- ENUMERATE, R154. -/
def execEnumerate (h : Header) (next flags : Byte) (s : State) : Host.Outcome State Fault Refusal :=
  perform (receive (deliverEnumerate h next flags)) s

/-- BAD_FRAME, R150: the bytes are tested in the order of its table. -/
def execBadFrame (bytes : List Byte) (s : State) : Host.Outcome State Fault Refusal :=
  perform (receiveBytes bytes) s

/-- UNKNOWN_FRAME, R150: the bytes are tested in the order of its table. -/
def execUnknownFrame (bytes : List Byte) (s : State) : Host.Outcome State Fault Refusal :=
  perform (receiveBytes bytes) s

/-- FORWARD_LIST_FULL, R152: a frame that ends while the list holds 4 frames is lost. -/
def execForwardListFull (bytes : List Byte) (s : State) : Host.Outcome State Fault Refusal :=
  perform (receiveBytes bytes) s

/-- R152: the oldest frame of the forward list has been sent. -/
def sendFrame (s : State) : State := s.setRing { s.ring with forward := s.ring.forward.tail }

/-- FORWARD_FRAME_SENT, R152. -/
def execForwardFrameSent (s : State) : Host.Outcome State Fault Refusal := perform sendFrame s

end Sys2Proof.Machine
end

