-- ==== Sys2Proof/Machine/Dispatch.lean ====
section
/-! DEFINITION. One command with all its consequences: one arm for each row of the opcode table. -/

namespace Sys2Proof.Machine

def exec (i : Instr) (s : State) : Host.Outcome State Fault Refusal :=
  match i with
  | .ident f => Sys2Proof.Machine.execIdent f s
  | .getSettings f => Sys2Proof.Machine.execGetSettings f s
  | .setSettings f => Sys2Proof.Machine.execSetSettings f s
  | .loadBank f => Sys2Proof.Machine.execLoadBank f s
  | .readBank f => Sys2Proof.Machine.execReadBank f s
  | .loadRoute f => Sys2Proof.Machine.execLoadRoute f s
  | .readRoute f => Sys2Proof.Machine.execReadRoute f s
  | .loadSteps f => Sys2Proof.Machine.execLoadSteps f s
  | .readSteps f => Sys2Proof.Machine.execReadSteps f s
  | .openPath f => Sys2Proof.Machine.execOpenPath f s
  | .closePath f => Sys2Proof.Machine.execClosePath f s
  | .swapPath f => Sys2Proof.Machine.execSwapPath f s
  | .cancelChange f => Sys2Proof.Machine.execCancelChange f s
  | .readPaths f => Sys2Proof.Machine.execReadPaths f s
  | .readQueue f => Sys2Proof.Machine.execReadQueue f s
  | .setSequencer f => Sys2Proof.Machine.execSetSequencer f s
  | .readSequencer f => Sys2Proof.Machine.execReadSequencer f s
  | .seqRun f => Sys2Proof.Machine.execSeqRun f s
  | .seqHold f => Sys2Proof.Machine.execSeqHold f s
  | .seqResume f => Sys2Proof.Machine.execSeqResume f s
  | .seqStop f => Sys2Proof.Machine.execSeqStop f s
  | .armDivert f => Sys2Proof.Machine.execArmDivert f s
  | .claim f => Sys2Proof.Machine.execClaim f s
  | .release f => Sys2Proof.Machine.execRelease f s
  | .readClaims f => Sys2Proof.Machine.execReadClaims f s
  | .readEvents f => Sys2Proof.Machine.execReadEvents f s
  | .clearEvents f => Sys2Proof.Machine.execClearEvents f s
  | .readFaults f => Sys2Proof.Machine.execReadFaults f s
  | .clearFaults f => Sys2Proof.Machine.execClearFaults f s
  | .safeEnter f => Sys2Proof.Machine.execSafeEnter f s
  | .safeExit f => Sys2Proof.Machine.execSafeExit f s
  | .nodeReset f => Sys2Proof.Machine.execNodeReset f s
  | .forget f => Sys2Proof.Machine.execForget f s
  | .eUnknown code f => Sys2Proof.Machine.execEUnknown code f s
  | .cadence f => Sys2Proof.Machine.execCadence f s
  | .windowOpen h tag planes budget => Sys2Proof.Machine.execWindowOpen h tag planes budget s
  | .windowShut h tag => Sys2Proof.Machine.execWindowShut h tag s
  | .enumerate h next flags => Sys2Proof.Machine.execEnumerate h next flags s
  | .requestOtherDestination code f => Sys2Proof.Machine.execRequestOtherDestination code f s
  | .addressClash code f => Sys2Proof.Machine.execAddressClash code f s
  | .badFrame bytes => Sys2Proof.Machine.execBadFrame bytes s
  | .unknownFrame bytes => Sys2Proof.Machine.execUnknownFrame bytes s
  | .forwardListFull bytes => Sys2Proof.Machine.execForwardListFull bytes s
  | .forwardFrameSent => Sys2Proof.Machine.execForwardFrameSent s
  | .windowBudgetEnd p => Sys2Proof.Machine.execWindowBudgetEnd p s
  | .legDriveEnd p => Sys2Proof.Machine.execLegDriveEnd p s
  | .legReadback p => Sys2Proof.Machine.execLegReadback p s
  | .forcedPauseEnd p => Sys2Proof.Machine.execForcedPauseEnd p s
  | .pathSettleTimerEnd p => Sys2Proof.Machine.execPathSettleTimerEnd p s
  | .graceEnd => Sys2Proof.Machine.execGraceEnd s
  | .keepaliveExpiry => Sys2Proof.Machine.execKeepaliveExpiry s
  | .visitCycleStart => Sys2Proof.Machine.execVisitCycleStart s
  | .visitEnd => Sys2Proof.Machine.execVisitEnd s
  | .inputLevelChange input closed => Sys2Proof.Machine.execInputLevelChange input closed s
  | .doorDebouncedChange => Sys2Proof.Machine.execDoorDebouncedChange s
  | .seatDebouncedChange n => Sys2Proof.Machine.execSeatDebouncedChange n s
  | .hardwareReset => Sys2Proof.Machine.execHardwareReset s
  | .hardwareResetEnd => Sys2Proof.Machine.execHardwareResetEnd s

end Sys2Proof.Machine
end

