-- ==== Sys2Proof/Machine/Step.lean ====
section
/-! DEFINITION. One step: the command at the front of the queue, or, with none waiting, what the passing of time
brings. -/

namespace Sys2Proof.Machine

/-- One step (log 1): the command at the front of the queue is run on the state with the queue's rest. With no command
waiting, a timer end that is due happens, and else one tick of 10 µs passes (log 2). -/
def step (s : State) : Host.Outcome State Fault Refusal :=
  match s.pending with
  | c :: rest => exec c { s with pending := rest }
  | [] =>
    match idleCommand s with
    | some c => exec c s.redraw
    | none => .next (idleTick s)

/-- The state with the command that a word of the opcode table spells at the front of its queue. The table gives no
row bits, so no word spells one and the state is unchanged. -/
def State.withFetchWord (s : State) (nbits w : Nat) : State :=
  match decodeTableWord nbits w with
  | some c => { s with pending := c :: s.pending }
  | none => s

end Sys2Proof.Machine
end

