-- ==== Sys2Proof/Safety.lean ====
section
/-! DEFINITION. What counts as a safe step, and the terms the statements share: a command that completes, a frame the
node takes, the state a request's answer leaves, and the invariants of a step. -/

namespace Sys2Proof.Machine

/-- The outcome is a next state. -/
def Completes (o : Host.Outcome State Fault Refusal) : Prop := ∃ t, o = .next t

/-- Every next state that the outcome allows has the property. -/
def AllNext (P : State → Prop) (o : Host.Outcome State Fault Refusal) : Prop := ∀ t, o = .next t → P t

/-! ## Taking a request -/

/-- A frame that ends on ring-in is taken: the part is out of reset and its forward list has room (R152). -/
def Ready (s : State) : Prop := s.inReset = false ∧ s.ring.forward.length < 4

/-- The request is this node's to execute (R150, R153, R156): of the sizes of R149, addressed to the node, NOT_TAKEN. -/
def ForThisNode (f : Request) (s : State) : Prop :=
  Ready s ∧ f.wellFormed = true ∧ f.hdr.dest ≠ 0 ∧ s.ring.address = some f.hdr.dest ∧ f.status = 0xFF

/-- What a request to the node leaves (R152, R156, R160) when its answer is `r` and its own effect, with what the
drivers did then, left `u`: the frame with hop count, status and response written joins the forward list, the keepalive
timer restarts, and the outputs follow. Nothing else of `u` is changed. -/
def answered (code : Byte) (f : Request) (r : Reply) (u : State) : State :=
  (finishFrame (requestFrame code (forwardedRequest f r.status.code r.data)) u).driveOutputs

/-- The station field names the station (R149, R161). -/
def NamesStation (f : Request) (st : Station) : Prop :=
  f.station = (match st with | .s1 => 1 | .s2 => 2)

/-! ## Acceptance (R17, R22, R23) -/

/-- The route admits the station: it is the station's or EITHER (R22, check 2). -/
def RouteFor (x : RouteRecord) (st : Station) : Prop :=
  x.station = .either ∨ x.station = (match st with | .s1 => .s1 | .s2 => .s2)

/-- Checks 1 to 6 of R22, with R17 and R23, pass for a MAKE (`old` none) or a SWAP from slot `old`, whose route has the
legs `oldLegs`. -/
def Acceptable (s : State) (st : Station) (x : RouteRecord) (old : Option Slot) (oldLegs : List RouteLeg) : Prop :=
  x.defined = true ∧
  (∀ l ∈ x.legs, (s.bank l.bank).fitted = true ∧ (s.bank l.bank).plane = x.plane ∧
    l.thr.1 + 1 ≤ (s.bank l.bank).throwsFitted) ∧
  RouteFor x st ∧
  (∀ l ∈ x.legs, s.claims.banks.get l.bank = some st) ∧
  (∀ n, x.endpoint = .fixture n →
    s.claims.fixtures.get n = some st ∧ (s.chamber.seats.get n).debounced = true) ∧
  (∀ l ∈ x.legs, l ∈ oldLegs ∨ s.faultsOf l.bank = 0) ∧
  (∀ l ∈ x.legs, (s.bank l.bank).holder = none ∨ (old ≠ none ∧ (s.bank l.bank).holder = old)) ∧
  (∀ q y, old ≠ some q → (s.path q).state ≠ .free → s.slotRoute q = some y → y.plane = x.plane →
    ((s.path q).station = some st → y.port ≠ x.port) ∧ y.endpoint ≠ x.endpoint)

/-- R17 for one leg: its bank is fitted, on the plane, and has the throw. -/
def LegUsable (s : State) (pl : Plane) (l : RouteLeg) : Prop :=
  (s.bank l.bank).fitted = true ∧ (s.bank l.bank).plane = pl ∧ l.thr.1 + 1 ≤ (s.bank l.bank).throwsFitted

/-- R23: the slot conflicts with a change of the station on the route; `old` is the old slot of a SWAP. -/
def Conflicts (s : State) (st : Station) (x : RouteRecord) (old : Option Slot) (q : Slot) : Prop :=
  old ≠ some q ∧
    ((∃ l ∈ x.legs, (s.bank l.bank).holder = some q) ∨
      ((s.path q).state ≠ .free ∧
        ∃ y, s.slotRoute q = some y ∧ y.plane = x.plane ∧
          (((s.path q).station = some st ∧ y.port = x.port) ∨ y.endpoint = x.endpoint)))

/-- R22: check `k` (1 to 6) fails with the answer `r`, whatever the checks before it give. For a SWAP `old` is the old
slot, `oldPlane` its route's plane and `oldLegs` its route's legs. Of check 1, R17's answer comes before that of
differing planes (the model's choice, log 30). -/
def FailsCheck (s : State) (st : Station) (x : RouteRecord) (old : Option Slot) (oldPlane : Option Plane)
    (oldLegs : List RouteLeg) (k : Nat) (r : Reply) : Prop :=
  (k = 1 ∧
    ((x.defined = false ∧ r = ⟨.eArg, [0xFE]⟩) ∨
      (x.defined = true ∧
        ∃ before l after, x.legs = before ++ l :: after ∧ (∀ m ∈ before, LegUsable s x.plane m) ∧
          ¬ LegUsable s x.plane l ∧ r = ⟨.eArg, [byteOf before.length]⟩) ∨
      (x.defined = true ∧ (∀ l ∈ x.legs, LegUsable s x.plane l) ∧ oldPlane ≠ none ∧ oldPlane ≠ some x.plane ∧
        r = ⟨.eArg, [0xFD]⟩))) ∨
  (k = 2 ∧ ¬ RouteFor x st ∧ r = ⟨.eClaim, [0xFF]⟩) ∨
  (k = 3 ∧
    ∃ before i after, routeItems x = before ++ i :: after ∧ (∀ j ∈ before, s.claimOf j = some st) ∧
      s.claimOf i ≠ some st ∧ r = ⟨.eClaim, [itemByte i]⟩) ∨
  (k = 4 ∧
    ∃ n, x.endpoint = .fixture n ∧ (s.chamber.seats.get n).debounced = false ∧ r = ⟨.eState, [fixtureByte n]⟩) ∨
  (k = 5 ∧
    ∃ before l after, x.legs = before ++ l :: after ∧ (∀ m ∈ before, m ∈ oldLegs ∨ s.faultsOf m.bank = 0) ∧
      l ∉ oldLegs ∧ s.faultsOf l.bank ≠ 0 ∧ r = ⟨.eFault, [byteOf l.bank.1]⟩) ∨
  (k = 6 ∧
    ∃ m : BitVec 16, m ≠ 0 ∧ (∀ q : Slot, m.getLsbD q.1 = true ↔ Conflicts s st x old q) ∧
      r = ⟨.eConflict, bytes2 m.toNat⟩)

/-- R22: check `k` is the first that fails, with the answer `r`. -/
def FirstFailure (s : State) (st : Station) (x : RouteRecord) (old : Option Slot) (oldPlane : Option Plane)
    (oldLegs : List RouteLeg) (k : Nat) (r : Reply) : Prop :=
  FailsCheck s st x old oldPlane oldLegs k r ∧ ∀ j x', j < k → ¬ FailsCheck s st x old oldPlane oldLegs j x'

/-- The slot is the lowest-numbered FREE slot (R24). -/
def LowestFree (s : State) (p : Slot) : Prop :=
  (s.path p).state = .free ∧ ∀ q, q < p → (s.path q).state ≠ .free

/-- The entries of a plane in the queue (R52). -/
def aheadOn (s : State) (pl : Plane) : Nat := s.queue.countP fun e => decide (e.plane = pl)

/-! ## Operands and terms of single statements -/

/-- The parameters of LOAD_BANK (R4). -/
def bankLoadBytes (q : BankParams) : List Byte :=
  [byteOf q.bank.1, boolByte q.fitted, planeByte q.plane, byteOf q.throwsFitted, byteOf q.operate, byteOf q.settle] ++
    bytes4 q.lifeLimit ++ [boolByte q.setCount] ++ bytes4 q.lifeCount

/-- The parameters are within the values of R4. -/
def BankParamsInRange (q : BankParams) : Prop :=
  1 ≤ q.throwsFitted ∧ q.throwsFitted ≤ 8 ∧ 1 ≤ q.operate ∧ q.operate ≤ 200 ∧ q.settle ≤ 200 ∧
  q.lifeLimit ≤ 4294967295 ∧ q.lifeCount ≤ 4294967295

/-- The values of a defined route (R14) that R15 checks before its legs, and its legs against the Bank Map. -/
def RouteLoadable (s : State) (x : RouteRecord) : Prop :=
  x.defined = true ∧ 1 ≤ x.port ∧ x.port ≤ 8 ∧ x.extraSettle ≤ 200 ∧ 1 ≤ x.legs.length ∧ x.legs.length ≤ 6 ∧
  (x.legs.map RouteLeg.bank).Nodup ∧
  ∀ l ∈ x.legs, (s.bank l.bank).fitted = true ∧ (s.bank l.bank).plane = x.plane ∧
    l.thr.1 + 1 ≤ (s.bank l.bank).throwsFitted

/-- The values of R163. -/
def SettingsInRange (x : Settings) : Prop :=
  x.keepalivePeriod ≤ 255 ∧ 1 ≤ x.muteGrace ∧ x.muteGrace ≤ 255 ∧ x.interval ≤ 127 ∧ x.missThreshold ≤ 7 ∧
  x.bypass.toNat < 32 ∧ x.hotThreshold ≤ 1023 ∧ x.strayThreshold ≤ 1023 ∧ x.coilMin ≤ x.coilMax ∧ x.coilMax ≤ 1023

/-- R163, R164: the settings field at position `n` of 18 bytes of parameters is outside its coding. -/
def SettingsFieldBad (ps : List Byte) (n : Nat) : Prop :=
  (n = 2 ∧ val1 ps 1 = 0) ∨ (n = 3 ∧ 127 < val1 ps 2) ∨ (n = 4 ∧ 7 < val1 ps 3) ∨ (n = 5 ∧ 31 < val1 ps 4) ∨
  (n = 6 ∧ 1023 < val2 ps 5) ∨ (n = 7 ∧ 1023 < val2 ps 7) ∨ (n = 8 ∧ 1023 < val2 ps 9) ∨
  (n = 9 ∧ 1023 < val2 ps 11) ∨ (n = 10 ∧ 63 < val1 ps 13) ∨ (n = 11 ∧ 63 < val1 ps 14) ∨
  (n = 12 ∧ 4194303 < val3 ps 15)

/-- R4: the LOAD_BANK parameter at position `n` of 15 bytes is outside the values of its row. -/
def BankFieldBad (ps : List Byte) (n : Nat) : Prop :=
  (n = 1 ∧ 23 < val1 ps 0) ∨ (n = 2 ∧ 1 < val1 ps 1) ∨ (n = 3 ∧ 1 < val1 ps 2) ∨
  (n = 4 ∧ (val1 ps 3 = 0 ∨ 8 < val1 ps 3)) ∨ (n = 5 ∧ (val1 ps 4 = 0 ∨ 200 < val1 ps 4)) ∨
  (n = 6 ∧ 200 < val1 ps 5) ∨ (n = 8 ∧ 1 < val1 ps 10)

/-- R15: check 1 or 2 of LOAD_ROUTE fails. -/
def RouteFieldsBad (ps : List Byte) : Prop :=
  ps.length < 2 ∨ 127 < val1 ps 0 ∨ 1 < val1 ps 1 ∨
  (val1 ps 1 = 1 ∧
    (ps.length < 8 ∨ val1 ps 2 = 0 ∨ 3 < val1 ps 2 ∨ val1 ps 3 = 0 ∨ 8 < val1 ps 3 ∨ 1 < val1 ps 4 ∨
      0x43 < val1 ps 5 ∨ 200 < val1 ps 6 ∨ val1 ps 7 = 0 ∨ 6 < val1 ps 7 ∨ ps.length ≠ 8 + 2 * val1 ps 7))

/-- R15, check 3: the leg with bank byte `b` and throw byte `t`, after legs with the bank bytes `seen`, fails. -/
def LegBytesBad (s : State) (pl : Plane) (seen : List Byte) (b t : Byte) : Prop :=
  b ∈ seen ∨ 23 < b.toNat ∨
  ∃ h : b.toNat < 24,
    (s.bank ⟨b.toNat, h⟩).fitted = false ∨ (s.bank ⟨b.toNat, h⟩).plane ≠ pl ∨ t = 0 ∨
      (s.bank ⟨b.toNat, h⟩).throwsFitted < t.toNat

/-- R76: the record in the 5 bytes from position `i` is refused. -/
def StepRecordBad (ps : List Byte) (i : Nat) : Prop :=
  0x82 ≤ val1 ps i ∨ 0x82 ≤ val1 ps (i + 1) ∨
  (ps.getD (i + 2) 0).getLsbD 3 = true ∨ (ps.getD (i + 2) 0).getLsbD 7 = true ∨
  ((ps.getD (i + 2) 0).getLsbD 4 = false ∧ (val2 ps (i + 3) = 0 ∨ 4096 < val2 ps (i + 3))) ∨
  ((ps.getD (i + 2) 0).getLsbD 4 = true ∧ 511 < val2 ps (i + 3))

/-- R79, check 2: the SET_SEQUENCER parameter at position `n` of 15 bytes is outside its values. -/
def SeqFieldBad (ps : List Byte) (n : Nat) : Prop :=
  (n = 1 ∧ 511 < val2 ps 0) ∨ (n = 2 ∧ 511 < val2 ps 2) ∨ (n = 3 ∧ 511 < val2 ps 4) ∨
  (n = 4 ∧ 511 < val2 ps 6 ∧ val2 ps 6 ≠ 0xFFFF) ∨ (n = 5 ∧ 511 < val2 ps 8 ∧ val2 ps 8 ≠ 0xFFFF) ∨
  (n = 6 ∧ 511 < val2 ps 10 ∧ val2 ps 10 ≠ 0xFFFF) ∨ (n = 8 ∧ 511 < val2 ps 13)

/-- R79: a value lies within the region that the parameters name. -/
def InParamRegion (ps : List Byte) (n : Nat) : Prop := val2 ps 0 ≤ n ∧ n ≤ val2 ps 2

/-! ## The drivers' choice (R57, R59, R70, R72, R73) -/

/-- R57: the driver is one that chooses work. -/
def MayChoose (s : State) (pl : Plane) : Prop :=
  (s.driver pl).phase = .idle ∧ (s.driver pl).forced = false ∧ (s.driver pl).waiting = none ∧
  (s.tracker pl).isOpen = true ∧ (s.tracker pl).closingHeld = false ∧ s.safe.state = .normal

/-- R57, step 2: the bank's home may be chosen. -/
def HomeDue (s : State) (pl : Plane) (b : BankId) : Prop :=
  (s.bank b).fitted = true ∧ (s.bank b).plane = pl ∧ (s.bank b).homeOwed = true ∧
  (s.driver pl).passed.getLsbD b.1 = false

/-- R57, steps 1 and 3: the driver takes the head of its plane. -/
def TakesHead (s : State) (pl : Plane) (e : Entry) : Prop :=
  MayChoose s pl ∧ s.headOf pl = some e ∧ (e.active = true ∨ ∀ b, ¬ HomeDue s pl b)

/-- R57, step 2: the driver takes the bank's home. -/
def TakesHome (s : State) (pl : Plane) (b : BankId) : Prop :=
  MayChoose s pl ∧ HomeDue s pl b ∧ (∀ x, x < b → ¬ HomeDue s pl x) ∧
  ∀ e, s.headOf pl = some e → e.active = false

/-- R59: the leg is neither released nor skipped. -/
def MustBeDriven (s : State) (l : PlanLeg) : Prop :=
  l.target ≠ .term ∨ ((s.bank l.bank).position ≠ some .term ∧ s.faultValid l.bank .coil = false)

/-- R62, steps 1 and 2: what a hot deferral of the bank writes. -/
def deferred (s : State) (b : BankId) : State :=
  (s.setBank b { s.bank b with hotDeferrals := min 7 ((s.bank b).hotDeferrals + 1) }).raise .hotDefer

/-- R62: the reading of the bank's detector is hot. -/
def DetectorHot (s : State) (b : BankId) : Prop := s.settings.hotThreshold ≤ (s.lines.get b).detector.toNat

/-- R72, R73: a home that is teardown work: owed, and not passed for a COIL fault. -/
def ForcedHomeDue (s : State) (pl : Plane) (b : BankId) : Prop :=
  (s.bank b).fitted = true ∧ (s.bank b).plane = pl ∧ (s.bank b).homeOwed = true ∧
  ((s.bank b).position = some .term ∨ s.faultValid b .coil = false)

/-- R72: the slot holds a path of the plane. -/
def UsedOn (s : State) (pl : Plane) (p : Slot) : Prop := (s.path p).state ≠ .free ∧ s.slotOnPlane p pl = true

/-- R72: the driver reports its plane done. -/
def PlaneDone (s : State) (pl : Plane) : Prop :=
  (s.driver pl).forced = true ∧ (s.driver pl).leg = none ∧ (s.driver pl).pause = none ∧
  (∀ p, ¬ UsedOn s pl p) ∧ ∀ b, ¬ ForcedHomeDue s pl b

/-! ## Clearing faults (R134, R135) -/

/-- R134: a DRIFT clear on the bank resynchronises it. -/
abbrev DriftDue (s : State) (b : BankId) : Prop :=
  s.faultValid b .drift = true ∧ (s.bank b).fitted = true ∧ s.inFlight b = false

/-- R134: the resynchronisation is refused and the DRIFT fault kept. -/
abbrev DriftRefused (s : State) (b : BankId) : Prop :=
  DriftDue s b ∧
    (s.readback b = none ∨
      ∃ p, (s.bank b).holder = some p ∧ (s.bank b).position ≠ s.readback b ∧
        ((s.path p).state = .live ∨ (s.path p).state = .settling))

/-- R134: the bank record after a resynchronisation that is not refused. -/
def resynced (s : State) (b : BankId) : BankRecord :=
  { s.bank b with
    position := s.readback b
    homeOwed := (s.bank b).homeOwed || (decide (s.readback b ≠ some .term) && decide ((s.bank b).holder = none)) }

/-- R135: a COIL clear on the bank sets home owed. -/
abbrev CoilOwes (s : State) (b : BankId) : Prop :=
  s.faultValid b .coil = true ∧ (s.bank b).fitted = true ∧ (s.bank b).position ≠ some .term ∧ (s.bank b).holder = none

/-! ## The notice at the end of an entry (R55, R84) -/

/-- R84: the pending record `c` was made for the entry `e`; the two are matched by their slots (log 11). -/
abbrev RecordOf (e : Entry) (c : PendingChange) : Prop :=
  (e.new ≠ none ∧ c.new = e.new) ∨ (e.new = none ∧ e.old ≠ none ∧ c.new = none ∧ c.old = e.old)

/-- R84: the end of `e` empties the pending list of the WAITING sequencer that made it. -/
abbrev EndsWaiting (e : Entry) (st : Station) (s : State) : Prop :=
  e.origin = .sequencer st ∧ (s.run st).state = .waiting ∧ (s.run st).changes ≠ [] ∧
    ∀ c ∈ (s.run st).changes, RecordOf e c

/-- R55, R84: from `s`, the end of the entry `e`, by completion, failure or cancellation, has been noticed in `w`: its
record leaves the pending list of the sequencer that made it, which dwells if it was WAITING for that alone. Nothing else
of a sequencer changes but its current paths (R95). -/
def NoticeTaken (e : Entry) (s w : State) : Prop :=
  ∀ st, w.seq st =
    { cfg := (s.seq st).cfg
      run :=
        { s.run st with
          current := (w.run st).current
          changes :=
            if e.origin = .sequencer st then (s.run st).changes.filter fun c => decide (¬ RecordOf e c)
            else (s.run st).changes
          state := if EndsWaiting e st s then .dwelling else (s.run st).state
          dwell := if EndsWaiting e st s then (s.run st).copyDwell else (s.run st).dwell } }

/-- R38, R95: from `s`, the sequencers' current paths in `w` are what they were, but none for one of slot `p`. -/
def CurrentsDrop (p : Slot) (s w : State) : Prop :=
  ∀ st pl, (w.run st).current.get pl =
    if (s.run st).current.get pl = some p then none else (s.run st).current.get pl

/-- R95: the sequencers' current paths are the same. -/
def CurrentsKept (s w : State) : Prop := ∀ st pl, (w.run st).current.get pl = (s.run st).current.get pl

/-! ## Cancellation (R35, R95) -/

/-- R35: the record `x` of a path on the route `r`, returned to its prior state `k`; its established cadence is kept
(log 27). -/
def restoredTo (k : PriorState) (r : RouteRecord) (x : PathRecord) : PathRecord :=
  match k with
  | .settling =>
    { x with state := .settling, settleTimer := some (r.extraSettle * 10), legsDone := r.legs.length }
  | .live => { x with state := .live, legsDone := r.legs.length }
  | .failed => { x with state := .failed, legsDone := x.priorLegs }

/-- R35: what cancelling the MAKE of slot `n` does to paths, banks and current paths. -/
def MakeCancelled (n : Slot) (s w : State) : Prop :=
  w.path n = PathRecord.free ∧ (∀ q, q ≠ n → w.path q = s.path q) ∧ w.flagSet .pathFreed = true ∧
  (∀ b, w.bank b =
    if (s.bank b).holder = some n then
      { s.bank b with
        holder := none, homeOwed := (s.bank b).homeOwed || decide ((s.bank b).position ≠ some .term) }
    else s.bank b) ∧
  CurrentsDrop n s w

/-- R35: what cancelling the BREAK of slot `o`, on the route `r`, with prior state `k` does to them. -/
def BreakCancelled (o : Slot) (r : RouteRecord) (k : PriorState) (s w : State) : Prop :=
  w.path o = restoredTo k r (s.path o) ∧ (∀ q, q ≠ o → w.path q = s.path q) ∧ w.banks = s.banks ∧
  w.events = s.events ∧ CurrentsKept s w

/-- R35, R95: what cancelling the SWAP `e` from slot `o`, on the route `r`, with prior state `k` to slot `n` does to
them: a sequencer that made it has the old slot again as its current path where it had the new one, or none. -/
def SwapCancelled (e : Entry) (o n : Slot) (r : RouteRecord) (k : PriorState) (s w : State) : Prop :=
  w.path n = PathRecord.free ∧ w.path o = restoredTo k r (s.path o) ∧ (∀ q, q ≠ o → q ≠ n → w.path q = s.path q) ∧
  w.flagSet .pathFreed = true ∧
  (∀ b, w.bank b =
    if (s.bank b).holder = some n then
      (if b ∈ r.legs.map RouteLeg.bank then { s.bank b with holder := some o }
       else
         { s.bank b with
           holder := none, homeOwed := (s.bank b).homeOwed || decide ((s.bank b).position ≠ some .term) })
    else s.bank b) ∧
  ∀ st pl, (w.run st).current.get pl =
    if (s.run st).current.get pl = some n ∨ (s.run st).current.get pl = none then
      (if e.origin = .sequencer st ∧ pl = e.plane then some o else none)
    else (s.run st).current.get pl

/-- R35, R55, R84: from `s`, the WAITING entry `e` has been cancelled in `w`. -/
def Cancelled (e : Entry) (s w : State) : Prop :=
  w =
    { s with
      banks := w.banks, paths := w.paths, queue := w.queue, drivers := w.drivers, seqs := w.seqs, events := w.events } ∧
  w.queue = s.queue.erase e ∧ NoticeTaken e s w ∧
  (s.headOf e.plane = some e → (w.driver e.plane).held = none ∧ (w.driver e.plane).waiting = none) ∧
  (∀ n, e.kind = .makeChange → e.old = none → e.new = some n → MakeCancelled n s w) ∧
  (∀ o r k, e.kind = .breakChange → e.old = some o → e.new = none → (s.path o).route = some r →
    (s.path o).prior = some k → BreakCancelled o (s.route r) k s w) ∧
  ∀ o n r k, e.kind = .swapChange → e.old = some o → e.new = some n → o ≠ n → (s.path o).route = some r →
    (s.path o).prior = some k → SwapCancelled e o n (s.route r) k s w

/-! ## Safe entry (R97, R140) -/

/-- R97: the run state after the safe entry. -/
def safeEntered (r : SeqRun) : SeqRun :=
  { r with
    state := .idle, changes := [], stalled := ⟨none, none⟩, heldPhase := none, divertArmed := false
    fault :=
      if r.state = .waiting ∨ r.state = .dwelling ∨ r.state = .stalled ∨ r.state = .held then
        some ⟨r.cursor, none, .safe⟩
      else r.fault }

/-- R97, R140: safe entry with the cause set `causes`, before the cancellations: GRACE with its timer, the SAFE event,
both sequencers halted. -/
def entering (causes : BitVec 5) (s : State) : State :=
  { s with
    safe :=
      { state := .grace, causes := causes, grace := some (s.settings.muteGrace * 100)
        resetPending := s.safe.resetPending }
    events := (s.raise .safe).events
    seqs :=
      ⟨{ s.seqs.s1 with run := safeEntered s.seqs.s1.run }, { s.seqs.s2 with run := safeEntered s.seqs.s2.run }⟩ }

/-- R71, R140: `w` is `s` after safe entry with the cause set `causes`: the WAITING entries are cancelled in queue order
(the model's choice, log 29), then each plane's ACTIVE head with no leg in flight fails, the planes in either order
(log 3). -/
def SafelyEntered (causes : BitVec 5) (s w : State) : Prop :=
  ∃ x, x = (cancelAll (s.queue.filter fun e => !e.active) (entering causes s)).redraw ∧
    (w = failIdleHead .b (failIdleHead .a x) ∨ w = failIdleHead .a (failIdleHead .b x))

/-- R139: `w` is `s` after the causes of `m` have joined the set, which in NORMAL is safe entry. -/
def CauseJoins (m : BitVec 5) (s w : State) : Prop :=
  (s.safe.state = .normal → SafelyEntered (s.safe.causes ||| m) s w) ∧
  (s.safe.state ≠ .normal → w = s.setSafe { s.safe with causes := s.safe.causes ||| m })

/-! ## A fault becoming valid (R33, R130) -/

/-- R33: a fault of kind `k` on bank `b` makes the path of slot `p` FAILED. -/
abbrev FailsHolder (b : BankId) (k : FaultKind) (s : State) (p : Slot) : Prop :=
  (s.bank b).holder = some p ∧ k ≠ .stray ∧ k ≠ .worn ∧ ((s.path p).state = .live ∨ (s.path p).state = .settling)

/-- R130, steps 1 to 4: from `s`, the fault of kind `k` on bank `b` has been set, with FAULT, and its holder acted on. -/
def FaultSet (b : BankId) (k : FaultKind) (s v : State) : Prop :=
  v = { s with paths := v.paths, sup := v.sup, events := v.events } ∧
  v.sup = { s.sup with summaries := s.sup.summaries ||| k.mask, faults := v.sup.faults } ∧
  (∀ x, v.faultsOf x = if x = b then s.faultsOf b ||| k.mask else s.faultsOf x) ∧
  (∀ p, v.path p =
    if FailsHolder b k s p then
      { s.path p with
        state := .failed, failure := (s.path p).failure.or (some .bankFault), settleTimer := none }
    else s.path p) ∧
  v.events =
    if ∃ p, FailsHolder b k s p then ((s.raise .fault).raise .pathFailed).events else (s.raise .fault).events

/-- R130: from `s`, the fault of kind `k` on bank `b` has become valid in `w`; a kind in the safe mask adds FAULT. -/
def BecameValid (b : BankId) (k : FaultKind) (s w : State) : Prop :=
  ∃ v, FaultSet b k s v ∧ (kindIn k s.settings.safeMask = true → CauseJoins 4#5 v w) ∧
    (kindIn k s.settings.safeMask = false → w = v)

/-- R128: a miss makes the fault of a counted kind valid, which it was not. -/
abbrev MissMakesValid (s : State) (b : BankId) (k : FaultKind) : Prop :=
  s.faultValid b k = false ∧
    (kindIn k s.settings.bypass = true ∨
      (if s.settings.missThreshold = 0 then 1 else s.settings.missThreshold) ≤ min 7 (s.counter b k + 1))

/-- R128: from `s`, a miss of the counted kind `k` on bank `b`, or where `miss` does not hold a pass, has been taken in
`w`. -/
def ResultTaken (b : BankId) (k : FaultKind) (miss : Prop) (s w : State) : Prop :=
  (s.faultValid b k = true → w = s) ∧
  (s.faultValid b k = false →
    (¬ miss → w = s.setCounter b k 0) ∧
    (miss → MissMakesValid s b k → BecameValid b k (s.setCounter b k (min 7 (s.counter b k + 1))) w) ∧
    (miss → ¬ MissMakesValid s b k → w = s.setCounter b k (min 7 (s.counter b k + 1))))

/-- R124 to R126: from `s`, the readings `x` of bank `b` have been judged in `w`: COIL, DRIFT, STRAY and WORN, one after
another, against the bank record of `s` (log 32). -/
def VisitJudged (b : BankId) (x : Sample) (s w : State) : Prop :=
  ∃ c d y : State,
    ResultTaken b .coil (x.coil.toNat < s.settings.coilMin ∨ s.settings.coilMax < x.coil.toNat) s c ∧
    ResultTaken b .drift ((s.bank b).position ≠ none ∧ (s.bank b).position ≠ x.reading) c d ∧
    ((s.bank b).position = some .term ∧ (s.bank b).holder = none →
      ResultTaken b .stray (s.settings.strayThreshold ≤ x.detector.toNat) d y) ∧
    (¬ ((s.bank b).position = some .term ∧ (s.bank b).holder = none) → y = d) ∧
    ((y.bank b).lifeLimit ≠ 0 ∧ (y.bank b).lifeLimit ≤ (y.bank b).lifeCount ∧ y.faultValid b .worn = false →
      BecameValid b .worn y w) ∧
    (¬ ((y.bank b).lifeLimit ≠ 0 ∧ (y.bank b).lifeLimit ≤ (y.bank b).lifeCount ∧ y.faultValid b .worn = false) → w = y)

/-- R9, R65: a completed leg leaves the bank worn, and WORN is not valid yet. -/
abbrev NewlyWorn (s : State) (b : BankId) : Prop :=
  (s.bank b).lifeLimit ≠ 0 ∧ (s.bank b).lifeLimit ≤ min ((s.bank b).lifeCount + 1) 4294967295 ∧
    s.faultValid b .worn = false

/-- R34, third case: from `s`, the change of slot `n`, which a fixture loss has made FAILED, has ended in NORMAL in `w`,
`rest` being the queue without it: a BREAK of the slot with prior state FAILED is at its tail. -/
def FailedThenClosing (n : Slot) (s w : State) (rest : List Entry) : Prop :=
  w.path n =
    { s.path n with
      state := .closing, prior := some .failed, priorLegs := (s.path n).legsDone, settleTimer := none
      closeOwed := false, closeOwedCause := none, legsDone := (w.path n).legsDone } ∧
  w.flagSet .pathLive = s.flagSet .pathLive ∧
  ∃ y : Entry, w.queue = rest ++ [y] ∧ y.kind = .breakChange ∧ y.old = some n ∧ y.new = none ∧ y.active = false ∧
    ∀ c st, (s.path n).closeOwedCause = some c → (s.path n).station = some st →
      y.origin = (match c with | .closePath => .request st | .fixtureLoss => .part)

/-! ## Claims, seats, NODE_RESET -/

/-- The item is in use by a path of the station (R113). -/
def InUseBy (s : State) (st : Station) : Item → Prop
  | .bank b => ∃ p, (s.bank b).holder = some p ∧ (s.path p).station = some st
  | .fixture n => ∃ p, (s.path p).state ≠ .free ∧ (s.path p).station = some st ∧ s.slotEndsAt p n = true

/-- The slot's path ends at the fixture port and is in a state that an unseat makes FAILED (R119). -/
def FailedByUnseat (s : State) (n : FixtureId) (p : Slot) : Prop :=
  s.slotEndsAt p n = true ∧
    ((s.path p).state = .forming ∨ (s.path p).state = .settling ∨ (s.path p).state = .live)

/-- What the clearing of NODE_RESET in SAFE leaves when no bank comes to owe a home (R147), the state becoming `x`. -/
def clearedWorking (s : State) (x : SafeState) : State :=
  { s with
    claims := ClaimTable.empty
    sup :=
      { s.sup with
        counters := Vector.replicate 24 MissCounters.zero, faults := Vector.replicate 24 0, summaries := 0 }
    events := EventUnit.reset
    ring := { s.ring with badFrames := 0 }
    seqs := ⟨⟨s.seqs.s1.cfg, SeqRun.reset⟩, ⟨s.seqs.s2.cfg, SeqRun.reset⟩⟩
    safe := { s.safe with state := x, causes := s.safe.causes &&& ~~~16#5, resetPending := false } }

/-- R147: clearing the COIL detail of the bank sets home owed. -/
abbrev ResetOwes (s : State) (b : BankId) : Prop :=
  (s.bank b).fitted = true ∧ s.faultValid b .coil = true ∧ (s.bank b).position ≠ some .term

/-- R147: from `s`, `t` has the clearing of NODE_RESET, some banks owing a home by it: TEARDOWN again, reset pending as it
was. A bank that owed its home already counts too (the model's reading, log 16). -/
def ClearedOwing (s t : State) : Prop :=
  t =
    { clearedWorking s .teardown with
      banks := t.banks
      safe := { s.safe with state := .teardown, causes := s.safe.causes &&& ~~~16#5 } } ∧
  ∀ b, t.bank b = if ResetOwes s b then { s.bank b with homeOwed := true } else s.bank b

/-! ## Clearing faults (R132 to R135) -/

/-- R134: the bank after a DRIFT clear, if the request makes one on it. -/
def driftCleared (named : Bool) (s : State) (b : BankId) : BankRecord :=
  if named = true ∧ DriftDue s b ∧ ¬ DriftRefused s b then resynced s b else s.bank b

/-- R135: a COIL clear of the bank sets home owed; `x` is the recorded position it reads. -/
abbrev CoilOwesAt (named : Bool) (s : State) (b : BankId) (x : Position) : Prop :=
  named = true ∧ s.faultValid b .coil = true ∧ (s.bank b).fitted = true ∧ x ≠ some .term ∧ (s.bank b).holder = none

/-- R132 to R135: from `s`, the kinds `ks` have been cleared in `u` on the banks of `on`; `table` is form 0, which clears
the summaries too. COIL is read before DRIFT is resynchronised where `coilFirst` (either order, log 17). A home owed set
in SAFE is TEARDOWN, set before or not (log 16). -/
def FaultsCleared (on : BankId → Bool) (table coilFirst : Bool) (ks : KindSet) (s u : State) : Prop :=
  u =
    { (if ks.getLsbD 0 = true ∧ ks.getLsbD 1 = true then s.redraw else s) with
      banks := u.banks, sup := u.sup, safe := u.safe } ∧
  u.sup = { s.sup with summaries := u.sup.summaries, faults := u.sup.faults, counters := u.sup.counters } ∧
  u.sup.summaries =
    (if table = true then
      s.sup.summaries &&& ~~~(if ks.getLsbD 1 = true ∧ ∃ b, DriftRefused s b then ks &&& ~~~2#6 else ks)
     else s.sup.summaries) ∧
  (∀ b, u.faultsOf b =
    if on b = true then
      s.faultsOf b &&& ~~~(if ks.getLsbD 1 = true ∧ DriftRefused s b then ks &&& ~~~2#6 else ks)
    else s.faultsOf b) ∧
  (∀ b k, u.counter b k =
    if on b = true ∧ kindIn k ks = true ∧ ¬ (k = .drift ∧ DriftRefused s b) then 0 else s.counter b k) ∧
  (∀ b, u.bank b =
    { driftCleared (on b && ks.getLsbD 1) s b with
      homeOwed :=
        (driftCleared (on b && ks.getLsbD 1) s b).homeOwed ||
          decide (CoilOwesAt (on b && ks.getLsbD 0) s b
            (if coilFirst = true then (s.bank b).position
             else (driftCleared (on b && ks.getLsbD 1) s b).position)) }) ∧
  u.safe =
    if s.safe.state = .safe ∧ ∃ b,
        ((on b && ks.getLsbD 1) = true ∧ DriftDue s b ∧ ¬ DriftRefused s b ∧ s.readback b ≠ some .term ∧
          (s.bank b).holder = none) ∨
        CoilOwesAt (on b && ks.getLsbD 0) s b
          (if coilFirst = true then (s.bank b).position
           else (driftCleared (on b && ks.getLsbD 1) s b).position) then
      { s.safe with state := .teardown }
    else s.safe

/-! ## Arrival, evaluation and retries of a sequencer (R83 to R85, R99, R107, R109) -/

/-- The step lies within the region of the settings (R78). -/
def InRegion (c : SeqSettings) (n : StepId) : Prop := c.regionFirst ≤ n ∧ n ≤ c.regionLast

/-- R83, steps 1 to 3: from `s`, the sequencer has arrived at step `n` in `v`. -/
def ArrivesAt (st : Station) (n : StepId) (loopback : Bool) (s v : State) : Prop :=
  v = { s with seqs := v.seqs, events := v.events } ∧ (∀ other, other ≠ st → v.seq other = s.seq other) ∧
  v.seq st =
    { cfg := (s.seq st).cfg
      run :=
        { s.run st with
          cursor := n, copy := s.step n, jumpTaken := false, applied := ⟨false, false⟩, stalled := ⟨none, none⟩
          changes := [], lastMark := if (s.step n).mark = true then some n else (s.run st).lastMark
          groupCounter :=
            if (s.seqCfg st).group.map Prod.fst = some n ∧ loopback = false then (s.seqCfg st).groupCount
            else (s.run st).groupCounter } } ∧
  v.events = if (s.step n).mark = true then (s.raise (markEvent st)).events else s.events

/-- R96: from `w`, the sequencer has become FAULTED in `u`. -/
def BecameFaulted (st : Station) (pl : Option Plane) (why : SeqFaultReason) (w u : State) : Prop :=
  u =
    (w.setRun st
      { w.run st with
        state := .faulted, fault := some ⟨(w.run st).cursor, pl, why⟩, changes := [], applied := ⟨false, false⟩
        stalled := ⟨none, none⟩ }).raise (faultEvent st)

/-- R99: a plane that stalls joins the stalled planes with its call. -/
def withStall (st : Station) (pl : Plane) (o : PlaneOutcome) (x : State) : State :=
  match o with
  | .stalled c => x.setRun st { x.run st with stalled := (x.run st).stalled.set pl (some c) }
  | .passed | .applied | .faulted _ => x

/-- R99: from `v`, one plane of an APPLY copy has been evaluated in `w`; with a fault it gave, if any. -/
def PlaneEvaluated (st : Station) (pl : Plane) (v w : State) (fault : Option SeqFaultReason) : Prop :=
  (∀ why, (evalPlane st pl v).1 = .faulted why →
    fault = some why ∧ BecameFaulted st (some pl) why (evalPlane st pl v).2 w) ∧
  ((∀ why, (evalPlane st pl v).1 ≠ .faulted why) →
    fault = none ∧ w = withStall st pl (evalPlane st pl v).1 (evalPlane st pl v).2)

/-- R84, R107: from `x`, where the evaluation faulted on no plane, the sequencer has taken its state in `u`. -/
def TakesState (st : Station) (x u : State) : Prop :=
  ((x.run st).stalled ≠ ⟨none, none⟩ →
    u = (x.setRun st { x.run st with state := .stalled }).raise (stallEvent st)) ∧
  ((x.run st).stalled = ⟨none, none⟩ → (x.run st).changes ≠ [] →
    u = x.setRun st { x.run st with state := .waiting }) ∧
  ((x.run st).stalled = ⟨none, none⟩ → (x.run st).changes = [] →
    u = x.setRun st { x.run st with state := .dwelling, dwell := 1 })

/-- R99: from `w`, plane B of an evaluation whose plane A gave no fault has been taken, and R84 applied, in `u`. -/
def SecondEvaluated (st : Station) (w u : State) : Prop :=
  ∃ x fault, PlaneEvaluated st .b w x fault ∧ (fault ≠ none → u = x) ∧ (fault = none → TakesState st x u)

/-- R99, R107: from `v`, an APPLY copy has been evaluated, no other call coming between, in `u`. -/
def Evaluated (st : Station) (v u : State) : Prop :=
  ∃ w fault, PlaneEvaluated st .a v w fault ∧ (fault ≠ none → u = w) ∧ (fault = none → SecondEvaluated st w u)

/-- R109: from `v`, a JUMP copy with target `t` has been evaluated in `u`. -/
def JumpEvaluated (st : Station) (t : StepId) (v u : State) : Prop :=
  (holds v st (v.run st).copy.cond .a = true ∧ holds v st (v.run st).copy.cond .b = true →
    (InRegion (v.seqCfg st) t →
      u = v.setRun st { v.run st with jumpTaken := true, state := .dwelling, dwell := 1 }) ∧
    (¬ InRegion (v.seqCfg st) t → BecameFaulted st none .region v u)) ∧
  (¬ (holds v st (v.run st).copy.cond .a = true ∧ holds v st (v.run st).copy.cond .b = true) →
    u = v.setRun st { v.run st with state := .dwelling, dwell := 1 })

/-- R108: the acceptance call of a stalled plane, made again. -/
def askAgain (st : Station) (pl : Plane) (call : StalledCall) (r : RouteId) (s : State) : PlaneOutcome × State :=
  match call with
  | .makeCall => askMake st pl r s
  | .swapCall => askSwap st pl r s

/-- R85, R108: from `s`, the retry of one plane has been made in `w`, if it is stalled; with a fault it gave, if any. -/
def PlaneRetried (st : Station) (pl : Plane) (s w : State) (fault : Option SeqFaultReason) : Prop :=
  ((s.run st).stalled.get pl = none → fault = none ∧ w = s) ∧
  ∀ call r, (s.run st).stalled.get pl = some call → (s.run st).copy.field pl = .route r →
    ∀ o x, askAgain st pl call r s = (o, x) →
      (o = .applied →
        fault = none ∧ w = x.setRun st { x.run st with stalled := (x.run st).stalled.set pl none }) ∧
      (∀ why, o = .faulted why → fault = some why ∧ BecameFaulted st (some pl) why x w) ∧
      (∀ c, o = .stalled c → fault = none ∧ w = x)

/-- R85: from `w`, plane B of the retries has been taken, and R84 applied, in `u`; with a change accepted the state is
WAITING, whether or not the other plane's change has ended (R85 against R107, log 31). -/
def SecondRetried (st : Station) (w u : State) : Prop :=
  ∃ x fault, PlaneRetried st .b w x fault ∧ (fault ≠ none → u = x) ∧
    (fault = none →
      ((x.run st).stalled ≠ ⟨none, none⟩ → u = x) ∧
      ((x.run st).stalled = ⟨none, none⟩ → (x.run st).changes ≠ [] →
        u = x.setRun st { x.run st with state := .waiting }) ∧
      ((x.run st).stalled = ⟨none, none⟩ → (x.run st).changes = [] →
        u = x.setRun st { x.run st with state := .dwelling, dwell := (x.run st).copyDwell }))

/-- The requests that a broadcast executes, by code (R157). -/
def executedInBroadcast : List (Byte × (Request → Instr)) :=
  [(0x03, .setSettings), (0x51, .clearEvents), (0x60, .safeEnter), (0x61, .safeExit), (0x62, .nodeReset),
   (0x63, .forget)]

/-- The requests of the table that a broadcast does not execute (R157). -/
def keptFromBroadcast : List (Byte × (Request → Instr)) :=
  [(0x01, .ident), (0x02, .getSettings), (0x10, .loadBank), (0x11, .readBank), (0x12, .loadRoute),
   (0x13, .readRoute), (0x14, .loadSteps), (0x15, .readSteps)] ++
  [(0x20, .openPath), (0x21, .closePath), (0x22, .swapPath), (0x23, .cancelChange), (0x24, .readPaths),
   (0x25, .readQueue)] ++
  [(0x30, .setSequencer), (0x31, .readSequencer), (0x32, .seqRun), (0x33, .seqHold), (0x34, .seqResume),
   (0x35, .seqStop), (0x36, .armDivert)] ++
  [(0x40, .claim), (0x41, .release), (0x42, .readClaims), (0x50, .readEvents), (0x52, .readFaults),
   (0x53, .clearFaults)]

/-! ## Invariants of a step -/

/-- R144, R171: MUTE1 and MUTE2 are asserted exactly outside NORMAL, and ALERT outside NORMAL or while a kind in the
alert mask has its summary set. -/
def OutputsHold (s : State) : Prop :=
  (s.chamber.mute1 = true ↔ s.safe.state ≠ .normal) ∧ (s.chamber.mute2 = true ↔ s.safe.state ≠ .normal) ∧
  (s.chamber.alert = true ↔ (s.sup.summaries &&& s.settings.alertMask ≠ 0 ∨ s.safe.state ≠ .normal))

/-- R148, R152: the bad-frame count is at most 255, the forward list holds at most 4 frames, and the node address, if
there is one, is 1 to 15. -/
def RingRecordHolds (s : State) : Prop :=
  s.ring.badFrames ≤ 255 ∧ s.ring.forward.length ≤ 4 ∧ s.ring.address ≠ some 0

/-- R41: the tracker is shut, open or closing held, each with the values of its row; the model's mark that the budget end
is due (log 2) is set of an open one with budget 1 alone. -/
def TrackerHolds (t : Tracker) : Prop :=
  t = { isOpen := false, tag := none, budget := 0, closingHeld := false } ∨
  (t.isOpen = true ∧ t.tag ≠ none ∧ 1 ≤ t.budget ∧ t.budget ≤ 4095 ∧ t.closingHeld = false ∧
    (t.due = true → t.budget = 1)) ∨
  t = { isOpen := true, tag := none, budget := 0, closingHeld := true }

/-- R41, for both Window Trackers. -/
def WindowRecordsHold (s : State) : Prop := TrackerHolds s.trackers.a ∧ TrackerHolds s.trackers.b

/-- R78, R79: the settings are ones that SET_SEQUENCER admits. -/
def SettingsAdmitted (c : SeqSettings) : Prop :=
  InRegion c c.start ∧ (∀ n, c.stop = some n → InRegion c n) ∧ InRegion c c.divertTarget ∧
  ∀ a b, c.group = some (a, b) → InRegion c a ∧ InRegion c b ∧ a ≤ b

/-- R88, for one sequencer: its settings are admitted and, in any state other than IDLE, its cursor lies within its
region, and so does the target of a jump it has taken. -/
def CursorHolds (q : Sequencer) : Prop :=
  SettingsAdmitted q.cfg ∧
  (q.run.state ≠ .idle →
    InRegion q.cfg q.run.cursor ∧
      ∀ t, q.run.copy.kind = .jump t → q.run.jumpTaken = true → InRegion q.cfg t)

/-- R88: for both sequencers. -/
def CursorsHold (s : State) : Prop := CursorHolds s.seqs.s1 ∧ CursorHolds s.seqs.s2

end Sys2Proof.Machine
end

