-- ==== Sys2Proof/Certificates/Slice0/Obligations.lean ====
section
/-! DEFINITION. The statements for the provers, from the numbered rules of spec/. -/

section

open Sys2Proof Sys2Proof.Machine

/-! ## The queue, the outcome and the invariants of a step -/

/-- For every command c and state s, the step of s with c at the front of its queue is exec of c on s with the queue's
rest. -/
def Obligations.StepRunsFrontCommand : Prop :=
  ∀ (c : Instr) (rest : List Instr) (s : State),
    step { s with pending := c :: rest } = exec c { s with pending := rest }

/-- With no command waiting, a step is one of the timer ends that are due, and with none due it lets one tick of 10 µs
pass; held in reset, it changes nothing (the model's choice, logs 1, 2, 3 and 7). -/
def Obligations.EmptyQueueLetsTimePass : Prop :=
  ∀ s : State, s.pending = [] →
    (s.inReset = false → dueEvents s = [] → step s = .next (s.elapse 1)) ∧
    (s.inReset = false → dueEvents s ≠ [] → ∃ c ∈ dueEvents s, step s = exec c s.redraw) ∧
    (s.inReset = true → step s = .next s)

/-- Every command answers a next state from every state: none faults and none is refused. That this holds of commands
whose operands are ill formed or do not fit the state, of timer ends sent before their time, and of a part held in reset
is the model's choice (logs 2, 7 and 9). -/
def Obligations.EveryCommandCompletes : Prop := ∀ (c : Instr) (s : State), Completes (exec c s)

/-- No command changes the queue of waiting commands or the bank sense lines: that there is such a queue, and that the
sense lines are pins which no command writes, is the model's choice (logs 1 and 4). -/
def Obligations.CommandsKeepQueueAndPins : Prop :=
  ∀ (c : Instr) (s t : State), exec c s = .next t → t.pending = s.pending ∧ t.lines = s.lines

/-- Every step keeps the outputs as R144 and R171 give them: MUTE1 and MUTE2 asserted exactly outside NORMAL, ALERT
outside NORMAL or while a kind in the alert mask has its summary set. -/
def Obligations.OutputsInvariant : Prop := ∀ s : State, OutputsHold s → AllNext OutputsHold (step s)

/-- Every step keeps the Ring Interface record within R148 and R152: a bad-frame count of at most 255, at most 4 frames
in the forward list, and a node address that is none or 1 to 15. Every step keeps each Window Tracker shut, open or
closing held, with the values of its row in R41; an open one whose budget end is due has budget 1 until that is taken
(the model's choice, log 2). -/
def Obligations.RingRecordInvariant : Prop :=
  (∀ s : State, RingRecordHolds s → AllNext RingRecordHolds (step s)) ∧
  ∀ s : State, WindowRecordsHold s → AllNext WindowRecordsHold (step s)

/-- R88's law, as an invariant that every step keeps: in any state other than IDLE a List Sequencer's cursor lies within
its region, its settings being ones R79 admits and a taken jump's target within the region. -/
def Obligations.CursorInRegionInvariant : Prop := ∀ s : State, CursorsHold s → AllNext CursorsHold (step s)

/-- The reset state has the invariants above. -/
def Obligations.InvariantsAtReset : Prop :=
  OutputsHold State.reset ∧ RingRecordHolds State.reset ∧ WindowRecordsHold State.reset ∧ CursorsHold State.reset

/-! ## Frames as bytes -/

/-- The bytes of a REQUEST of the sizes of R149, taken from ring-in, are taken as that request: every field of the
header, the station, the code, the parameters, the status and the response data is read back. -/
def Obligations.RequestBytesRoundTrip : Prop :=
  ∀ (code : Byte) (f : Request), f.wellFormed = true →
    headerOf (requestFrame code f) = f.hdr ∧
    payloadOf (requestFrame code f) = requestPayload code f ∧
    requestOf f.hdr (requestPayload code f) = f ∧
    ∀ s : State, receiveBytes (requestFrame code f) s = takeRequest code (unitOf code) f s

/-- The bytes of a CADENCE, WINDOW_OPEN, WINDOW_SHUT or ENUMERATE frame, taken from ring-in, are taken as that frame. -/
def Obligations.OtherFrameBytesRoundTrip : Prop :=
  (∀ (f : CadenceFrame) (s : State), receiveBytes (cadenceBytes f) s = receive (deliverCadence f) s) ∧
  (∀ (h : Header) (tag planes : Byte) (budget : Word16) (s : State),
    receiveBytes (windowOpenBytes h tag planes budget) s = receive (deliverWindowOpen h tag planes budget) s) ∧
  (∀ (h : Header) (tag : Byte) (s : State),
    receiveBytes (windowShutBytes h tag) s = receive (deliverWindowShut h tag) s) ∧
  (∀ (h : Header) (next flags : Byte) (s : State),
    receiveBytes (enumerateBytes h next flags) s = receive (deliverEnumerate h next flags) s)

/-! ## Identity, settings, events -/

/-- IDENT answers OK with the part code 6420, revision 1, the address under which the request was taken, and the counts
(R162); GET_SETTINGS with the 18 bytes of R163 (R165); READ_EVENTS with the 36 bytes of R168, clearing nothing. Each
changes nothing, and refuses parameters with E_ARG and FFH. -/
def Obligations.IdentSettingsEventsAnswer : Prop :=
  ∀ (f : Request) (s : State), ForThisNode f s →
    (f.params = [] →
      exec (.ident f) s =
        .next (answered 0x01 f ⟨.ok, bytes2 6420 ++ [1, f.hdr.dest.setWidth 8, 24, 128, 16] ++ bytes2 512 ++ [2, 4]⟩ s)) ∧
    (f.params ≠ [] → exec (.ident f) s = .next (answered 0x01 f ⟨.eArg, [0xFF]⟩ s)) ∧
    (f.params = [] →
      exec (.getSettings f) s =
        .next (answered 0x02 f
          ⟨.ok, [byteOf s.settings.keepalivePeriod, byteOf s.settings.muteGrace, byteOf s.settings.interval,
              byteOf s.settings.missThreshold, byteOf s.settings.bypass.toNat] ++
            bytes2 s.settings.hotThreshold ++ bytes2 s.settings.strayThreshold ++ bytes2 s.settings.coilMin ++
            bytes2 s.settings.coilMax ++ [byteOf s.settings.alertMask.toNat, byteOf s.settings.safeMask.toNat] ++
            bytes3 s.settings.attentionMask.toNat⟩ s)) ∧
    (f.params ≠ [] → exec (.getSettings f) s = .next (answered 0x02 f ⟨.eArg, [0xFF]⟩ s)) ∧
    (f.params = [] →
      exec (.readEvents f) s =
        .next (answered 0x50 f
          ⟨.ok, bytes3 s.events.flags.toNat ++ [byteOf s.ring.badFrames] ++ changeFailureBytes s.events.lastFailure ++
            overrunBytes s.events.lastOverrun ++ seqFaultBytes s.seqs.s1.run.fault ++
            seqFaultBytes s.seqs.s2.run.fault ++ bytes2 (stepOptVal s.seqs.s1.run.lastMark) ++
            bytes2 (stepOptVal s.seqs.s2.run.lastMark) ++ fixtureChangeBytes s.events.lastFixture⟩ s)) ∧
    (f.params ≠ [] → exec (.readEvents f) s = .next (answered 0x50 f ⟨.eArg, [0xFF]⟩ s))

/-- SET_SETTINGS whose 18 bytes carry a record within the ranges of R163 writes all twelve fields together and answers OK
with no data; beside the record only the visit cycles are rescheduled, as R123 states for the new interval (R164). A
parameter length other than 18 is refused with E_ARG and data 0, a field outside its coding with the field's position
(the lowest where there are several: the model's choice, log 28), and a coil min above coil max with 9; then nothing is
written. -/
def Obligations.SetSettingsWrites : Prop :=
  ∀ (f : Request) (s : State), ForThisNode f s →
    (∀ x : Settings, SettingsInRange x → f.params = settingsBytes x →
      ∃ u : State, exec (.setSettings f) s = .next (answered 0x03 f ⟨.ok, []⟩ u) ∧
        u = retimeVisits { s with settings := x } ∧ u.settings = x ∧
        u = { s with settings := x, sup := u.sup } ∧ u.sup.faults = s.sup.faults ∧
        u.sup.counters = s.sup.counters ∧ u.sup.summaries = s.sup.summaries ∧ u.sup.samples = s.sup.samples) ∧
    (f.params.length ≠ 18 → exec (.setSettings f) s = .next (answered 0x03 f ⟨.eArg, [0x00]⟩ s)) ∧
    (f.params.length = 18 →
      (∀ n, SettingsFieldBad f.params n → (∀ m, m < n → ¬ SettingsFieldBad f.params m) →
        exec (.setSettings f) s = .next (answered 0x03 f ⟨.eArg, [byteOf n]⟩ s)) ∧
      ((∀ n, ¬ SettingsFieldBad f.params n) → val2 f.params 11 < val2 f.params 9 →
        exec (.setSettings f) s = .next (answered 0x03 f ⟨.eArg, [0x09]⟩ s)))

/-- A SET_SETTINGS from stopped to a non-zero interval starts a cycle at once, and so does one that finds the interval
timer, with no cycle under way, at or past the new interval; one to 0 stops the visits at once when no cycle is under
way, and lets a cycle under way run on with the interval timer stopped; any other changes no visit (R123). The cycle
that starts visits the lowest fitted bank with no leg in flight, its three readings sampled, or with none ends at once
(R123, R124). The visit position that stands while no cycle is under way, and the value of an interval timer that does
not run, are kept: the model's choice, log 22. -/
def Obligations.SettingsRetimeVisits : Prop :=
  ∀ (f : Request) (s : State) (x : Settings), ForThisNode f s → SettingsInRange x → f.params = settingsBytes x →
    (x.interval ≠ 0 →
      (s.sup.cycle = .stopped ∨
        (s.sup.cycle = .waiting ∧ s.sup.running = true ∧ x.interval * 100 ≤ s.sup.elapsed)) →
      (∀ b, (s.bank b).fitted = true → s.inFlight b = false →
        (∀ y, y < b → (s.bank y).fitted = false ∨ s.inFlight y = true) →
        exec (.setSettings f) s =
          .next (answered 0x03 f ⟨.ok, []⟩
            { s with
              settings := x
              sup :=
                { s.sup with
                  cycle := .visiting, position := b, elapsed := 0, running := true
                  visit :=
                    some { sample := ⟨(s.lines.get b).coil, (s.lines.get b).detector, s.readback b⟩, left := 4 } } })) ∧
      ((∀ b, (s.bank b).fitted = false ∨ s.inFlight b = true) →
        exec (.setSettings f) s =
          .next (answered 0x03 f ⟨.ok, []⟩
            { s with
              settings := x
              sup :=
                { s.sup with cycle := .waiting, position := 0, elapsed := 0, running := true, visit := none } }))) ∧
    (x.interval = 0 → s.sup.cycle ≠ .visiting →
      exec (.setSettings f) s =
        .next (answered 0x03 f ⟨.ok, []⟩
          { s with settings := x, sup := { s.sup with cycle := .stopped, running := false } })) ∧
    (x.interval = 0 → s.sup.cycle = .visiting →
      exec (.setSettings f) s =
        .next (answered 0x03 f ⟨.ok, []⟩ { s with settings := x, sup := { s.sup with running := false } })) ∧
    (x.interval ≠ 0 →
      (s.sup.cycle = .visiting ∨ (s.sup.cycle = .waiting ∧ s.sup.elapsed < x.interval * 100)) →
      exec (.setSettings f) s = .next (answered 0x03 f ⟨.ok, []⟩ { s with settings := x }))

/-- CLEAR_EVENTS clears each named flag and no other, sets the bad-frame count to 0 when RING_ERROR is named and keeps it
otherwise, keeps the detail records, and answers OK with the event map after the request; a wrong length or a map with
bit 22 or 23 set is refused with E_ARG and FFH and clears nothing (R169). -/
def Obligations.ClearEventsClears : Prop :=
  ∀ (f : Request) (s : State), ForThisNode f s →
    (∀ m : BitVec 22, f.params = bytes3 m.toNat →
      exec (.clearEvents f) s =
        .next (answered 0x51 f ⟨.ok, bytes3 (s.events.flags &&& ~~~m).toNat⟩
          { s with
            events := { s.events with flags := s.events.flags &&& ~~~m }
            ring := { s.ring with badFrames := if m.getLsbD 20 then 0 else s.ring.badFrames } })) ∧
    (f.params.length ≠ 3 ∨ 4194303 < val3 f.params 0 →
      exec (.clearEvents f) s = .next (answered 0x51 f ⟨.eArg, [0xFF]⟩ s))

/-! ## The Bank Map -/

/-- LOAD_BANK on a bank with no holder and no leg in flight writes the configuration and, if the action is set, the life
count; a bank it fits takes the readback as its recorded position, owes a home unless that is TERM, and has its hot
deferrals cleared; a bank it unfits becomes UNKNOWN with no home owed; a fitted bank keeps all three (R4 to R7). The
answer is OK with the recorded position and home owed, as they are before the drivers act (the model's choice, log 10).
No other record changes; fitting a bank that owes a home in SAFE returns the Safe Controller to TEARDOWN (R143). The
drivers then choose (R57, R142). The 4-byte values are most significant byte first (the model's choice, log 26). -/
def Obligations.LoadBankWrites : Prop :=
  ∀ (f : Request) (s : State) (q : BankParams), ForThisNode f s → BankParamsInRange q → f.params = bankLoadBytes q →
    (s.bank q.bank).holder = none → s.inFlight q.bank = false →
    ∃ u : State,
      exec (.loadBank f) s =
        .next (answered 0x10 f ⟨.ok, [positionByte (u.bank q.bank).position, boolByte (u.bank q.bank).homeOwed]⟩
          (react u)) ∧
      u = { s with banks := u.banks, safe := u.safe } ∧
      (∀ b, b ≠ q.bank → u.bank b = s.bank b) ∧
      (u.bank q.bank).fitted = q.fitted ∧ (u.bank q.bank).plane = q.plane ∧
      (u.bank q.bank).throwsFitted = q.throwsFitted ∧ (u.bank q.bank).operate = q.operate ∧
      (u.bank q.bank).settle = q.settle ∧ (u.bank q.bank).lifeLimit = q.lifeLimit ∧
      (u.bank q.bank).lifeCount = (if q.setCount then q.lifeCount else (s.bank q.bank).lifeCount) ∧
      (u.bank q.bank).holder = none ∧
      ((s.bank q.bank).fitted = false → q.fitted = true →
        (u.bank q.bank).position = s.readback q.bank ∧
        ((u.bank q.bank).homeOwed = true ↔ s.readback q.bank ≠ some .term) ∧
        (u.bank q.bank).hotDeferrals = 0 ∧
        u.safe = (if s.safe.state = .safe ∧ s.readback q.bank ≠ some .term
                  then { s.safe with state := .teardown } else s.safe)) ∧
      ((s.bank q.bank).fitted = true → q.fitted = false →
        (u.bank q.bank).position = none ∧ (u.bank q.bank).homeOwed = false ∧
        (u.bank q.bank).hotDeferrals = 0 ∧ u.safe = s.safe) ∧
      ((s.bank q.bank).fitted = q.fitted →
        (u.bank q.bank).position = (s.bank q.bank).position ∧
        (u.bank q.bank).homeOwed = (s.bank q.bank).homeOwed ∧
        (u.bank q.bank).hotDeferrals = (s.bank q.bank).hotDeferrals ∧ u.safe = s.safe)

/-- LOAD_BANK on a bank that has a holder, or that is the bank of a leg in flight, is refused with E_STATE, the holder
slot or FFH, and the plane of the leg or FFH (R5). Before that, a parameter length other than 15 is refused with E_ARG
and 0, and else the first parameter of the table outside its values with E_ARG and its position (R4). Nothing changes. -/
def Obligations.LoadBankRefused : Prop :=
  ∀ (f : Request) (s : State), ForThisNode f s →
    (∀ q : BankParams, BankParamsInRange q → f.params = bankLoadBytes q →
      ((s.bank q.bank).holder ≠ none ∨ s.inFlight q.bank = true) →
      exec (.loadBank f) s =
        .next (answered 0x10 f
          ⟨.eState, [slotByte (s.bank q.bank).holder,
            match s.flightPlane q.bank with | some p => planeByte p | none => 0xFF]⟩ s)) ∧
    (f.params.length ≠ 15 → exec (.loadBank f) s = .next (answered 0x10 f ⟨.eArg, [0x00]⟩ s)) ∧
    (f.params.length = 15 → ∀ n, BankFieldBad f.params n → (∀ m, m < n → ¬ BankFieldBad f.params m) →
      exec (.loadBank f) s = .next (answered 0x10 f ⟨.eArg, [byteOf n]⟩ s))

/-- READ_BANK answers OK with the bank record in the order of R13, and refuses a wrong length or a bank above 23 with
E_ARG and 0. READ_ROUTE answers OK with the route number, the record as LOAD_ROUTE codes it and the number of non-FREE
slots on the route, and refuses a wrong length or a route above 127 with E_ARG and FFH (R18). READ_STEPS answers OK with
the records of the steps asked for, 5 bytes each, those past step 511 left out, and refuses a wrong length, a first step
above 511 or a count outside 1..8 with E_ARG and FFH (R77). None changes anything else. The 4-byte values are most
significant byte first (the model's choice, log 26). -/
def Obligations.ReadTablesAnswer : Prop :=
  ∀ (f : Request) (s : State), ForThisNode f s →
    (∀ b : BankId, f.params = [byteOf b.1] →
      exec (.readBank f) s =
        .next (answered 0x11 f
          ⟨.ok, [boolByte (s.bank b).fitted, planeByte (s.bank b).plane, byteOf (s.bank b).throwsFitted,
              byteOf (s.bank b).operate, byteOf (s.bank b).settle] ++ bytes4 (s.bank b).lifeLimit ++
            bytes4 (s.bank b).lifeCount ++
            [positionByte (s.bank b).position, slotByte (s.bank b).holder, boolByte (s.bank b).homeOwed,
             byteOf (s.bank b).hotDeferrals, boolByte (decide (s.faultsOf b ≠ 0)),
             boolByte ((s.faultsOf b).getLsbD 0 && decide ((s.bank b).position ≠ some .term)),
             boolByte (s.inFlight b)]⟩ s)) ∧
    (f.params.length ≠ 1 ∨ 23 < val1 f.params 0 →
      exec (.readBank f) s = .next (answered 0x11 f ⟨.eArg, [0x00]⟩ s)) ∧
    (∀ n : RouteId, f.params = [byteOf n.1] →
      exec (.readRoute f) s =
        .next (answered 0x13 f
          ⟨.ok, [byteOf n.1, boolByte (s.route n).defined, routeStationByte (s.route n).station,
              byteOf (s.route n).port, planeByte (s.route n).plane, endpointByte (s.route n).endpoint,
              byteOf (s.route n).extraSettle, byteOf (s.route n).legs.length] ++
            (s.route n).legs.flatMap (fun l => [byteOf l.bank.1, byteOf (l.thr.1 + 1)]) ++
            [byteOf ((List.finRange 16).countP fun p =>
              decide ((s.path p).state ≠ .free) && decide ((s.path p).route = some n))]⟩ s)) ∧
    (f.params.length ≠ 1 ∨ 127 < val1 f.params 0 →
      exec (.readRoute f) s = .next (answered 0x13 f ⟨.eArg, [0xFF]⟩ s)) ∧
    (∀ first count : Nat, first ≤ 511 → 1 ≤ count → count ≤ 8 → f.params = bytes2 first ++ [byteOf count] →
      exec (.readSteps f) s =
        .next (answered 0x15 f
          ⟨.ok, ((List.finRange 512).filter fun n => decide (first ≤ n.1) && decide (n.1 < first + count)).flatMap
            fun n => stepBytes (s.step n)⟩ s)) ∧
    (f.params.length ≠ 3 ∨ 511 < val2 f.params 0 ∨ val1 f.params 2 < 1 ∨ 8 < val1 f.params 2 →
      exec (.readSteps f) s = .next (answered 0x15 f ⟨.eArg, [0xFF]⟩ s))

/-- A readback gives TERM when the TERM contact alone is closed, Tn when the Tn contact alone is closed, and no valid
reading in every other case (R3). -/
def Obligations.ReadbackOfContacts : Prop :=
  ∀ c : BitVec 9,
    (readingOf c = some .term ↔ c = 1#9) ∧
    (∀ t : Fin 8, readingOf c = some (.thr t) ↔ c = 1#9 <<< (t.1 + 1)) ∧
    (readingOf c = none ↔ c ≠ 1#9 ∧ ∀ t : Fin 8, c ≠ 1#9 <<< (t.1 + 1))

/-! ## The Route Table and Step Memory -/

/-- LOAD_ROUTE that passes R15 and finds no non-FREE slot recording the route replaces the whole record, or with defined
= 0 takes the undefined values, whatever follows; a route that such a slot records is refused with E_STATE and the
lowest such slot (R16). Before that, checks 1 and 2 of R15 are refused with E_ARG and FFH, and check 3 with E_ARG and
the index of the first leg that fails. No other state changes. -/
def Obligations.LoadRouteWrites : Prop :=
  ∀ (f : Request) (s : State) (n : RouteId), ForThisNode f s →
    (∀ x : RouteRecord, RouteLoadable s x → f.params = routeBytes n x →
      (∀ p, (s.path p).state ≠ .free → (s.path p).route ≠ some n) →
      exec (.loadRoute f) s = .next (answered 0x12 f ⟨.ok, []⟩ (s.setRoute n x))) ∧
    (∀ more, f.params = byteOf n.1 :: 0 :: more → (∀ p, (s.path p).state ≠ .free → (s.path p).route ≠ some n) →
      exec (.loadRoute f) s = .next (answered 0x12 f ⟨.ok, []⟩ (s.setRoute n RouteRecord.undefined))) ∧
    (∀ p : Slot,
      (∃ more, f.params = byteOf n.1 :: 0 :: more) ∨ (∃ x : RouteRecord, RouteLoadable s x ∧ f.params = routeBytes n x) →
      (s.path p).state ≠ .free → (s.path p).route = some n →
      (∀ q, q < p → (s.path q).state = .free ∨ (s.path q).route ≠ some n) →
      exec (.loadRoute f) s = .next (answered 0x12 f ⟨.eState, [byteOf p.1]⟩ s)) ∧
    (RouteFieldsBad f.params → exec (.loadRoute f) s = .next (answered 0x12 f ⟨.eArg, [0xFF]⟩ s)) ∧
    (∀ (before after : List (Byte × Byte)) (b t : Byte),
      ¬ RouteFieldsBad f.params →
      f.params = [byteOf n.1, 1] ++ (f.params.drop 2).take 6 ++ (before ++ (b, t) :: after).flatMap (fun l => [l.1, l.2]) →
      (∀ (i : Nat) (c d : Byte), before[i]? = some (c, d) →
        ¬ LegBytesBad s (planeOfVal (val1 f.params 4)) ((before.take i).map Prod.fst) c d) →
      LegBytesBad s (planeOfVal (val1 f.params 4)) (before.map Prod.fst) b t →
      exec (.loadRoute f) s = .next (answered 0x12 f ⟨.eArg, [byteOf before.length]⟩ s))

/-- LOAD_STEPS that passes R76 writes every record it carries, from the first step on and no other, and answers OK with no
data. A wrong length, count or first step is refused with E_ARG and FFH; then the first record that fails a test with
E_ARG and its index within the request. Nothing is written then. -/
def Obligations.LoadStepsWrites : Prop :=
  ∀ (f : Request) (s : State), ForThisNode f s →
    (∀ (first : Nat) (rs : List StepRecord), 1 ≤ rs.length → rs.length ≤ 8 → first + rs.length ≤ 512 →
      (∀ r ∈ rs, ∀ d, r.kind = .apply d → 1 ≤ d ∧ d ≤ 4096) →
      f.params = bytes2 first ++ [byteOf rs.length] ++ rs.flatMap stepBytes →
      ∃ u : State,
        exec (.loadSteps f) s = .next (answered 0x14 f ⟨.ok, []⟩ u) ∧ u = { s with steps := u.steps } ∧
        ∀ n : StepId, u.step n = if first ≤ n.1 then rs.getD (n.1 - first) (s.step n) else s.step n) ∧
    (f.params.length ≠ 3 + 5 * val1 f.params 2 ∨ val1 f.params 2 < 1 ∨ 8 < val1 f.params 2 ∨ 511 < val2 f.params 0 ∨
        512 < val2 f.params 0 + val1 f.params 2 →
      exec (.loadSteps f) s = .next (answered 0x14 f ⟨.eArg, [0xFF]⟩ s)) ∧
    (f.params.length = 3 + 5 * val1 f.params 2 → val1 f.params 2 ≤ 8 → 512 ≥ val2 f.params 0 + val1 f.params 2 →
      val2 f.params 0 ≤ 511 →
      ∀ i, i < val1 f.params 2 → StepRecordBad f.params (3 + 5 * i) →
        (∀ j, j < i → ¬ StepRecordBad f.params (3 + 5 * j)) →
        exec (.loadSteps f) s = .next (answered 0x14 f ⟨.eArg, [byteOf i]⟩ s))

/-! ## Paths and the Change Queue -/

/-- OPEN_PATH in NORMAL on a route that passes the checks of R22 is accepted into the lowest-numbered FREE slot: the slot
is FORMING with the route, the station and origin REQUEST; every bank of the route is held by the slot and owes no home;
a MAKE entry, WAITING, joins the tail of the queue with the route's legs in reverse order; the answer is QUEUED with the
slot and the entries of the plane ahead (R24, R52, R53). Nothing else changes before the drivers choose (R57). -/
def Obligations.OpenPathAccepted : Prop :=
  ∀ (f : Request) (s : State) (st : Station) (r : RouteId) (p : Slot), ForThisNode f s → NamesStation f st →
    s.safe.state = .normal → f.params = [byteOf r.1] → Acceptable s st (s.route r) none [] → LowestFree s p →
    ∃ u : State,
      exec (.openPath f) s =
        .next (answered 0x20 f ⟨.queued, [byteOf p.1, byteOf (aheadOn s (s.route r).plane)]⟩ (react u)) ∧
      u = { s with banks := u.banks, paths := u.paths, queue := u.queue } ∧
      u.path p =
        { state := .forming, route := some r, station := some st, origin := some .request, legsDone := 0,
          closeOwed := false, closeOwedCause := none, failure := none, prior := none, priorLegs := 0,
          settleTimer := none, established := none } ∧
      (∀ q, q ≠ p → u.path q = s.path q) ∧
      (∀ b, u.bank b =
        if b ∈ (s.route r).legs.map RouteLeg.bank then { s.bank b with holder := some p, homeOwed := false }
        else s.bank b) ∧
      u.queue = s.queue ++
        [{ kind := .makeChange, old := none, new := some p, plane := (s.route r).plane, origin := .request st,
           active := false,
           plan := (s.route r).legs.reverse.map fun l => ⟨l.bank, .thr l.thr, .makePart, .newSlot⟩ }]

/-- When OPEN_PATH and SWAP_PATH are refused, nothing changed. A bad station field, length or operand gives E_ARG and FFH,
and outside NORMAL E_SAFE (R21). For SWAP_PATH then the old slot's tests in order: FREE gives E_STATE and 00H, another
station's path E_CLAIM and FFH, and a FORMING, CLOSING or FAILED path E_STATE and its state (R26). Then the first of the
checks 1 to 6 of R22 that fails gives its answer (with R17 and the conflict map of R23), and with all passed and no FREE
slot the answer is E_FULL. In check 1 of a SWAP, R17's answer comes before that of differing planes (the model's choice,
log 30). -/
def Obligations.OpenPathRefused : Prop :=
  ∀ (f : Request) (s : State), ForThisNode f s →
    (f.station ≠ 1 ∧ f.station ≠ 2 ∨ f.params.length ≠ 1 ∨ 127 < val1 f.params 0 →
      exec (.openPath f) s = .next (answered 0x20 f ⟨.eArg, [0xFF]⟩ s)) ∧
    (∀ (st : Station) (r : RouteId), NamesStation f st → f.params = [byteOf r.1] →
      (s.safe.state ≠ .normal → exec (.openPath f) s = .next (answered 0x20 f ⟨.eSafe, []⟩ s)) ∧
      (s.safe.state = .normal →
        (∀ k x, FirstFailure s st (s.route r) none none [] k x →
          exec (.openPath f) s = .next (answered 0x20 f x s)) ∧
        (Acceptable s st (s.route r) none [] → (∀ q, (s.path q).state ≠ .free) →
          exec (.openPath f) s = .next (answered 0x20 f ⟨.eFull, []⟩ s)))) ∧
    (f.station ≠ 1 ∧ f.station ≠ 2 ∨ f.params.length ≠ 2 ∨ 15 < val1 f.params 0 ∨ 127 < val1 f.params 1 →
      exec (.swapPath f) s = .next (answered 0x22 f ⟨.eArg, [0xFF]⟩ s)) ∧
    (∀ (st : Station) (o : Slot) (r : RouteId), NamesStation f st → f.params = [byteOf o.1, byteOf r.1] →
      (s.safe.state ≠ .normal → exec (.swapPath f) s = .next (answered 0x22 f ⟨.eSafe, []⟩ s)) ∧
      (s.safe.state = .normal →
        ((s.path o).state = .free → exec (.swapPath f) s = .next (answered 0x22 f ⟨.eState, [0x00]⟩ s)) ∧
        ((s.path o).state ≠ .free → (s.path o).station ≠ some st →
          exec (.swapPath f) s = .next (answered 0x22 f ⟨.eClaim, [0xFF]⟩ s)) ∧
        ((s.path o).station = some st →
          ((s.path o).state = .forming → exec (.swapPath f) s = .next (answered 0x22 f ⟨.eState, [0x01]⟩ s)) ∧
          ((s.path o).state = .closing → exec (.swapPath f) s = .next (answered 0x22 f ⟨.eState, [0x04]⟩ s)) ∧
          ((s.path o).state = .failed → exec (.swapPath f) s = .next (answered 0x22 f ⟨.eState, [0x05]⟩ s)) ∧
          (∀ r0 : RouteId, (s.path o).state = .live ∨ (s.path o).state = .settling → (s.path o).route = some r0 →
            (∀ k x, FirstFailure s st (s.route r) (some o) (some (s.route r0).plane) (s.route r0).legs k x →
              exec (.swapPath f) s = .next (answered 0x22 f x s)) ∧
            ((s.route r0).plane = (s.route r).plane →
              Acceptable s st (s.route r) (some o) (s.route r0).legs → (∀ q, (s.path q).state ≠ .free) →
              exec (.swapPath f) s = .next (answered 0x22 f ⟨.eFull, []⟩ s))))))

/-- SWAP_PATH in NORMAL from the station's LIVE or SETTLING path to a route of the same plane that passes the checks of
R22: the old slot becomes CLOSING with its prior state and prior legs done; the new slot, the lowest FREE, is FORMING
with the retained legs done; retained, changed and new-only banks are held by the new slot, the new-only ones owing no
home any more, and no other field of a bank changes; a SWAP entry, WAITING, joins the tail; the answer is QUEUED with
both slots and the entries ahead (R26, R27). Nothing else changes before the drivers choose (R57). -/
def Obligations.SwapPathAccepted : Prop :=
  ∀ (f : Request) (s : State) (st : Station) (o p : Slot) (r r0 : RouteId), ForThisNode f s → NamesStation f st →
    s.safe.state = .normal → f.params = [byteOf o.1, byteOf r.1] →
    ((s.path o).state = .live ∨ (s.path o).state = .settling) → (s.path o).station = some st →
    (s.path o).route = some r0 → (s.route r0).plane = (s.route r).plane →
    Acceptable s st (s.route r) (some o) (s.route r0).legs → LowestFree s p →
    ∃ u : State,
      exec (.swapPath f) s =
        .next (answered 0x22 f ⟨.queued, [byteOf o.1, byteOf p.1, byteOf (aheadOn s (s.route r).plane)]⟩ (react u)) ∧
      u = { s with banks := u.banks, paths := u.paths, queue := u.queue } ∧
      u.path o =
        { s.path o with
          state := .closing
          prior := some (if (s.path o).state = .live then .live else .settling)
          priorLegs := (s.path o).legsDone, settleTimer := none
          legsDone := (s.route r0).legs.countP fun l => (s.route r).legs.any fun k => decide (k.bank = l.bank) } ∧
      u.path p =
        { state := .forming, route := some r, station := some st, origin := some .request,
          legsDone := (s.route r).legs.countP fun l => (s.route r0).legs.contains l,
          closeOwed := false, closeOwedCause := none, failure := none, prior := none, priorLegs := 0,
          settleTimer := none, established := none } ∧
      (∀ q, q ≠ o → q ≠ p → u.path q = s.path q) ∧
      (∀ b, u.bank b =
        if b ∈ (s.route r).legs.map RouteLeg.bank then
          (if b ∈ (s.route r0).legs.map RouteLeg.bank then { s.bank b with holder := some p }
           else { s.bank b with holder := some p, homeOwed := false })
        else s.bank b) ∧
      u.queue = s.queue ++
        [{ kind := .swapChange, old := some o, new := some p, plane := (s.route r).plane, origin := .request st,
           active := false, plan := swapPlan (s.route r0).legs (s.route r).legs }]

/-- The plan of a SWAP: the changed and old-only banks are broken in the old route's leg order, the changed counting for
neither slot and the old-only for the old slot; then the changed and new-only banks are made in the new route's reverse
leg order, counting for the new slot; retained legs have no leg (R27, R53). -/
def Obligations.SwapPlanOrder : Prop :=
  ∀ olds news : List RouteLeg,
    swapPlan olds news =
      (olds.filter fun l => decide (l ∉ news)).map
          (fun l => (⟨l.bank, .term, .breakPart,
            if l.bank ∈ news.map RouteLeg.bank then .neither else .oldSlot⟩ : PlanLeg)) ++
        (news.filter fun l => decide (l ∉ olds)).reverse.map
          (fun l => (⟨l.bank, .thr l.thr, .makePart, .newSlot⟩ : PlanLeg))

/-- CLOSE_PATH in NORMAL on the station's LIVE, SETTLING or FAILED path with close owed no: a BREAK is accepted. The path
is CLOSING with its prior state and prior legs done and its settle timer stopped; a BREAK entry, WAITING, with the banks
the slot holds in leg order joins the tail; holders are not changed; the answer is QUEUED with the slot and the entries
ahead (R28, R36). -/
def Obligations.ClosePathBreaks : Prop :=
  ∀ (f : Request) (s : State) (st : Station) (p : Slot) (r : RouteId), ForThisNode f s → NamesStation f st →
    s.safe.state = .normal → f.params = [byteOf p.1] →
    ((s.path p).state = .live ∨ (s.path p).state = .settling ∨ (s.path p).state = .failed) →
    (s.path p).station = some st → (s.path p).route = some r → (s.path p).closeOwed = false →
    ∃ u : State,
      exec (.closePath f) s =
        .next (answered 0x21 f ⟨.queued, [byteOf p.1, byteOf (aheadOn s (s.route r).plane)]⟩ (react u)) ∧
      u = { s with paths := u.paths, queue := u.queue } ∧
      (u.path p).state = .closing ∧
      (u.path p).prior =
        some (match (s.path p).state with | .live => .live | .settling => .settling | _ => .failed) ∧
      (u.path p).priorLegs = (s.path p).legsDone ∧ (u.path p).settleTimer = none ∧
      (u.path p).legsDone = ((s.route r).legs.countP fun l => decide ((s.bank l.bank).holder ≠ some p)) ∧
      (u.path p).failure = (s.path p).failure ∧ (u.path p).established = (s.path p).established ∧
      (∀ q, q ≠ p → u.path q = s.path q) ∧
      u.queue = s.queue ++
        [{ kind := .breakChange, old := some p, new := none, plane := (s.route r).plane, origin := .request st,
           active := false,
           plan := (((s.route r).legs.map RouteLeg.bank).filter fun b => decide ((s.bank b).holder = some p)).map
             fun b => ⟨b, .term, .breakPart, .oldSlot⟩ }]

/-- CLOSE_PATH in NORMAL on a slot whose change is ACTIVE sets close owed with cause CLOSE_PATH and answers QUEUED with
FFH, changing nothing else (R34, R36). On the new slot of a WAITING SWAP it answers OK and the entry, in its place,
becomes a BREAK of the old slot with every leg of its route in order: the new slot takes the FREE values, its retained
and changed banks return to the old slot, its new-only banks are released, the old slot stays CLOSING with the legs done
of R28, and a current path on the new slot is none, the pending record, matched by its slots (log 11), keeping the old
slot alone (R36, R84, R95). It is refused on a FREE slot (E_STATE 00H), on the other station's path (E_CLAIM FFH), on a
CLOSING path (E_STATE 04H) and where close owed is yes (E_STATE 06H). Outside NORMAL it answers OK and changes nothing;
before all that, a bad station field, a length other than 1 or a slot above 15 is refused with E_ARG and FFH (R21). -/
def Obligations.ClosePathOther : Prop :=
  (∀ (f : Request) (s : State), ForThisNode f s →
    (f.station ≠ 1 ∧ f.station ≠ 2 ∨ f.params.length ≠ 1 ∨ 15 < val1 f.params 0) →
    exec (.closePath f) s = .next (answered 0x21 f ⟨.eArg, [0xFF]⟩ s)) ∧
  ∀ (f : Request) (s : State) (st : Station) (p : Slot), ForThisNode f s → NamesStation f st → f.params = [byteOf p.1] →
    (s.safe.state ≠ .normal → exec (.closePath f) s = .next (answered 0x21 f ⟨.ok, []⟩ s)) ∧
    (s.safe.state = .normal →
      ((s.path p).state = .free → exec (.closePath f) s = .next (answered 0x21 f ⟨.eState, [0x00]⟩ s)) ∧
      ((s.path p).state ≠ .free → (s.path p).station ≠ some st →
        exec (.closePath f) s = .next (answered 0x21 f ⟨.eClaim, [0xFF]⟩ s)) ∧
      ((s.path p).state = .closing → (s.path p).station = some st →
        exec (.closePath f) s = .next (answered 0x21 f ⟨.eState, [0x04]⟩ s)) ∧
      ((s.path p).state ≠ .free → (s.path p).state ≠ .closing → (s.path p).station = some st →
        (s.path p).closeOwed = true → exec (.closePath f) s = .next (answered 0x21 f ⟨.eState, [0x06]⟩ s)) ∧
      (∀ e : Entry, (s.path p).state = .forming → (s.path p).station = some st → (s.path p).closeOwed = false →
        s.entryNaming p = some e →
        (e.active = true →
          exec (.closePath f) s =
            .next (answered 0x21 f ⟨.queued, [byteOf p.1, 0xFF]⟩
              (s.setPath p { s.path p with closeOwed := true, closeOwedCause := some .closePath }))) ∧
        (∀ o : Slot, e.active = false → e.kind = .swapChange → e.old = some o → e.new = some p → o ≠ p →
          ∃ (u : State) (before after : List Entry),
            exec (.closePath f) s = .next (answered 0x21 f ⟨.ok, []⟩ (react u)) ∧
            u.path p = PathRecord.free ∧
            u.path o =
              { s.path o with
                legsDone := (s.slotLegs o).countP fun l => decide ((u.bank l.bank).holder ≠ some o) } ∧
            (∀ q, q ≠ o → q ≠ p → u.path q = s.path q) ∧
            (∀ b, u.bank b =
              if (s.bank b).holder = some p then
                (if b ∈ (s.slotLegs o).map RouteLeg.bank then { s.bank b with holder := some o }
                 else
                   { s.bank b with
                     holder := none
                     homeOwed := (s.bank b).homeOwed || decide ((s.bank b).position ≠ some .term) })
              else s.bank b) ∧
            s.queue = before ++ e :: after ∧ e ∉ before ∧
            u.queue = before ++
              { e with
                kind := .breakChange, new := none
                plan :=
                  (((s.slotLegs o).map RouteLeg.bank).filter fun b => decide ((u.bank b).holder = some o)).map
                    fun b => ⟨b, .term, .breakPart, .oldSlot⟩ } :: after ∧
            u.flagSet .pathFreed = true ∧
            (s.headOf e.plane = some e → (u.driver e.plane).held = none ∧ (u.driver e.plane).waiting = none) ∧
            CurrentsDrop p s u ∧
            ∀ x, e.origin = .sequencer x →
              (u.run x).changes = (s.run x).changes.map fun c => if c.new = some p then { c with new := none } else c)))

/-- CLOSE_PATH in NORMAL on the FORMING slot of a WAITING MAKE, and CANCEL_CHANGE on it in any state, cancel the MAKE:
the slot takes the FREE values, every bank it held is released and owes a home if it is not at TERM, the entry leaves
the queue and PATH_FREED is raised. A List Sequencer that made it is given the notice: its pending record goes (matched
by its slots, log 11), it dwells if it was WAITING for that alone, and a current path on the slot is none (R55, R84,
R95). CLOSE_PATH answers OK with no data, CANCEL_CHANGE OK with the slot's state FREE (R35 to R37). -/
def Obligations.CancelMake : Prop :=
  ∀ (f : Request) (s : State) (st : Station) (p : Slot) (e : Entry), ForThisNode f s → NamesStation f st →
    f.params = [byteOf p.1] → (s.path p).state = .forming → (s.path p).station = some st →
    s.entryNaming p = some e → e.kind = .makeChange → e.new = some p → e.old = none → e.active = false →
    ∃ u : State,
      (s.safe.state = .normal → (s.path p).closeOwed = false →
        exec (.closePath f) s = .next (answered 0x21 f ⟨.ok, []⟩ (react u))) ∧
      exec (.cancelChange f) s = .next (answered 0x23 f ⟨.ok, [0x00]⟩ (react u)) ∧
      u.path p = PathRecord.free ∧ (∀ q, q ≠ p → u.path q = s.path q) ∧
      (∀ b, (s.bank b).holder = some p →
        (u.bank b).holder = none ∧ (u.bank b).position = (s.bank b).position ∧
        ((u.bank b).homeOwed = true ↔ (s.bank b).homeOwed = true ∨ (s.bank b).position ≠ some .term)) ∧
      (∀ b, (s.bank b).holder ≠ some p → u.bank b = s.bank b) ∧
      u.queue = s.queue.erase e ∧ u.flagSet .pathFreed = true ∧ Cancelled e s u

/-- CANCEL_CHANGE on a WAITING BREAK returns the slot to its prior state, holders unchanged, with the settle timer at
the route's full extra settle for SETTLING; the answer is OK with that state. On either slot of a WAITING SWAP it frees
the new slot, releases its new-only banks, gives its retained and changed banks back to the old slot and returns the old
slot to its prior state, which is the answer (R35, R37). A List Sequencer that made the entry is given the notice: its
pending record goes (matched by its slots, log 11), it dwells if it was WAITING for that alone, and after a SWAP its
current path is the old slot again, a sequencer that did not make it losing a current path on the new slot (R55, R84,
R95). (With an extra settle of 0 the slot is SETTLING with its timer at 0, whose end is a step of its own: the model's
reading, log 12; a path returned to LIVE keeps its established cadence, as R35 says and R19 does not: log 27.) It is
refused where no entry names the slot (E_STATE 00H), where the path is the other station's (E_CLAIM FFH) and where the
entry is ACTIVE (E_STATE 01H), and before that for a bad station field, a length other than 1 or a slot above 15 (E_ARG
FFH, R21), nothing changed. -/
def Obligations.CancelBreak : Prop :=
  (∀ (f : Request) (s : State), ForThisNode f s →
    (f.station ≠ 1 ∧ f.station ≠ 2 ∨ f.params.length ≠ 1 ∨ 15 < val1 f.params 0) →
    exec (.cancelChange f) s = .next (answered 0x23 f ⟨.eArg, [0xFF]⟩ s)) ∧
  ∀ (f : Request) (s : State) (st : Station) (p : Slot), ForThisNode f s → NamesStation f st → f.params = [byteOf p.1] →
    (∀ (e : Entry) (r : RouteId) (x : PriorState), s.entryNaming p = some e → e.kind = .breakChange →
      e.old = some p → e.new = none → e.active = false → (s.path p).station = some st → (s.path p).route = some r →
      (s.path p).prior = some x →
      ∃ u : State,
        exec (.cancelChange f) s =
          .next (answered 0x23 f
            ⟨.ok, [match x with | .settling => 0x02 | .live => 0x03 | .failed => 0x05]⟩ (react u)) ∧
        u.banks = s.banks ∧ u.queue = s.queue.erase e ∧ (∀ q, q ≠ p → u.path q = s.path q) ∧
        (u.path p).state = (match x with | .settling => .settling | .live => .live | .failed => .failed) ∧
        (x = .settling → (u.path p).settleTimer = some ((s.route r).extraSettle * 10)) ∧
        (u.path p).legsDone = (if x = .failed then (s.path p).priorLegs else (s.route r).legs.length) ∧
        (u.path p).established = (s.path p).established ∧ (u.path p).failure = (s.path p).failure ∧ Cancelled e s u) ∧
    (∀ (e : Entry) (o n : Slot) (r : RouteId) (x : PriorState), s.entryNaming p = some e → e.kind = .swapChange →
      e.old = some o → e.new = some n → o ≠ n → e.active = false → (s.path p).station = some st →
      (s.path o).route = some r → (s.path o).prior = some x → x ≠ .failed →
      ∃ u : State,
        exec (.cancelChange f) s =
          .next (answered 0x23 f ⟨.ok, [if x = .settling then 0x02 else 0x03]⟩ (react u)) ∧
        u.path n = PathRecord.free ∧
        u.path o =
          (if x = .settling then
            { s.path o with
              state := .settling, settleTimer := some ((s.route r).extraSettle * 10)
              legsDone := (s.route r).legs.length }
           else { s.path o with state := .live, legsDone := (s.route r).legs.length }) ∧
        (∀ q, q ≠ o → q ≠ n → u.path q = s.path q) ∧
        (∀ b, u.bank b =
          if (s.bank b).holder = some n then
            (if b ∈ (s.route r).legs.map RouteLeg.bank then { s.bank b with holder := some o }
             else
               { s.bank b with
                 holder := none
                 homeOwed := (s.bank b).homeOwed || decide ((s.bank b).position ≠ some .term) })
          else s.bank b) ∧
        u.queue = s.queue.erase e ∧ u.flagSet .pathFreed = true ∧ Cancelled e s u) ∧
    (s.entryNaming p = none → exec (.cancelChange f) s = .next (answered 0x23 f ⟨.eState, [0x00]⟩ s)) ∧
    (∀ e : Entry, s.entryNaming p = some e → (s.path p).station ≠ some st →
      exec (.cancelChange f) s = .next (answered 0x23 f ⟨.eClaim, [0xFF]⟩ s)) ∧
    (∀ e : Entry, s.entryNaming p = some e → (s.path p).station = some st → e.active = true →
      exec (.cancelChange f) s = .next (answered 0x23 f ⟨.eState, [0x01]⟩ s))

/-- READ_PATHS answers OK with the 8 bytes of R40 for each slot asked for, those past P15 left out, and changes nothing; a
wrong length, a first slot above 15 or a count outside 1..7 is refused with E_ARG and FFH (R40). READ_QUEUE answers OK
with the 4 bytes of each tracker, the 2 bytes of each driver, the number of entries and the 7 bytes of each entry asked
for, and changes nothing; a wrong length, a first position above 15 or a count above 6 is refused with E_ARG and FFH
(R74). An open tracker whose budget end is due shows budget 1 (the model's choice, log 2). -/
def Obligations.ReadPathsAndQueueAnswer : Prop :=
  (∀ x : PathRecord, pathBytes x =
    [match x.state with
     | .free => 0x00 | .forming => 0x01 | .settling => 0x02 | .live => 0x03 | .closing => 0x04 | .failed => 0x05,
     match x.route with | some r => byteOf r.1 | none => 0xFF,
     match x.station, x.origin with
     | some .s1, some .request => 0x11 | some .s2, some .request => 0x21
     | some .s1, some .sequencer => 0x12 | some .s2, some .sequencer => 0x22 | _, _ => 0x00,
     byteOf x.legsDone,
     byteOf ((if x.closeOwed = true then 0x01 else 0) +
       (match x.prior with | none => 0 | some .settling => 0x10 | some .live => 0x20 | some .failed => 0x30) +
       (if x.closeOwedCause = some .fixtureLoss then 0x40 else 0)),
     match x.failure with
     | none => 0x00 | some .makeFailed => 0x01 | some .bankFault => 0x02 | some .fixtureLost => 0x03
     | some .breakFailed => 0x04] ++
      bytes2 (match x.established with | some n => n.toNat | none => 0xFFFF)) ∧
  (∀ x : Tracker, trackerBytes x =
    [if x.isOpen = true then (if x.closingHeld = true then 0x02 else 0x01) else 0x00,
     match x.tag with | some g => g | none => 0xFF] ++ bytes2 x.budget) ∧
  (∀ x : Driver, driverBytes x =
    [byteOf ((match x.phase with | .idle => 0 | .driving => 1 | .settling => 2 | .checking => 3) +
       (match x.waiting with | none => 0 | some .noFit => 0x10 | some .hot => 0x20) +
       (if x.pause.isSome = true then 0x40 else 0) + (if x.forced = true then 0x80 else 0)),
     match x.leg, x.held, x.pause with
     | some l, _, _ => byteOf l.bank.1
     | none, some l, _ => byteOf l.bank.1
     | none, none, some y => byteOf y.leg.bank.1
     | none, none, none => 0xFF]) ∧
  (∀ (i : Nat) (e : Entry), entryBytes i e =
    [byteOf i, match e.kind with | .makeChange => 0x01 | .breakChange => 0x02 | .swapChange => 0x03,
     byteOf ((match e.plane with | .a => 0 | .b => 1) + (if e.active = true then 0x10 else 0)),
     match e.origin with
     | .request .s1 => 0x11 | .request .s2 => 0x21 | .sequencer .s1 => 0x12 | .sequencer .s2 => 0x22 | .part => 0x30,
     match e.old with | some p => byteOf p.1 | none => 0xFF,
     match e.new with | some p => byteOf p.1 | none => 0xFF, byteOf e.plan.length]) ∧
  ∀ (f : Request) (s : State), ForThisNode f s →
    (∀ first count : Nat, first ≤ 15 → 1 ≤ count → count ≤ 7 → f.params = [byteOf first, byteOf count] →
      exec (.readPaths f) s =
        .next (answered 0x24 f
          ⟨.ok, ((List.finRange 16).filter fun p => decide (first ≤ p.1) && decide (p.1 < first + count)).flatMap
            fun p => pathBytes (s.path p)⟩ s)) ∧
    (f.params.length ≠ 2 ∨ 15 < val1 f.params 0 ∨ val1 f.params 1 < 1 ∨ 7 < val1 f.params 1 →
      exec (.readPaths f) s = .next (answered 0x24 f ⟨.eArg, [0xFF]⟩ s)) ∧
    (∀ first count : Nat, first ≤ 15 → count ≤ 6 → f.params = [byteOf first, byteOf count] →
      exec (.readQueue f) s =
        .next (answered 0x25 f
          ⟨.ok, trackerBytes s.trackers.a ++ trackerBytes s.trackers.b ++ driverBytes s.drivers.a ++
            driverBytes s.drivers.b ++ [byteOf s.queue.length] ++
            (List.range count).flatMap fun i =>
              match s.queue[first + i]? with
              | some e => entryBytes (first + i) e
              | none => []⟩ s)) ∧
    (f.params.length ≠ 2 ∨ 15 < val1 f.params 0 ∨ 6 < val1 f.params 1 →
      exec (.readQueue f) s = .next (answered 0x25 f ⟨.eArg, [0xFF]⟩ s))

/-- A path that goes LIVE takes the last cadence number as its established cadence and raises PATH_LIVE; a SETTLING path
does so at the end of its settle timer (R31), and no other path record changes then but by the time that has passed.
The time left passes first (the model's choice, log 2). -/
def Obligations.SettleTimerEndGoesLive : Prop :=
  ∀ (s : State) (p : Slot) (n : Nat), s.inReset = false → (s.path p).state = .settling →
    (s.path p).settleTimer = some n →
    ∃ t : State, exec (.pathSettleTimerEnd p) s = .next t ∧
      t.path p = { s.path p with state := .live, settleTimer := none, established := s.ring.lastCadence } ∧
      t.flagSet .pathLive = true ∧ (∀ q, q ≠ p → t.path q = (s.elapse n).path q) ∧
      t.banks = s.banks ∧ t.queue = s.queue ∧ t.drivers = (s.elapse n).drivers ∧ t.seqs = s.seqs

/-! ## Windows -/

/-- A leg fits when its bank's tracker is open and not closing held and ten times the bank's operate plus settle time is
at most the remaining budget (R48). A driver that is not IDLE, forced, waiting for an opening, without an open window or
outside NORMAL chooses nothing, and so does one with no entry and no home to take (R57). The driver that takes the head
of its plane takes the first leg of its plan: a break leg at TERM is released, one with a valid COIL fault is skipped and
its bank recorded UNKNOWN (R59), and it chooses again; any other leg is held for the next opening when it does not fit
(R60), fails the entry INHIBITED when it makes a bank with a fault (R61), fails it HOT or is deferred and held when the
detector is hot (R62), and else starts (R63, R68), a WAITING head becoming ACTIVE and the old slot of a SWAP with no break
leg left going FREE. After an event the drivers choose in NORMAL and start nothing in GRACE and SAFE (R71, R143); which
plane chooses first is open (the model's free order, log 3), and a HOT fault that comes valid at the deferral outside the
safe mask fails the entry (log 13). -/
def Obligations.LegFitRule : Prop :=
  (∀ (s : State) (b : BankId),
    legFits s b = true ↔
      (s.tracker (s.bank b).plane).isOpen = true ∧ (s.tracker (s.bank b).plane).closingHeld = false ∧
      10 * ((s.bank b).operate + (s.bank b).settle) ≤ (s.tracker (s.bank b).plane).budget) ∧
  (∀ s : State,
    (s.safe.state = .grace ∨ s.safe.state = .safe → react s = s) ∧
    (s.safe.state = .normal →
      react s = choosePlane .b (choosePlane .a s) ∨ react s = choosePlane .b (choosePlane .a s.redraw) ∨
        react s = choosePlane .a (choosePlane .b s.redraw))) ∧
  ∀ (s : State) (pl : Plane),
    (¬ MayChoose s pl → choosePlane pl s = s) ∧
    (s.headOf pl = none → (∀ b, ¬ HomeDue s pl b) → choosePlane pl s = s) ∧
    ∀ e, TakesHead s pl e →
      (e.plan = [] → choosePlane pl s = chooseLoop pl (chooseFuel s - 1) (completeEntry e s)) ∧
      ∀ l rest, e.plan = l :: rest →
        (l.target = .term → (s.bank l.bank).position = some .term →
          choosePlane pl s = chooseLoop pl (chooseFuel s - 1) (endLeg e l s)) ∧
        (l.target = .term → (s.bank l.bank).position ≠ some .term → s.faultValid l.bank .coil = true →
          choosePlane pl s =
            chooseLoop pl (chooseFuel s - 1) (endLeg e l (s.setBank l.bank { s.bank l.bank with position := none }))) ∧
        (MustBeDriven s l →
          (legFits s l.bank = false →
            choosePlane pl s = s.setDriver pl { s.driver pl with held := some l, waiting := some .noFit }) ∧
          (legFits s l.bank = true → l.target ≠ .term → s.faultsOf l.bank ≠ 0 →
            choosePlane pl s = chooseLoop pl (chooseFuel s - 1) (failEntry e .inhibited (some l.bank) s)) ∧
          (legFits s l.bank = true → l.target = .term ∨ s.faultsOf l.bank = 0 →
            (DetectorHot s l.bank → s.faultValid l.bank .hot = true →
              choosePlane pl s =
                chooseLoop pl (chooseFuel s - 1) (failEntry e .hot (some l.bank) (deferred s l.bank))) ∧
            (DetectorHot s l.bank → s.faultValid l.bank .hot = false →
              (takeMiss l.bank .hot (deferred s l.bank)).faultValid l.bank .hot = false →
              choosePlane pl s =
                (takeMiss l.bank .hot (deferred s l.bank)).setDriver pl
                  { s.driver pl with held := some l, waiting := some .hot }) ∧
            (DetectorHot s l.bank → s.faultValid l.bank .hot = false →
              (takeMiss l.bank .hot (deferred s l.bank)).faultValid l.bank .hot = true →
              kindIn .hot s.settings.safeMask = false →
              choosePlane pl s =
                chooseLoop pl (chooseFuel s - 1)
                  (failEntry e .hot (some l.bank) (takeMiss l.bank .hot (deferred s l.bank)))) ∧
            (¬ DetectorHot s l.bank →
              (e.old = none ∨ (∃ k ∈ e.plan, k.part = .breakPart) →
                choosePlane pl s =
                  startLeg pl { bank := l.bank, target := l.target, source := .entry }
                    (s.setQueue (replaceFirst e { e with active := true } s.queue))) ∧
              (∀ o, e.old = some o → (∀ k ∈ e.plan, k.part = .makePart) →
                choosePlane pl s =
                  startLeg pl { bank := l.bank, target := l.target, source := .entry }
                    ((freeSlot o s).setQueue (replaceFirst e { e with active := true, old := none } s.queue))))))

/-- A good, well-formed WINDOW_OPEN at an addressed node completes: each tracker it names is open with its tag and budget
whatever its state was, the tracker of a plane not named is unchanged, and the frame joins the forward list with its hop
count raised (R43, R153). A driver of a named plane that is not in forced mode waits no more, has passed over no home, and
chooses work at once (R57, R58); a forced one is not touched (R72). Where both planes are named, which opens first is the
model's free order (log 3). -/
def Obligations.WindowOpenOpens : Prop :=
  ∀ (h : Header) (tag planes : Byte) (budget : Word16) (s : State), Ready s → s.ring.address ≠ none →
    (planes = 1 ∨ planes = 2 ∨ planes = 3) → 1 ≤ budget.toNat → budget.toNat ≤ 4095 →
    ∃ (t : State) (u : State),
      exec (.windowOpen h tag planes budget) s = .next t ∧
      t = (finishFrame (windowOpenBytes (hopped h) tag planes budget) u).driveOutputs ∧
      (planes ≠ 2 → t.trackers.a = { isOpen := true, tag := some tag, budget := budget.toNat, closingHeld := false }) ∧
      (planes = 2 → t.trackers.a = s.trackers.a) ∧
      (planes ≠ 1 → t.trackers.b = { isOpen := true, tag := some tag, budget := budget.toNat, closingHeld := false }) ∧
      (planes = 1 → t.trackers.b = s.trackers.b) ∧
      t.ring.forward = s.ring.forward ++ [windowOpenBytes (hopped h) tag planes budget] ∧
      (planes = 1 → u = openWindow tag budget.toNat .a s) ∧ (planes = 2 → u = openWindow tag budget.toNat .b s) ∧
      (planes = 3 →
        u = openWindow tag budget.toNat .b (openWindow tag budget.toNat .a s.redraw) ∨
          u = openWindow tag budget.toNat .a (openWindow tag budget.toNat .b s.redraw)) ∧
      ∀ (pl : Plane) (v : State),
        openWindow tag budget.toNat pl v =
          (if (v.driver pl).forced = true then
            v.setTracker pl { isOpen := true, tag := some tag, budget := budget.toNat, closingHeld := false }
           else
             choosePlane pl
               ((v.setTracker pl
                   { isOpen := true, tag := some tag, budget := budget.toNat, closingHeld := false }).setDriver pl
                 { v.driver pl with waiting := none, passed := 0 }))

/-- A WINDOW_OPEN whose planes are not 1 to 3, or whose budget is 0 or above 4095, is a bad frame at an addressed node:
the bad-frame count goes up by 1, saturating at 255, RING_ERROR is raised, the frame is forwarded with its bytes
unchanged, the keepalive timer restarts, the outputs follow, and nothing else changes (R42, R150, R160). -/
def Obligations.WindowOpenMalformed : Prop :=
  ∀ (h : Header) (tag planes : Byte) (budget : Word16) (s : State), Ready s → s.ring.address ≠ none →
    (planes = 0 ∨ 3 < planes.toNat ∨ budget = 0 ∨ 4095 < budget.toNat) →
    exec (.windowOpen h tag planes budget) s =
        .next (finishFrame (windowOpenBytes h tag planes budget) (countBad s)).driveOutputs ∧
      countBad s =
        ({ s with ring := { s.ring with badFrames := min 255 (s.ring.badFrames + 1) } } : State).raise .ringError ∧
      ∀ bytes : List Byte,
        finishFrame bytes (countBad s) =
          { countBad s with
            ring :=
              { (countBad s).ring with
                forward := s.ring.forward ++ [bytes]
                keepalive :=
                  if s.settings.keepalivePeriod = 0 then none else some (s.settings.keepalivePeriod * 100) } }

/-- A WINDOW_SHUT at an addressed node closes each open window that carries its tag and no other: the tracker becomes
closing held when its driver is in the drive phase of a leg that is not forced, and shut otherwise (R45, R46; that R46
also asks that the leg was started in the window is not tested: the model's reading, log 21). Each closing that finds a
leg driving or settling raises WINDOW_OVERRUN (R67); with none such no event is raised. No driver changes. -/
def Obligations.WindowShutCloses : Prop :=
  ∀ (h : Header) (tag : Byte) (s : State), Ready s → s.ring.address ≠ none →
    ∃ t : State, exec (.windowShut h tag) s = .next t ∧ t.drivers = s.drivers ∧
      t.ring.forward = s.ring.forward ++ [windowShutBytes (hopped h) tag] ∧
      (∀ pl : Plane,
        (((s.tracker pl).isOpen = false ∨ (s.tracker pl).closingHeld = true ∨ (s.tracker pl).tag ≠ some tag) →
          t.tracker pl = s.tracker pl) ∧
        ((s.tracker pl).isOpen = true → (s.tracker pl).closingHeld = false → (s.tracker pl).tag = some tag →
          t.tracker pl =
            if (s.driver pl).phase = .driving ∧
                ∃ l, (s.driver pl).leg = some l ∧ (l.source = .entry ∨ l.source = .home)
            then { isOpen := true, tag := none, budget := 0, closingHeld := true }
            else { isOpen := false, tag := none, budget := 0, closingHeld := false })) ∧
      (t.flagSet .windowOverrun = true ↔
        s.flagSet .windowOverrun = true ∨
          ∃ pl : Plane, (s.tracker pl).isOpen = true ∧ (s.tracker pl).closingHeld = false ∧
            (s.tracker pl).tag = some tag ∧ (s.driver pl).leg ≠ none ∧
            ((s.driver pl).phase = .driving ∨ (s.driver pl).phase = .settling)) ∧
      ((∀ pl : Plane, (s.tracker pl).tag = some tag → (s.driver pl).leg = none) → t.events = s.events)

/-- The budget end of an open window closes it as R46 states, and raises WINDOW_OVERRUN, with the last overrun record
naming the leg, exactly when the driver is DRIVING or SETTLING (R44, R67); the other plane's tracker only loses the time
that has passed. That the leg was started while the tracker was open, R46's third condition, is not tested (the model's
reading, log 21). The time left passes first (the model's choice, log 2). -/
def Obligations.BudgetEndCloses : Prop :=
  ∀ (s : State) (pl : Plane), s.inReset = false → (s.tracker pl).isOpen = true → (s.tracker pl).closingHeld = false →
    ∃ t : State, exec (.windowBudgetEnd pl) s = .next t ∧
      t.tracker pl =
        (if (s.driver pl).phase = .driving ∧
            ∃ l, (s.driver pl).leg = some l ∧ (l.source = .entry ∨ l.source = .home)
         then { isOpen := true, tag := none, budget := 0, closingHeld := true }
         else { isOpen := false, tag := none, budget := 0, closingHeld := false }) ∧
      (∀ q, q ≠ pl → t.tracker q = (s.elapse (s.tracker pl).timeLeft).tracker q) ∧
      t.drivers = (s.elapse (s.tracker pl).timeLeft).drivers ∧ t.banks = s.banks ∧ t.queue = s.queue ∧
      t.events =
        (match (s.driver pl).leg with
         | some l =>
           if (s.driver pl).phase = .driving ∨ (s.driver pl).phase = .settling then
             { (s.raise .windowOverrun).events with
               lastOverrun := some
                 { bank := l.bank, plane := pl, settling := decide ((s.driver pl).phase = .settling)
                   source := match l.source with | .entry => .entry | .home => .home | _ => .forced } }
           else s.events
         | none => s.events)

/-! ## Legs -/

/-- At the end of a leg's drive the phase becomes SETTLING for the bank's settle time, and a closing held tracker becomes
shut; any other tracker stays as the passing time leaves it (R46, R64). A bank with settle time 0 is SETTLING with no
time left, its readback a step of its own (the model's reading, log 12). The time left passes first (the model's choice,
log 2). -/
def Obligations.DriveEndSettles : Prop :=
  ∀ (s : State) (pl : Plane) (l : FlightLeg), s.inReset = false → (s.driver pl).phase = .driving →
    (s.driver pl).leg = some l →
    ∃ t : State, exec (.legDriveEnd pl) s = .next t ∧
      (t.driver pl).phase = .settling ∧ (t.driver pl).leg = some l ∧
      (t.driver pl).left = (s.bank l.bank).settle * 10 ∧
      t.tracker pl =
        (if (s.tracker pl).closingHeld = true then Tracker.shut
         else (s.elapse (s.driver pl).left).tracker pl) ∧
      t.banks = s.banks ∧ t.queue = s.queue ∧ t.events = s.events ∧ t.sup.faults = s.sup.faults

/-- A readback that equals the target is recorded, counts one operation of the bank (saturating), makes a POSITION pass,
and leaves the driver IDLE with no leg before it chooses again; no other bank's position or life count changes (R65).
Where the life count reaches a life limit other than 0 and WORN is not valid yet, WORN becomes valid, the holder's path
left as it is, and with WORN in the safe mask FAULT joins the causes, in NORMAL safe entry, before the leg is reported
(R33, R65, R130). The leg of an entry then leaves the plan (R29), which outside NORMAL fails an ACTIVE entry that still
heads the queue with SAFE and the bank, an entry whose last leg it was being complete (R71); a home ends (R70), and a
forced break leg releases its bank, freeing the slot with its last (R73). A leg that leaves a plan raises the legs done
of the slot it counts for, a break leg that counts for the old slot clearing the holder; the entry is ACTIVE from then
on, and a SWAP whose break part has ended frees its old slot (R29, R54). With the plan empty the entry completes: a
BREAK's slot goes FREE; a MAKE's or SWAP's new slot goes SETTLING with its settle timer, or with an extra settle of 0
LIVE, or with close owed in NORMAL CLOSING, a BREAK of it joining the queue and PATH_LIVE not raised; a new slot that a
fixture loss has made FAILED keeps its reason, and in NORMAL becomes CLOSING with prior state FAILED by the close owed
(R30, R31, R34, R68). The entry leaves the queue, and the sequencer that made it is given the notice: its pending record
goes (matched by its slots, log 11), and WAITING for this change alone it dwells; a current path on a slot that goes
FREE is none, and no other changes (R55, R84, R95). (Log 2: the time left passes first. Safe entry: the orders are logs
3 and 29, the run-state fields kept log 24; the leg being reported still counts as in flight, so that an ACTIVE head
fails with SAFE and the leg's bank: log 13.) -/
def Obligations.ReadbackMatches : Prop :=
  (∀ (s x : State) (pl : Plane) (l : FlightLeg), s.inReset = false → (s.driver pl).phase = .settling →
    (s.driver pl).leg = some l → s.readback l.bank = some l.target → x = s.elapse (s.driver pl).left →
    ∃ u v y w : State, exec (.legReadback pl) s = .next (react u).driveOutputs ∧
      (u.bank l.bank).position = some l.target ∧
      (u.bank l.bank).lifeCount = min ((s.bank l.bank).lifeCount + 1) 4294967295 ∧
      (s.faultValid l.bank .position = false → u.counter l.bank .position = 0) ∧
      (u.driver pl).phase = .idle ∧ (u.driver pl).leg = none ∧
      (∀ b, b ≠ l.bank → (u.bank b).position = (s.bank b).position ∧ (u.bank b).lifeCount = (s.bank b).lifeCount) ∧
      v =
        { x.setDriver pl { x.driver pl with phase := .checking, left := 0 } with
          banks := v.banks, sup := { x.sup with counters := v.sup.counters } } ∧
      v.bank l.bank =
        { s.bank l.bank with
          position := some l.target, lifeCount := min ((s.bank l.bank).lifeCount + 1) 4294967295 } ∧
      (∀ b, b ≠ l.bank → v.bank b = s.bank b) ∧
      (∀ b k, v.counter b k =
        if b = l.bank ∧ k = .position ∧ s.faultValid b .position = false then 0 else s.counter b k) ∧
      (NewlyWorn s l.bank → BecameValid l.bank .worn v y) ∧ (¬ NewlyWorn s l.bank → y = v) ∧
      w = y.setDriver pl { y.driver pl with phase := .idle, leg := none, left := 0 } ∧
      (∀ e z rest, l.source = .entry → w.headOf pl = some e → e.plan = z :: rest →
        (w.safe.state = .normal → u = endLeg e z w) ∧
        (w.safe.state ≠ .normal →
          (∀ q, (endLeg e z w).headOf pl = some q → q.active = true →
            u = failEntry q .safe (some l.bank) (endLeg e z w)) ∧
          ((∀ q, (endLeg e z w).headOf pl = some q → q.active = false) → u = endLeg e z w))) ∧
      (l.source = .home ∨ l.source = .forcedHome → u = w.setBank l.bank { w.bank l.bank with homeOwed := false }) ∧
      (∀ p, l.source = .forcedBreak p → u = endForcedBreak p l.bank w)) ∧
  (∀ (s : State) (e : Entry) (l : PlanLeg), e.plan = [l] →
    (∀ n, l.counts = .newSlot → e.new = some n →
      endLeg e l s =
        completeEntry { e with active := true, plan := [] }
          ((s.setPath n { s.path n with legsDone := (s.path n).legsDone + 1 }).setQueue
            (replaceFirst e { e with active := true, plan := [] } s.queue))) ∧
    (∀ o, l.counts = .oldSlot → e.old = some o →
      endLeg e l s =
        completeEntry { e with active := true, plan := [] }
          (((s.setBank l.bank { s.bank l.bank with holder := none }).setPath o
              { s.path o with legsDone := (s.path o).legsDone + 1 }).setQueue
            (replaceFirst e { e with active := true, plan := [] } s.queue)))) ∧
  (∀ (s : State) (e : Entry) (l x : PlanLeg) (rest : List PlanLeg), e.plan = l :: x :: rest →
    (e.old = none ∨ (∃ k ∈ x :: rest, k.part = .breakPart) →
      (∀ n, l.counts = .newSlot → e.new = some n →
        endLeg e l s =
          (s.setPath n { s.path n with legsDone := (s.path n).legsDone + 1 }).setQueue
            (replaceFirst e { e with active := true, plan := x :: rest } s.queue)) ∧
      (∀ o, l.counts = .oldSlot → e.old = some o →
        endLeg e l s =
          ((s.setBank l.bank { s.bank l.bank with holder := none }).setPath o
              { s.path o with legsDone := (s.path o).legsDone + 1 }).setQueue
            (replaceFirst e { e with active := true, plan := x :: rest } s.queue)) ∧
      (l.counts = .neither →
        endLeg e l s = s.setQueue (replaceFirst e { e with active := true, plan := x :: rest } s.queue))) ∧
    (∀ o n, e ∈ s.queue → e.old = some o → e.new = some n → o ≠ n → (∀ k ∈ x :: rest, k.part = .makePart) →
      ((endLeg e l s).path o = PathRecord.free ∧ (endLeg e l s).flagSet .pathFreed = true ∧
        { e with active := true, old := none, plan := x :: rest } ∈ (endLeg e l s).queue ∧
        (∀ b, (s.bank b).holder = some o → ((endLeg e l s).bank b).holder = none) ∧
        (endLeg e l s).path n =
          (if l.counts = .newSlot then { s.path n with legsDone := (s.path n).legsDone + 1 } else s.path n)))) ∧
  (∀ (s : State) (e : Entry), e ∈ s.queue → e.plan = [] →
    (NoticeTaken e s (completeEntry e s) ∧ (e.old = none → CurrentsKept s (completeEntry e s)) ∧
      ∀ o, e.old = some o → CurrentsDrop o s (completeEntry e s)) ∧
    (∀ o, e.old = some o → e.new = none →
      (completeEntry e s).path o = PathRecord.free ∧ (∀ q, q ≠ o → (completeEntry e s).path q = s.path q) ∧
      (completeEntry e s).queue = s.queue.erase e ∧ (completeEntry e s).flagSet .pathFreed = true ∧
      ∀ b, ((completeEntry e s).bank b) =
        if (s.bank b).holder = some o then { s.bank b with holder := none } else s.bank b) ∧
    (∀ n r, e.new = some n → e.old ≠ some n → (s.path n).state = .forming → (s.path n).route = some r →
      ((s.path n).closeOwed = false ∨ s.safe.state ≠ .normal →
        (completeEntry e s).queue = s.queue.erase e ∧
        ((s.route r).extraSettle ≠ 0 →
          (completeEntry e s).path n =
            { s.path n with state := .settling, settleTimer := some ((s.route r).extraSettle * 10) }) ∧
        ((s.route r).extraSettle = 0 →
          (completeEntry e s).path n =
              { s.path n with state := .live, settleTimer := none, established := s.ring.lastCadence } ∧
            (completeEntry e s).flagSet .pathLive = true)) ∧
      ((s.path n).closeOwed = true → s.safe.state = .normal →
        ((completeEntry e s).path n).state = .closing ∧ ((completeEntry e s).path n).prior = some .settling ∧
        ((completeEntry e s).path n).closeOwed = false ∧ ((completeEntry e s).path n).closeOwedCause = none ∧
        ∃ y : Entry, (completeEntry e s).queue = s.queue.erase e ++ [y] ∧ y.kind = .breakChange ∧ y.old = some n ∧
          y.new = none ∧ y.active = false ∧
          (∀ c st, (s.path n).closeOwedCause = some c → (s.path n).station = some st →
            y.origin = (match c with | .closePath => .request st | .fixtureLoss => .part)) ∧
          (completeEntry e s).flagSet .pathLive = s.flagSet .pathLive) ∧
      (∀ o, e.old = some o →
        (completeEntry e s).path o = PathRecord.free ∧ (completeEntry e s).flagSet .pathFreed = true) ∧
      ∀ st, e.origin = .sequencer st → (∃ c, (s.run st).changes = [c] ∧ c.new = some n) →
        ((completeEntry e s).run st).changes = [] ∧
        ((s.run st).state = .waiting →
          ((completeEntry e s).run st).state = .dwelling ∧
            ((completeEntry e s).run st).dwell = (s.run st).copyDwell) ∧
        ((s.run st).state ≠ .waiting → ((completeEntry e s).run st).state = (s.run st).state)) ∧
    ∀ n, e.new = some n → e.old ≠ some n → (s.path n).state = .failed → (s.path n).closeOwed = true →
      (s.safe.state ≠ .normal →
        (completeEntry e s).path n = s.path n ∧ (completeEntry e s).queue = s.queue.erase e) ∧
      (s.safe.state = .normal → FailedThenClosing n s (completeEntry e s) (s.queue.erase e)))

/-- A readback that differs from the target is recorded (no valid reading as UNKNOWN), leaves the life count, and makes
a POSITION miss; a forced leg goes into a pause of the bank's operate plus settle time, and any other driver is IDLE
with no leg (R66, R73). No other bank's position or life count changes. A miss that makes POSITION valid fails a LIVE or
SETTLING holder, and with POSITION in the safe mask adds FAULT, in NORMAL safe entry, before the leg's result is taken
(R33, R128, R130). In NORMAL the leg of an entry stays first in its plan while no POSITION fault is valid, and fails the
entry with POSITION when one is; a home is then passed over (R66, R70). Outside NORMAL an entry's leg that differs fails
the ACTIVE head with SAFE and the bank (R71). An entry that fails makes its MAKE slot FAILED with MAKE_FAILED, its BREAK
slot FAILED with BREAK_FAILED, and of a SWAP both, or in the make part the new slot, a remaining old slot going FREE;
once the break part has ended there is no old slot, and the new slot alone goes FAILED, nothing else being freed (R29,
R32). It writes the last change failure record and CHANGE_FAILED, leaves the queue, and the held leg and the wait are
cleared (R69). The sequencer that made it is given the notice: its pending record goes (matched by its slots, log 11),
and WAITING for this change alone it dwells; a current path on a slot that goes FREE is none, and no other changes, one
on a FAILED slot included (R55, R84, R95). A new slot with close owed is CLOSING in NORMAL instead, a BREAK of it
joining the queue; so is one that a fixture loss has made FAILED, its reason kept (R34). (Log 2: the time left passes
first; a leg's part where the plan is empty: log 14; safe entry: the orders are logs 3 and 29, the run-state fields kept
log 24; the leg being reported still counts as in flight, so that a POSITION fault that enters the safe state ends the
head with SAFE and the leg's bank, not with POSITION: log 13.) -/
def Obligations.ReadbackDiffers : Prop :=
  (∀ (s x : State) (pl : Plane) (l : FlightLeg), s.inReset = false → (s.driver pl).phase = .settling →
    (s.driver pl).leg = some l → s.readback l.bank ≠ some l.target → x = s.elapse (s.driver pl).left →
    ∃ u v y w : State, exec (.legReadback pl) s = .next (react u).driveOutputs ∧
      (u.bank l.bank).position = s.readback l.bank ∧ (u.bank l.bank).lifeCount = (s.bank l.bank).lifeCount ∧
      (s.faultValid l.bank .position = false →
        u.counter l.bank .position = min 7 (s.counter l.bank .position + 1)) ∧
      (u.driver pl).phase = .idle ∧ (u.driver pl).leg = none ∧
      (∀ b, b ≠ l.bank → (u.bank b).position = (s.bank b).position ∧ (u.bank b).lifeCount = (s.bank b).lifeCount) ∧
      v =
        { x.setDriver pl { x.driver pl with phase := .checking, left := 0 } with
          banks := v.banks, sup := { x.sup with counters := v.sup.counters } } ∧
      v.bank l.bank = { s.bank l.bank with position := s.readback l.bank } ∧
      (∀ b, b ≠ l.bank → v.bank b = s.bank b) ∧
      (∀ b k, v.counter b k =
        if b = l.bank ∧ k = .position ∧ s.faultValid b .position = false then min 7 (s.counter b k + 1)
        else s.counter b k) ∧
      (MissMakesValid s l.bank .position → BecameValid l.bank .position v y) ∧
      (¬ MissMakesValid s l.bank .position → y = v) ∧
      w = y.setDriver pl { y.driver pl with phase := .idle, leg := none, left := 0 } ∧
      (l.source = .entry → ∀ e, w.headOf pl = some e →
        (w.safe.state = .normal →
          (w.faultValid l.bank .position = false → u = w) ∧
          (w.faultValid l.bank .position = true → u = failEntry e .position (some l.bank) w)) ∧
        (w.safe.state ≠ .normal →
          (e.active = true → u = failEntry e .safe (some l.bank) w) ∧ (e.active = false → u = w))) ∧
      (l.source = .entry → w.headOf pl = none → u = w) ∧
      (l.source = .home →
        (w.faultValid l.bank .position = false → u = w) ∧
        (w.faultValid l.bank .position = true →
          u = w.setDriver pl { w.driver pl with passed := (w.driver pl).passed ||| (1#24 <<< l.bank.1) })) ∧
      ((∃ q, l.source = .forcedBreak q) ∨ l.source = .forcedHome →
        u =
          w.setDriver pl
            { w.driver pl with
              pause := some { leg := l, left := ((s.bank l.bank).operate + (s.bank l.bank).settle) * 10 } })) ∧
  ∀ (s : State) (e : Entry) (why : EntryFailure) (b : Option BankId) (x : PlanLeg) (rest : List PlanLeg),
    e ∈ s.queue → e.plan = x :: rest →
    (NoticeTaken e s (failEntry e why b s) ∧
      (∀ o, e.kind = .swapChange → x.part = .makePart → e.old = some o → e.new ≠ none →
        CurrentsDrop o s (failEntry e why b s)) ∧
      (¬ (e.kind = .swapChange ∧ x.part = .makePart ∧ e.old ≠ none ∧ e.new ≠ none) →
        CurrentsKept s (failEntry e why b s))) ∧
    ((failEntry e why b s).flagSet .changeFailed = true ∧
      ((failEntry e why b s).driver e.plane).held = none ∧ ((failEntry e why b s).driver e.plane).waiting = none ∧
      (failEntry e why b s).events.lastFailure =
        some
          { kind := e.kind, old := e.old, new := e.new, reason := why, bank := b, part := x.part
            route :=
              (match x.part, e.old, e.new with
               | .breakPart, some o, _ => (s.path o).route
               | .makePart, _, some n => (s.path n).route
               | _, _, _ => none) }) ∧
    (∀ n, (e.kind = .makeChange ∨ (e.kind = .swapChange ∧ x.part = .makePart)) → e.old = none → e.new = some n →
      (s.path n).state = .forming → (s.path n).closeOwed = false ∨ s.safe.state ≠ .normal →
      (failEntry e why b s).path n =
          { s.path n with
            state := .failed, failure := (s.path n).failure.or (some .makeFailed), settleTimer := none } ∧
        (∀ q, q ≠ n → (failEntry e why b s).path q = s.path q) ∧ (failEntry e why b s).banks = s.banks ∧
        (failEntry e why b s).queue = s.queue.erase e ∧ (failEntry e why b s).flagSet .pathFailed = true) ∧
    (∀ n, e.new = some n → (s.path n).state = .forming → (s.path n).closeOwed = true → s.safe.state = .normal →
      ((e.kind = .makeChange ∧ e.old = none) ∨ (e.kind = .swapChange ∧ e.old ≠ some n)) →
      ((failEntry e why b s).path n).state = .closing ∧ ((failEntry e why b s).path n).prior = some .failed ∧
        ((failEntry e why b s).path n).failure = (s.path n).failure.or (some .makeFailed) ∧
        ((failEntry e why b s).path n).closeOwed = false ∧
        ∃ y : Entry, (failEntry e why b s).queue = s.queue.erase e ++ [y] ∧ y.kind = .breakChange ∧ y.old = some n) ∧
    (∀ n, e.new = some n → (s.path n).state = .failed → (s.path n).closeOwed = true →
      ((e.kind = .makeChange ∧ e.old = none) ∨ (e.kind = .swapChange ∧ e.old ≠ some n)) →
      (s.safe.state ≠ .normal →
        (failEntry e why b s).path n = s.path n ∧ (failEntry e why b s).queue = s.queue.erase e) ∧
      (s.safe.state = .normal → FailedThenClosing n s (failEntry e why b s) (s.queue.erase e))) ∧
    (∀ o, e.kind = .breakChange → e.old = some o → e.new = none → (s.path o).state ≠ .failed →
      (failEntry e why b s).path o =
          { s.path o with
            state := .failed, failure := (s.path o).failure.or (some .breakFailed), settleTimer := none } ∧
        (∀ q, q ≠ o → (failEntry e why b s).path q = s.path q) ∧ (failEntry e why b s).banks = s.banks ∧
        (failEntry e why b s).queue = s.queue.erase e ∧ (failEntry e why b s).flagSet .pathFailed = true) ∧
    (∀ o n, e.kind = .swapChange → e.old = some o → e.new = some n → o ≠ n → (s.path o).state ≠ .failed →
      (s.path n).state = .forming → (s.path n).closeOwed = false ∨ s.safe.state ≠ .normal →
      (failEntry e why b s).path n =
          { s.path n with
            state := .failed, failure := (s.path n).failure.or (some .makeFailed), settleTimer := none } ∧
        (failEntry e why b s).queue = s.queue.erase e ∧
        (x.part = .breakPart →
          (failEntry e why b s).path o =
            { s.path o with
              state := .failed, failure := (s.path o).failure.or (some .breakFailed), settleTimer := none } ∧
          (failEntry e why b s).banks = s.banks) ∧
        (x.part = .makePart → (failEntry e why b s).path o = PathRecord.free))

/-- When a forced pause ends on a forced break leg whose bank its path still holds, not at TERM and with no valid COIL
fault, the leg is driven again for the bank's operate time; with a valid COIL fault the bank is recorded UNKNOWN and
released. On a forced home the bank still owes it is driven again too; where the bank is meanwhile at TERM, unfitted, of
another plane, owes no home or has a valid COIL fault, the pause ends and the driver goes on with its forced work (R73,
log 19). The time left passes first (the model's choice, log 2). -/
def Obligations.ForcedPauseEndDecidesAgain : Prop :=
  (∀ (s : State) (pl : Plane) (x : ForcedPause) (p : Slot), s.inReset = false → (s.driver pl).pause = some x →
    x.leg.source = .forcedBreak p → (s.bank x.leg.bank).holder = some p →
    (s.bank x.leg.bank).position ≠ some .term →
    (s.faultValid x.leg.bank .coil = false →
      ∃ t : State, exec (.forcedPauseEnd pl) s = .next t ∧ (t.driver pl).pause = none ∧
        (t.driver pl).phase = .driving ∧
        (t.driver pl).leg = some { bank := x.leg.bank, target := .term, source := .forcedBreak p } ∧
        (t.driver pl).left = (s.bank x.leg.bank).operate * 10 ∧ t.queue = s.queue ∧ t.paths = (s.elapse x.left).paths ∧
        ∀ b, (t.bank b).position = (s.bank b).position ∧ (t.bank b).holder = (s.bank b).holder) ∧
    (s.faultValid x.leg.bank .coil = true →
      ∃ u : State, exec (.forcedPauseEnd pl) s = .next (react u).driveOutputs ∧
        (u.bank x.leg.bank).position = none ∧ (u.bank x.leg.bank).holder = none ∧ (u.driver pl).pause = none)) ∧
  ∀ (s : State) (pl : Plane) (n : Nat) (b : BankId), s.inReset = false →
    (s.driver pl).pause = some { leg := { bank := b, target := .term, source := .forcedHome }, left := n } →
    (ForcedHomeDue s pl b → (s.bank b).position ≠ some .term →
      exec (.forcedPauseEnd pl) s =
        .next (startLeg pl { bank := b, target := .term, source := .forcedHome }
          ((s.elapse n).setDriver pl { (s.elapse n).driver pl with pause := none })).driveOutputs) ∧
    (¬ ForcedHomeDue s pl b ∨ (s.bank b).position = some .term →
      exec (.forcedPauseEnd pl) s =
        .next (react ((s.elapse n).setDriver pl { (s.elapse n).driver pl with pause := none })).driveOutputs)

/-- A leg that starts clears its bank's hot deferrals and the driver's held leg and wait, is the leg in flight, and drives
for the bank's operate time; a leg that is not forced reports a HOT pass (R63, R73). The driver that takes a home (R57)
ends it without a drive where the bank is at TERM; passes the bank over where the leg does not fit, is inhibited or is
hot, the last with a hot deferral and a HOT miss, and chooses again; and else starts it, with no entry begun (R60 to R62,
R70). -/
def Obligations.LegStarts : Prop :=
  (∀ (s : State) (pl : Plane) (l : FlightLeg),
    ((startLeg pl l s).bank l.bank) = { s.bank l.bank with hotDeferrals := 0 } ∧
    (∀ b, b ≠ l.bank → (startLeg pl l s).bank b = s.bank b) ∧
    ((startLeg pl l s).driver pl) =
      { s.driver pl with
        phase := .driving, leg := some l, left := (s.bank l.bank).operate * 10, held := none, waiting := none } ∧
    (∀ q, q ≠ pl → (startLeg pl l s).driver q = s.driver q) ∧
    (l.source = .entry ∨ l.source = .home → s.faultValid l.bank .hot = false →
      (startLeg pl l s).counter l.bank .hot = 0) ∧
    ((∃ q, l.source = .forcedBreak q) ∨ l.source = .forcedHome → (startLeg pl l s).sup = s.sup) ∧
    (startLeg pl l s).queue = s.queue ∧ (startLeg pl l s).paths = s.paths) ∧
  ∀ (s : State) (pl : Plane) (b : BankId), TakesHome s pl b →
    ((s.bank b).position = some .term →
      choosePlane pl s = chooseLoop pl (chooseFuel s - 1) (s.setBank b { s.bank b with homeOwed := false })) ∧
    ((s.bank b).position ≠ some .term →
      (legFits s b = false ∨ s.faultsOf b ≠ 0 →
        choosePlane pl s =
          chooseLoop pl (chooseFuel s - 1)
            (s.setDriver pl { s.driver pl with passed := (s.driver pl).passed ||| (1#24 <<< b.1) })) ∧
      (legFits s b = true → s.faultsOf b = 0 →
        (DetectorHot s b →
          ∃ w : State, w = takeMiss b .hot (deferred s b) ∧
            choosePlane pl s =
              chooseLoop pl (chooseFuel s - 1)
                (w.setDriver pl { w.driver pl with passed := (w.driver pl).passed ||| (1#24 <<< b.1) })) ∧
        (¬ DetectorHot s b →
          choosePlane pl s = startLeg pl { bank := b, target := .term, source := .home } s)))

/-! ## Sequencers -/

/-- SET_SEQUENCER in IDLE, DONE or FAULTED with 15 bytes that carry admitted settings writes them; the sequencer becomes
IDLE at the new start with its group counter 0 and its pending list empty, the rest of its run state (fields R79 does not
list: the model's reading, log 24) and the other sequencer are kept, and the answer is OK with no data. A wrong length is
refused with E_ARG and 0, a value out of range with its position (the lowest where there are several: the model's choice,
log 28), and then the checks 3 to 7 of R79 in order, with 2, 3, 4, 6 and 8. In WAITING, DWELLING, STALLED or HELD the
request is refused with E_STATE and the state (R79). -/
def Obligations.SetSequencerWrites : Prop :=
  ∀ (f : Request) (s : State) (st : Station), ForThisNode f s → NamesStation f st →
    ((s.run st).state = .idle ∨ (s.run st).state = .done ∨ (s.run st).state = .faulted →
      (∀ c : SeqSettings, SettingsAdmitted c → c.groupCount ≤ 255 → f.params = seqSettingsBytes c →
        ∃ u : State, exec (.setSequencer f) s = .next (answered 0x30 f ⟨.ok, []⟩ u) ∧ u = { s with seqs := u.seqs } ∧
          u.seq st =
            { cfg := c
              run := { s.run st with state := .idle, cursor := c.start, groupCounter := 0, changes := [] } } ∧
          ∀ other, other ≠ st → u.seq other = s.seq other) ∧
      (f.params.length ≠ 15 → exec (.setSequencer f) s = .next (answered 0x30 f ⟨.eArg, [0x00]⟩ s)) ∧
      (f.params.length = 15 →
        (∀ n, SeqFieldBad f.params n → (∀ m, m < n → ¬ SeqFieldBad f.params m) →
          exec (.setSequencer f) s = .next (answered 0x30 f ⟨.eArg, [byteOf n]⟩ s)) ∧
        ((∀ n, ¬ SeqFieldBad f.params n) →
          (val2 f.params 2 < val2 f.params 0 →
            exec (.setSequencer f) s = .next (answered 0x30 f ⟨.eArg, [0x02]⟩ s)) ∧
          (val2 f.params 0 ≤ val2 f.params 2 → ¬ InParamRegion f.params (val2 f.params 4) →
            exec (.setSequencer f) s = .next (answered 0x30 f ⟨.eArg, [0x03]⟩ s)) ∧
          (InParamRegion f.params (val2 f.params 4) →
            (val2 f.params 6 ≠ 0xFFFF → ¬ InParamRegion f.params (val2 f.params 6) →
              exec (.setSequencer f) s = .next (answered 0x30 f ⟨.eArg, [0x04]⟩ s)) ∧
            (val2 f.params 6 = 0xFFFF ∨ InParamRegion f.params (val2 f.params 6) →
              ((val2 f.params 8 = 0xFFFF ∧ val2 f.params 10 ≠ 0xFFFF) ∨
                  (val2 f.params 8 ≠ 0xFFFF ∧ val2 f.params 10 = 0xFFFF) ∨
                  (val2 f.params 8 ≠ 0xFFFF ∧ val2 f.params 10 ≠ 0xFFFF ∧
                    (¬ InParamRegion f.params (val2 f.params 8) ∨ ¬ InParamRegion f.params (val2 f.params 10) ∨
                      val2 f.params 10 < val2 f.params 8)) →
                exec (.setSequencer f) s = .next (answered 0x30 f ⟨.eArg, [0x06]⟩ s)) ∧
              ((val2 f.params 8 = 0xFFFF ∧ val2 f.params 10 = 0xFFFF) ∨
                  (InParamRegion f.params (val2 f.params 8) ∧ InParamRegion f.params (val2 f.params 10) ∧
                    val2 f.params 8 ≤ val2 f.params 10) →
                ¬ InParamRegion f.params (val2 f.params 13) →
                exec (.setSequencer f) s = .next (answered 0x30 f ⟨.eArg, [0x08]⟩ s))))))) ∧
    ((s.run st).state = .waiting → exec (.setSequencer f) s = .next (answered 0x30 f ⟨.eState, [0x01]⟩ s)) ∧
    ((s.run st).state = .dwelling → exec (.setSequencer f) s = .next (answered 0x30 f ⟨.eState, [0x02]⟩ s)) ∧
    ((s.run st).state = .stalled → exec (.setSequencer f) s = .next (answered 0x30 f ⟨.eState, [0x03]⟩ s)) ∧
    ((s.run st).state = .held → exec (.setSequencer f) s = .next (answered 0x30 f ⟨.eState, [0x04]⟩ s))

/-- SEQ_RUN in IDLE, DONE or FAULTED arrives at the start step: the copy, the cursor, the last mark and the group counter
are as R82 and R83 give them, the divert arm is kept, and the answer is OK with the state and cursor after the
arrival, before the drivers act (log 10). An APPLY step is evaluated plane A then plane B, each outcome entering the run
state, a fault ending it (R96, R99), and the state is STALLED with its event, WAITING, or DWELLING for one frame (R84,
R107); a JUMP is taken where its condition holds on both planes, a target outside the region faulting with REGION and
plane none, and dwells for one frame (R109). A step that asks nothing of either plane is dwelt at; a route of plane A
that is acceptable, with no current path, is a MAKE of the sequencer (R101, R102, R104). Outside NORMAL the request is
refused with E_SAFE, and in WAITING, DWELLING, STALLED or HELD with E_STATE and the state. -/
def Obligations.SeqRunArrives : Prop :=
  ∀ (f : Request) (s : State) (st : Station), ForThisNode f s → NamesStation f st → f.params = [] →
    (s.safe.state ≠ .normal → exec (.seqRun f) s = .next (answered 0x32 f ⟨.eSafe, []⟩ s)) ∧
    (s.safe.state = .normal →
      ((s.run st).state = .waiting → exec (.seqRun f) s = .next (answered 0x32 f ⟨.eState, [0x01]⟩ s)) ∧
      ((s.run st).state = .dwelling → exec (.seqRun f) s = .next (answered 0x32 f ⟨.eState, [0x02]⟩ s)) ∧
      ((s.run st).state = .stalled → exec (.seqRun f) s = .next (answered 0x32 f ⟨.eState, [0x03]⟩ s)) ∧
      ((s.run st).state = .held → exec (.seqRun f) s = .next (answered 0x32 f ⟨.eState, [0x04]⟩ s)) ∧
      ((s.run st).state = .idle ∨ (s.run st).state = .done ∨ (s.run st).state = .faulted →
        ∃ u : State,
          exec (.seqRun f) s =
            .next (answered 0x32 f ⟨.ok, seqStateByte (u.run st).state :: bytes2 (u.run st).cursor.1⟩ (react u)) ∧
          u = { s with banks := u.banks, paths := u.paths, queue := u.queue, seqs := u.seqs, events := u.events } ∧
          (∃ v : State,
            ArrivesAt st (s.seqCfg st).start false
              (s.setRun st
                { s.run st with
                  cursor := (s.seqCfg st).start, groupCounter := 0, changes := [], applied := ⟨false, false⟩
                  stalled := ⟨none, none⟩, heldPhase := none, heldByLoopback := false, jumpTaken := false
                  dwell := 0 }) v ∧
            (∀ d, (s.step (s.seqCfg st).start).kind = .apply d → Evaluated st v u) ∧
            ∀ n, (s.step (s.seqCfg st).start).kind = .jump n → JumpEvaluated st n v u) ∧
          (u.seq st).cfg = (s.seq st).cfg ∧ (∀ other, other ≠ st → u.seq other = s.seq other) ∧
          (u.run st).cursor = (s.seqCfg st).start ∧ (u.run st).copy = s.step (s.seqCfg st).start ∧
          (u.run st).heldPhase = none ∧ (u.run st).heldByLoopback = false ∧
          (u.run st).divertArmed = (s.run st).divertArmed ∧
          (u.run st).lastMark =
            (if (s.step (s.seqCfg st).start).mark = true then some (s.seqCfg st).start else (s.run st).lastMark) ∧
          ((s.step (s.seqCfg st).start).mark = true → u.flagSet (markEvent st) = true) ∧
          (u.run st).groupCounter =
            (if (s.seqCfg st).group.map Prod.fst = some (s.seqCfg st).start then (s.seqCfg st).groupCount else 0) ∧
          ((u.run st).state = .waiting ∨ (u.run st).state = .dwelling ∨ (u.run st).state = .stalled ∨
            (u.run st).state = .faulted) ∧
          (∀ d, (s.step (s.seqCfg st).start).kind = .apply d → (s.step (s.seqCfg st).start).routeA = .keep →
            (s.step (s.seqCfg st).start).routeB = .keep →
            (u.run st).state = .dwelling ∧ (u.run st).dwell = 1 ∧ u.banks = s.banks ∧ u.paths = s.paths ∧
              u.queue = s.queue) ∧
          (∀ n, (s.step (s.seqCfg st).start).kind = .jump n → (s.step (s.seqCfg st).start).cond = .always →
            InRegion (s.seqCfg st) n →
            (u.run st).state = .dwelling ∧ (u.run st).dwell = 1 ∧ (u.run st).jumpTaken = true) ∧
          (∀ d r p, (s.step (s.seqCfg st).start).kind = .apply d → (s.step (s.seqCfg st).start).cond = .always →
            (s.step (s.seqCfg st).start).routeA = .route r → (s.step (s.seqCfg st).start).routeB = .keep →
            (s.route r).plane = .a → (s.run st).current.a = none → Acceptable s st (s.route r) none [] →
            LowestFree s p →
            (u.run st).state = .waiting ∧ (u.run st).applied = ⟨true, false⟩ ∧
              (u.run st).changes = [⟨.a, none, some p⟩] ∧ (u.run st).current = ⟨some p, (s.run st).current.b⟩ ∧
              (u.path p).state = .forming ∧ (u.path p).route = some r ∧ (u.path p).station = some st ∧
              (u.path p).origin = some .sequencer ∧
              ∃ e : Entry, u.queue = s.queue ++ [e] ∧ e.kind = .makeChange ∧ e.new = some p ∧
                e.origin = .sequencer st)))

/-- SEQ_HOLD, SEQ_RESUME, SEQ_STOP and ARM_DIVERT do to the run state what R91 to R94 state, the answer being OK with
the state and cursor after the request (SEQ_STOP: the number of entries cancelled). Where the state does not admit the
request it is refused with E_STATE and the state. A bad station field, or parameters, are refused with E_ARG and FFH
(R81). A SEQ_RESUME with held phase ARRIVAL arrives at the cursor and evaluates the step there, as SEQ_RUN does at the
start (R83, R84, R99, R109). SEQ_STOP cancels the sequencer's WAITING entries one after another, in queue order (the
model's choice, log 29): each frees its new slot, restores its old one with the banks it had, leaves the current paths
as R95 gives, and is noticed by the pending list (R35, R55, R84; its record matched by its slots, log 11); a path
returned to LIVE keeps its established cadence, as R35 says and R19 does not (log 27), and one returned to SETTLING with
an extra settle of 0 has its timer at 0, whose end is a step of its own (the model's reading, log 12). Cursor, group
counter, copy, fault and last mark are kept. The SEQ_RESUME answer is taken before the drivers act (the model's choice,
log 10); that the drivers choose after SEQ_HOLD, SEQ_RESUME and ARM_DIVERT is its reading (log 23), and so is what a
request keeps that its rule does not name, held by loop-back after SEQ_HOLD among it (log 24). -/
def Obligations.SequencerHoldResumeStopDivert : Prop :=
  (∀ s : State, cancelAll [] s = s ∧
    ∀ (e : Entry) (more : List Entry),
      cancelAll (e :: more) s = cancelAll more (cancelEntry e s) ∧ Cancelled e s (cancelEntry e s)) ∧
  ∀ (f : Request) (s : State), ForThisNode f s →
    (f.station ≠ 1 ∧ f.station ≠ 2 →
      exec (.setSequencer f) s = .next (answered 0x30 f ⟨.eArg, [0xFF]⟩ s) ∧
      exec (.readSequencer f) s = .next (answered 0x31 f ⟨.eArg, [0xFF]⟩ s) ∧
      exec (.seqRun f) s = .next (answered 0x32 f ⟨.eArg, [0xFF]⟩ s) ∧
      exec (.seqHold f) s = .next (answered 0x33 f ⟨.eArg, [0xFF]⟩ s) ∧
      exec (.seqResume f) s = .next (answered 0x34 f ⟨.eArg, [0xFF]⟩ s) ∧
      exec (.seqStop f) s = .next (answered 0x35 f ⟨.eArg, [0xFF]⟩ s) ∧
      exec (.armDivert f) s = .next (answered 0x36 f ⟨.eArg, [0xFF]⟩ s)) ∧
    (f.params ≠ [] →
      exec (.readSequencer f) s = .next (answered 0x31 f ⟨.eArg, [0xFF]⟩ s) ∧
      exec (.seqRun f) s = .next (answered 0x32 f ⟨.eArg, [0xFF]⟩ s) ∧
      exec (.seqHold f) s = .next (answered 0x33 f ⟨.eArg, [0xFF]⟩ s) ∧
      exec (.seqResume f) s = .next (answered 0x34 f ⟨.eArg, [0xFF]⟩ s) ∧
      exec (.seqStop f) s = .next (answered 0x35 f ⟨.eArg, [0xFF]⟩ s) ∧
      exec (.armDivert f) s = .next (answered 0x36 f ⟨.eArg, [0xFF]⟩ s)) ∧
    ∀ st : Station, NamesStation f st → f.params = [] →
      (∀ h : HeldPhase,
        ((s.run st).state = .waiting ∧ h = .waiting ∨ (s.run st).state = .dwelling ∧ h = .dwelling ∨
          (s.run st).state = .stalled ∧ h = .stalled) →
        exec (.seqHold f) s =
          .next (answered 0x33 f ⟨.ok, 0x04 :: bytes2 (s.run st).cursor.1⟩
            (react (s.setRun st { s.run st with state := .held, heldPhase := some h })))) ∧
      ((s.run st).state = .idle ∨ (s.run st).state = .held ∨ (s.run st).state = .done ∨
          (s.run st).state = .faulted →
        exec (.seqHold f) s = .next (answered 0x33 f ⟨.eState, [seqStateByte (s.run st).state]⟩ s)) ∧
      ((s.run st).state ≠ .held →
        exec (.seqResume f) s = .next (answered 0x34 f ⟨.eState, [seqStateByte (s.run st).state]⟩ s)) ∧
      ((s.run st).state = .held →
        ((s.run st).heldPhase = some .dwelling →
          exec (.seqResume f) s =
            .next (answered 0x34 f ⟨.ok, 0x02 :: bytes2 (s.run st).cursor.1⟩
              (react (s.setRun st { s.run st with state := .dwelling, heldPhase := none })))) ∧
        ((s.run st).heldPhase = some .stalled →
          exec (.seqResume f) s =
            .next (answered 0x34 f ⟨.ok, 0x03 :: bytes2 (s.run st).cursor.1⟩
              (react (s.setRun st { s.run st with state := .stalled, heldPhase := none })))) ∧
        ((s.run st).heldPhase = some .waiting → (s.run st).changes ≠ [] →
          exec (.seqResume f) s =
            .next (answered 0x34 f ⟨.ok, 0x01 :: bytes2 (s.run st).cursor.1⟩
              (react (s.setRun st { s.run st with state := .waiting, heldPhase := none })))) ∧
        (∀ d, (s.run st).heldPhase = some .waiting → (s.run st).changes = [] → (s.run st).copy.kind = .apply d →
          exec (.seqResume f) s =
            .next (answered 0x34 f ⟨.ok, 0x02 :: bytes2 (s.run st).cursor.1⟩
              (react (s.setRun st { s.run st with state := .dwelling, dwell := d, heldPhase := none })))) ∧
        ((s.run st).heldPhase = some .arrival →
          ∃ u v : State,
            exec (.seqResume f) s =
              .next (answered 0x34 f ⟨.ok, seqStateByte (u.run st).state :: bytes2 (s.run st).cursor.1⟩ (react u)) ∧
            u = { s with banks := u.banks, paths := u.paths, queue := u.queue, seqs := u.seqs, events := u.events } ∧
            ArrivesAt st (s.run st).cursor (s.run st).heldByLoopback
              (s.setRun st { s.run st with heldPhase := none, heldByLoopback := false }) v ∧
            (∀ d, (s.step (s.run st).cursor).kind = .apply d → Evaluated st v u) ∧
            (∀ n, (s.step (s.run st).cursor).kind = .jump n → JumpEvaluated st n v u) ∧
            (u.seq st).cfg = (s.seq st).cfg ∧ (∀ other, other ≠ st → u.seq other = s.seq other) ∧
            (u.run st).cursor = (s.run st).cursor ∧ (u.run st).copy = s.step (s.run st).cursor ∧
            (u.run st).heldPhase = none ∧ (u.run st).heldByLoopback = false ∧
            ((u.run st).state = .waiting ∨ (u.run st).state = .dwelling ∨ (u.run st).state = .stalled ∨
              (u.run st).state = .faulted) ∧
            (u.run st).groupCounter =
              (if (s.seqCfg st).group.map Prod.fst = some (s.run st).cursor ∧ (s.run st).heldByLoopback = false then
                (s.seqCfg st).groupCount else (s.run st).groupCounter))) ∧
      (∃ u w : State,
        exec (.seqStop f) s =
          .next (answered 0x35 f
            ⟨.ok, [byteOf (s.queue.countP fun e => !e.active && decide (e.origin = .sequencer st))]⟩ (react u)) ∧
        w = cancelAll (s.queue.filter fun e => !e.active && decide (e.origin = .sequencer st)) s ∧
        u =
          w.setRun st
            { w.run st with
              state := .idle, changes := [], stalled := ⟨none, none⟩, heldPhase := none, divertArmed := false } ∧
        (u.run st).cursor = (s.run st).cursor ∧ (u.run st).groupCounter = (s.run st).groupCounter ∧
        ((∀ e ∈ s.queue, e.active = true ∨ e.origin ≠ .sequencer st) → w = s) ∧
        (u.run st).state = .idle ∧ (u.run st).changes = [] ∧ (u.run st).stalled = ⟨none, none⟩ ∧
        (u.run st).heldPhase = none ∧ (u.run st).divertArmed = false ∧ (u.run st).fault = (s.run st).fault ∧
        (u.run st).lastMark = (s.run st).lastMark ∧ (u.run st).copy = (s.run st).copy ∧
        u.queue = s.queue.filter fun e => e.active || decide (e.origin ≠ .sequencer st)) ∧
      exec (.armDivert f) s =
        .next (answered 0x36 f ⟨.ok, seqStateByte (s.run st).state :: bytes2 (s.run st).cursor.1⟩
          (react (s.setRun st { s.run st with divertArmed := true })))

/-- The next index (R88): a taken jump's target; else, from a marked step with a divert armed, the divert target, the arm
then off; else, at the group end with passes left, the group start, one pass fewer; else the following step, or the
region's first after its last, which raises the wrap event. The group counter is 0 after the last pass. The step's
end (R89): DONE at the stop; HELD with phase ARRIVAL after a step that holds; else an arrival at that step, evaluated as
R99, R107 and R109 give (R83, R84). -/
def Obligations.NextIndexRule : Prop :=
  (∀ (c : SeqSettings) (r : SeqRun) (t : StepId), r.copy.kind = .jump t → r.jumpTaken = true →
    nextIndex c r = (t, .jump, r)) ∧
  (∀ (c : SeqSettings) (r : SeqRun), r.jumpTaken = false →
    (r.copy.mark = true → r.divertArmed = true →
      nextIndex c r = (c.divertTarget, .divert, { r with divertArmed := false })) ∧
    (r.copy.mark = false ∨ r.divertArmed = false →
      (∀ a, c.group = some (a, r.cursor) → 1 < r.groupCounter →
        nextIndex c r = (a, .loopback, { r with groupCounter := r.groupCounter - 1 })) ∧
      ((∀ a, c.group ≠ some (a, r.cursor)) →
        nextIndex c r =
          if r.cursor = c.regionLast then (c.regionFirst, .advance true, r) else (r.cursor + 1, .advance false, r)) ∧
      (∀ a, c.group = some (a, r.cursor) → r.groupCounter ≤ 1 →
        nextIndex c r =
          if r.cursor = c.regionLast then (c.regionFirst, .advance true, { r with groupCounter := 0 })
          else (r.cursor + 1, .advance false, { r with groupCounter := 0 })))) ∧
  (∀ (s : State) (st : Station) (n : StepId) (test : NextTest) (r : SeqRun),
    nextIndex (s.seqCfg st) (s.run st) = (n, test, r) →
      ((endStep st s).run st).cursor = n ∧
      (test = .advance true → (endStep st s).flagSet (wrapEvent st) = true) ∧
      ((s.seqCfg st).stop = some n →
        (endStep st s).run st = { r with state := .done, cursor := n } ∧
          (endStep st s).flagSet (stoppedEvent st) = true ∧ (endStep st s).queue = s.queue) ∧
      ((s.seqCfg st).stop ≠ some n → (s.run st).copy.hold = true →
        (endStep st s).run st =
          { r with
            state := .held, heldPhase := some .arrival, cursor := n,
            heldByLoopback := decide (test = .loopback) } ∧
          (endStep st s).queue = s.queue) ∧
      ((s.seqCfg st).stop ≠ some n → (s.run st).copy.hold = false →
        ((endStep st s).run st).copy = s.step n ∧ ((endStep st s).run st).state ≠ .done ∧
        ∃ v : State,
          ArrivesAt st n (decide (test = .loopback))
            (if test = .advance true then (s.setRun st r).raise (wrapEvent st) else s.setRun st r) v ∧
          (∀ d, (s.step n).kind = .apply d → Evaluated st v (endStep st s)) ∧
          ∀ t, (s.step n).kind = .jump t → JumpEvaluated st t v (endStep st s)))

/-- The eight conditions of a step for a plane (R100), and what one plane of a step comes to (R101 to R106): a false
condition, KEEP, a CLEAR with no path that may be broken, and the route the current path already has pass; a route of the
other plane faults with PLANE; a CLEAR of a LIVE, SETTLING or FAILED path with close owed no is a BREAK; a route asked from
a LIVE or SETTLING path with close owed no is a SWAP from it, and any other a MAKE, each with the checks of R22 (and a
SWAP R26); an acceptance is applied, its change pending and its new slot the current path; a refusal changes nothing and
stalls or faults by R105 and R106. -/
def Obligations.ConditionRule : Prop :=
  (∀ (s : State) (st : Station) (pl : Plane),
    holds s st .always pl = true ∧
    (holds s st .live pl = true ↔ ∃ p, (s.run st).current.get pl = some p ∧ (s.path p).state = .live) ∧
    (holds s st .idle pl = true ↔ (s.run st).current.get pl = none) ∧
    (holds s st .gate pl = true ↔
      s.ring.gates.getLsbD (match st, pl with | .s1, .a => 0 | .s1, .b => 1 | .s2, .a => 2 | .s2, .b => 3) = true) ∧
    (holds s st .noGate pl = true ↔ ¬ holds s st .gate pl = true) ∧
    (holds s st .fault pl = true ↔
      ∃ p, (s.run st).current.get pl = some p ∧
        ((s.path p).state = .failed ∨ ∃ b, (s.bank b).holder = some p ∧ s.faultsOf b ≠ 0)) ∧
    (holds s st .noFault pl = true ↔ ¬ holds s st .fault pl = true) ∧
    (holds s st .lastPass pl = true ↔ (s.run st).groupCounter ≤ 1)) ∧
  (∀ (s : State) (st : Station) (pl : Plane) (field : RouteField),
    field = (match pl with | .a => (s.run st).copy.routeA | .b => (s.run st).copy.routeB) →
    (holds s st (s.run st).copy.cond pl = false → evalPlane st pl s = (.passed, s)) ∧
    (holds s st (s.run st).copy.cond pl = true →
      (field = .keep → evalPlane st pl s = (.passed, s)) ∧
      (field = .clear →
        ((s.run st).current.get pl = none → evalPlane st pl s = (.passed, s)) ∧
        ∀ o, (s.run st).current.get pl = some o →
          ((s.path o).state = .forming ∨ (s.path o).state = .closing ∨ (s.path o).state = .free ∨
              (s.path o).closeOwed = true → evalPlane st pl s = (.passed, s)) ∧
          ((s.path o).state = .live ∨ (s.path o).state = .settling ∨ (s.path o).state = .failed →
            (s.path o).closeOwed = false →
            ∃ u : State, evalPlane st pl s = (.applied, u) ∧ u.banks = s.banks ∧ (u.path o).state = .closing ∧
              (u.path o).prior = priorOf (s.path o).state ∧ (u.path o).priorLegs = (s.path o).legsDone ∧
              (∀ q, q ≠ o → u.path q = s.path q) ∧
              u.queue = s.queue ++
                [{ kind := .breakChange, old := some o, new := none, plane := s.slotPlane o, origin := .sequencer st,
                   active := false, plan := (s.heldBanks o).map fun b => ⟨b, .term, .breakPart, .oldSlot⟩ }] ∧
              u.run st =
                { s.run st with
                  applied := (s.run st).applied.set pl true
                  changes := (s.run st).changes ++ [⟨pl, some o, none⟩] })) ∧
      ∀ r, field = .route r →
        ((s.route r).defined = true → (s.route r).plane ≠ pl → evalPlane st pl s = (.faulted .plane, s)) ∧
        ((s.route r).defined = false ∨ (s.route r).plane = pl →
          (∀ o, (s.run st).current.get pl = some o → (s.path o).route = some r → (s.path o).state ≠ .closing →
            evalPlane st pl s = (.passed, s)) ∧
          (∀ o, (s.run st).current.get pl = some o → (s.path o).route ≠ some r →
            ((s.path o).state = .live ∨ (s.path o).state = .settling) → (s.path o).closeOwed = false →
            evalPlane st pl s = askSwap st pl r s) ∧
          ((s.run st).current.get pl = none ∨
              (∃ o, (s.run st).current.get pl = some o ∧
                ((s.path o).state = .closing ∨
                  ((s.path o).route ≠ some r ∧
                    ((s.path o).state = .forming ∨ (s.path o).state = .failed ∨ (s.path o).state = .free ∨
                      (s.path o).closeOwed = true)))) →
            evalPlane st pl s = askMake st pl r s)))) ∧
  (∀ (s : State) (st : Station) (pl : Plane) (r : RouteId),
    (∀ k x, FirstFailure s st (s.route r) none none [] k x →
      askMake st pl r s = (classify s .makeCall x, s)) ∧
    (Acceptable s st (s.route r) none [] → (∀ q, (s.path q).state ≠ .free) →
      askMake st pl r s = (.stalled .makeCall, s)) ∧
    (∀ p, Acceptable s st (s.route r) none [] → LowestFree s p →
      ∃ u : State, askMake st pl r s = (.applied, u) ∧ (u.path p).state = .forming ∧ (u.path p).route = some r ∧
        (u.path p).station = some st ∧ (u.path p).origin = some .sequencer ∧
        (∀ b, b ∈ (s.route r).legs.map RouteLeg.bank → (u.bank b).holder = some p ∧ (u.bank b).homeOwed = false) ∧
        u.queue = s.queue ++
          [{ kind := .makeChange, old := none, new := some p, plane := (s.route r).plane, origin := .sequencer st,
             active := false,
             plan := (s.route r).legs.reverse.map fun l => ⟨l.bank, .thr l.thr, .makePart, .newSlot⟩ }] ∧
        u.run st =
          { s.run st with
            applied := (s.run st).applied.set pl true
            changes := (s.run st).changes ++ [⟨pl, none, some p⟩]
            current := (s.run st).current.set pl (some p) }) ∧
    ((s.run st).current.get pl = none → askSwap st pl r s = (.faulted .conflict, s)) ∧
    ∀ o r0, (s.run st).current.get pl = some o →
      ((s.path o).state = .free ∨ (s.path o).station = some st ∧
          ((s.path o).state = .forming ∨ (s.path o).state = .closing ∨ (s.path o).state = .failed) →
        askSwap st pl r s = (.faulted .conflict, s)) ∧
      ((s.path o).state = .live ∨ (s.path o).state = .settling → (s.path o).station = some st →
        (s.path o).route = some r0 →
        (∀ k x, FirstFailure s st (s.route r) (some o) (some (s.route r0).plane) (s.route r0).legs k x →
          askSwap st pl r s = (classify s .swapCall x, s)) ∧
        ((s.route r0).plane = (s.route r).plane → Acceptable s st (s.route r) (some o) (s.route r0).legs →
          ((∀ q, (s.path q).state ≠ .free) → askSwap st pl r s = (.stalled .swapCall, s)) ∧
          ∀ p, LowestFree s p →
            ∃ u : State, askSwap st pl r s = (.applied, u) ∧ (u.path o).state = .closing ∧
              (u.path p).state = .forming ∧ (u.path p).route = some r ∧ (u.path p).station = some st ∧
              (u.path p).origin = some .sequencer ∧
              u.queue = s.queue ++
                [{ kind := .swapChange, old := some o, new := some p, plane := (s.route r).plane,
                   origin := .sequencer st, active := false,
                   plan := swapPlan (s.route r0).legs (s.route r).legs }] ∧
              u.run st =
                { s.run st with
                  applied := (s.run st).applied.set pl true
                  changes := (s.run st).changes ++ [⟨pl, some o, some p⟩]
                  current := (s.run st).current.set pl (some p) }))) ∧
  ∀ (s : State) (call : StalledCall),
    (∀ d, classify s call ⟨.eArg, d⟩ = .faulted .route) ∧ classify s call ⟨.eClaim, [0xFF]⟩ = .faulted .station ∧
    (∀ i : Item, classify s call ⟨.eClaim, [itemByte i]⟩ = .faulted .claim) ∧
    (∀ n : FixtureId, classify s call ⟨.eState, [fixtureByte n]⟩ = .faulted .fixture) ∧
    (∀ b : BankId, classify s call ⟨.eFault, [byteOf b.1]⟩ = .faulted .inhibited) ∧
    classify s call ⟨.eFull, []⟩ = .stalled call ∧
    ∀ m : BitVec 16,
      ((∀ q : Slot, m.getLsbD q.1 = true → (s.path q).state = .closing) →
        classify s call ⟨.eConflict, bytes2 m.toNat⟩ = .stalled call) ∧
      ((∃ q : Slot, m.getLsbD q.1 = true ∧ (s.path q).state ≠ .closing) →
        classify s call ⟨.eConflict, bytes2 m.toNat⟩ = .faulted .conflict)

/-! ## Reads of the sequencers, the faults and the claims -/

/-- READ_SEQUENCER answers OK with the 37 bytes of R98. READ_FAULTS answers OK with the table form for FFH and the bank
form for a bank, and refuses any other parameter with E_ARG and FFH (R137). READ_CLAIMS answers OK with the items of S1,
those of S2, those in use, and the seats (R115). None changes any other state. -/
def Obligations.ReadSequencerFaultsClaimsAnswer : Prop :=
  ∀ (f : Request) (s : State), ForThisNode f s →
    (∀ st : Station, NamesStation f st → f.params = [] →
      exec (.readSequencer f) s =
        .next (answered 0x31 f
          ⟨.ok, seqSettingsBytes (s.seqCfg st) ++
            [seqStateByte (s.run st).state,
             byteOf ((match (s.run st).heldPhase with
               | none => 0 | some .waiting => 1 | some .dwelling => 2 | some .stalled => 3 | some .arrival => 7) +
               if (s.run st).heldByLoopback then 0x80 else 0)] ++
            bytes2 (s.run st).cursor.1 ++
            [byteOf (s.run st).groupCounter,
             byteOf ((if (s.run st).divertArmed then 0x01 else 0) + (if (s.run st).applied.a then 0x02 else 0) +
               (if (s.run st).applied.b then 0x04 else 0) + (if (s.run st).stalled.a.isSome then 0x08 else 0) +
               (if (s.run st).stalled.b.isSome then 0x10 else 0))] ++
            bytes2 (s.run st).dwell ++
            [slotByte (s.run st).current.a, slotByte (s.run st).current.b, byteOf (s.run st).changes.length] ++
            stepBytesWith (if (s.run st).jumpTaken then 0x80 else 0) (s.run st).copy ++
            seqFaultBytes (s.run st).fault ++ bytes2 (stepOptVal (s.run st).lastMark)⟩ s)) ∧
    (f.params = [0xFF] →
      exec (.readFaults f) s =
        .next (answered 0x52 f
          ⟨.ok, [byteOf s.sup.summaries.toNat] ++ (List.finRange 24).map (fun b => byteOf (s.faultsOf b).toNat) ++
            [match s.sup.cycle with
             | .visiting => byteOf s.sup.position.1 | .waiting => 0xFE | .stopped => 0xFF]⟩ s)) ∧
    (∀ b : BankId, f.params = [byteOf b.1] →
      exec (.readFaults f) s =
        .next (answered 0x52 f
          ⟨.ok, [byteOf b.1, byteOf (s.faultsOf b).toNat, byteOf (s.counter b .coil), byteOf (s.counter b .drift),
              byteOf (s.counter b .stray), byteOf (s.counter b .position), byteOf (s.counter b .hot)] ++
            (match s.sup.samples.get b with
             | none => [0xFF, 0xFF, 0xFF, 0xFF, 0xFF]
             | some x =>
               bytes2 x.coil.toNat ++ bytes2 x.detector.toNat ++
                 [match x.reading with | some c => contactByte c | none => 0xFE])⟩ s)) ∧
    (f.params.length ≠ 1 ∨ (23 < val1 f.params 0 ∧ val1 f.params 0 < 255) →
      exec (.readFaults f) s = .next (answered 0x52 f ⟨.eArg, [0xFF]⟩ s)) ∧
    (f.params = [] →
      ∃ (used : Item → Bool) (seats : Byte),
        exec (.readClaims f) s =
          .next (answered 0x42 f
            ⟨.ok, itemMapBytes (fun i => decide (s.claimOf i = some .s1)) ++
              itemMapBytes (fun i => decide (s.claimOf i = some .s2)) ++ itemMapBytes used ++ [seats]⟩ s) ∧
        (∀ i, used i = true ↔ ∃ st, s.claimOf i = some st ∧ InUseBy s st i) ∧
        ∀ n : FixtureId, seats.getLsbD n.1 = (s.chamber.seats.get n).debounced ∧
          seats.getLsbD (4 + n.1) = (s.chamber.seats.get n).timer.isSome) ∧
    (f.params ≠ [] → exec (.readClaims f) s = .next (answered 0x42 f ⟨.eArg, [0xFF]⟩ s))

/-! ## Claims -/

/-- CLAIM gives the station each named item that no station holds, and answers OK with the items it then holds (R112).
RELEASE takes from the station each named item it holds that is not in use by one of its paths, and answers OK with the
named items it keeps and the items it then holds (R113). Each is refused with E_ARG and FFH, nothing changed, for a bad
station field, a length other than 4 or a bit above F4. -/
def Obligations.ClaimsMove : Prop :=
  ∀ (f : Request) (s : State), ForThisNode f s →
    (∀ (st : Station) (named : Item → Bool), NamesStation f st → f.params = itemMapBytes named →
      (∃ u : State,
        exec (.claim f) s =
          .next (answered 0x40 f ⟨.ok, itemMapBytes fun i => decide (u.claimOf i = some st)⟩ u) ∧
        u = { s with claims := u.claims } ∧
        ∀ i, u.claimOf i = if named i = true ∧ s.claimOf i = none then some st else s.claimOf i) ∧
      (∃ (u : State) (kept : Item → Bool),
        exec (.release f) s =
          .next (answered 0x41 f
            ⟨.ok, itemMapBytes kept ++ itemMapBytes fun i => decide (u.claimOf i = some st)⟩ u) ∧
        u = { s with claims := u.claims } ∧
        (∀ i, kept i = true ↔ named i = true ∧ s.claimOf i = some st ∧ InUseBy s st i) ∧
        ∀ i,
          (named i = true → s.claimOf i = some st → ¬ InUseBy s st i → u.claimOf i = none) ∧
          (¬ (named i = true ∧ s.claimOf i = some st ∧ ¬ InUseBy s st i) → u.claimOf i = s.claimOf i))) ∧
    (f.station ≠ 1 ∧ f.station ≠ 2 ∨ f.params.length ≠ 4 ∨ 15 < val1 f.params 3 →
      exec (.claim f) s = .next (answered 0x40 f ⟨.eArg, [0xFF]⟩ s) ∧
      exec (.release f) s = .next (answered 0x41 f ⟨.eArg, [0xFF]⟩ s))

/-! ## Faults -/

/-- CLEAR_FAULTS of form 0 clears the details, counters and summaries of its kinds, any set of them, on every bank; form 1
clears the details and counters of its kinds on its bank, and keeps the summaries (R132, R133). Where DRIFT is named,
each named bank that is fitted, with DRIFT valid and no leg in flight, is resynchronised: refused, its detail and counter
are kept, with form 0 the summary too, and the kept map names it; else it takes the reading, and owes a home for a throw
or no reading with no holder (R134). Where COIL is named, each named fitted bank with COIL valid, no holder and another
recorded position than TERM owes a home (R135). With both named, either is made first (the model's free order, log 17).
Nothing else is changed. The answer is OK with the summaries and the kept map, as they stand before the drivers choose
(the model's choice, log 10); a home owed that is set on a fitted bank in SAFE, set before or not, is TEARDOWN (the
model's reading, log 16). Other parameters are refused with E_ARG and FFH (R131). -/
def Obligations.ClearFaultsClears : Prop :=
  ∀ (f : Request) (s : State), ForThisNode f s →
    (∀ ks : KindSet, f.params = [0, 0xFF, byteOf ks.toNat] →
      ∃ (u : State) (coilFirst : Bool),
        exec (.clearFaults f) s =
          .next (answered 0x53 f
            ⟨.ok, [byteOf u.sup.summaries.toNat] ++
              bankMapBytes (fun b => decide (ks.getLsbD 1 = true ∧ DriftRefused s b))⟩ (react u)) ∧
        FaultsCleared (fun _ => true) true coilFirst ks s u) ∧
    (∀ (b : BankId) (ks : KindSet), f.params = [1, byteOf b.1, byteOf ks.toNat] →
      ∃ (u : State) (coilFirst : Bool),
        exec (.clearFaults f) s =
          .next (answered 0x53 f
            ⟨.ok, [byteOf s.sup.summaries.toNat] ++
              bankMapBytes (fun x => decide (x = b ∧ ks.getLsbD 1 = true ∧ DriftRefused s b))⟩ (react u)) ∧
        FaultsCleared (fun x => decide (x = b)) false coilFirst ks s u) ∧
    (f.params.length ≠ 3 ∨ 1 < val1 f.params 0 ∨ (val1 f.params 0 = 0 ∧ val1 f.params 1 ≠ 0xFF) ∨
        (val1 f.params 0 = 1 ∧ 23 < val1 f.params 1) ∨ 63 < val1 f.params 2 →
      exec (.clearFaults f) s = .next (answered 0x53 f ⟨.eArg, [0xFF]⟩ s))

/-- A result on a pair whose fault is valid changes nothing. Else a pass sets the counter to 0, and a miss raises it by
1, saturating at 7, and makes the fault valid when the kind is in the bypass set or the counter has reached the
effective threshold (R128): then the detail and the summary are set, FAULT is raised, and a LIVE or SETTLING holder goes FAILED for COIL,
DRIFT, POSITION and HOT (R33, R130). With a kind in the safe mask the cause FAULT then joins the set, which in NORMAL is
safe entry (R130, R139, R140): the order of its cancellations is the model's choice (log 29), which plane's head fails
first its free order (log 3), the run-state fields kept its reading (log 24), and so is that a leg being reported still
counts as in flight (log 13). -/
def Obligations.MissCounting : Prop :=
  ∀ (s : State) (b : BankId) (k : FaultKind), k ≠ .worn →
    (s.faultValid b k = true → takeMiss b k s = s ∧ takePass b k s = s) ∧
    (s.faultValid b k = false →
      ((takePass b k s).counter b k = 0 ∧ takePass b k s = { s with sup := (takePass b k s).sup } ∧
        (takePass b k s).sup = { s.sup with counters := (takePass b k s).sup.counters }) ∧
      (takeMiss b k s).counter b k = min 7 (s.counter b k + 1) ∧
      (∀ x j, x ≠ b ∨ j ≠ k → (takeMiss b k s).counter x j = s.counter x j) ∧
      ((takeMiss b k s).faultValid b k = true ↔
        kindIn k s.settings.bypass = true ∨
          (if s.settings.missThreshold = 0 then 1 else s.settings.missThreshold) ≤ min 7 (s.counter b k + 1)) ∧
      ((takeMiss b k s).faultValid b k = false → takeMiss b k s = s.setCounter b k (min 7 (s.counter b k + 1))) ∧
      (MissMakesValid s b k → BecameValid b k (s.setCounter b k (min 7 (s.counter b k + 1))) (takeMiss b k s)) ∧
      ((takeMiss b k s).faultValid b k = true →
        kindIn k (takeMiss b k s).sup.summaries = true ∧ (takeMiss b k s).flagSet .fault = true ∧
        (kindIn k s.settings.safeMask = true → s.safe.state = .normal →
          (takeMiss b k s).safe.state = .grace ∧ causeIn .fault (takeMiss b k s).safe.causes = true) ∧
        (kindIn k s.settings.safeMask = false →
          (takeMiss b k s).safe = s.safe ∧ (takeMiss b k s).banks = s.banks ∧ (takeMiss b k s).queue = s.queue ∧
          ∀ p, (s.bank b).holder = some p → ((s.path p).state = .live ∨ (s.path p).state = .settling) →
            (takeMiss b k s).path p =
              if k = .stray then s.path p
              else { s.path p with
                     state := .failed, failure := (s.path p).failure.or (some .bankFault), settleTimer := none })))

/-! ## The safe state -/

/-- SAFE_ENTER in NORMAL is safe entry: GRACE, the grace timer at the mute grace, SAFE raised, both sequencers IDLE with
empty pending lists, a running one with a fault record of its cursor, plane none and SAFE (R97), the fields of the run
states that R97 does not name, held by loop-back among them, kept (the model's reading, log 24); the WAITING entries are
cancelled one after another, in queue order (the model's choice, log 29), and an ACTIVE head whose driver has no leg in
flight then fails with SAFE and bank none (R71; which plane first is the model's free order, log 3), one with a leg in
flight, a leg being reported counted so (log 13), staying; the answer is OK, 01H and the cause set with REQUEST (R140,
R145). Outside NORMAL the cause joins and the answer gives the state. SAFE_EXIT in SAFE with the door CLOSED and no
summary in the safe mask returns to NORMAL with an empty cause set; in NORMAL it changes nothing; otherwise it is
refused with the state, the cause set and the blocking kinds (R146). Parameters are refused with E_ARG and FFH. -/
def Obligations.SafeEnterAndExit : Prop :=
  (∀ (s : State) (pl : Plane),
    (∀ e, s.headOf pl = some e → e.active = true → (s.driver pl).leg = none →
      failIdleHead pl s = failEntry e .safe none s) ∧
    ((∀ e, s.headOf pl = some e → e.active = false ∨ (s.driver pl).leg ≠ none) → failIdleHead pl s = s)) ∧
  ∀ (f : Request) (s : State), ForThisNode f s →
    (f.params ≠ [] →
      exec (.safeEnter f) s = .next (answered 0x60 f ⟨.eArg, [0xFF]⟩ s) ∧
      exec (.safeExit f) s = .next (answered 0x61 f ⟨.eArg, [0xFF]⟩ s)) ∧
    (f.params = [] →
      (s.safe.state = .normal →
        exec (.safeExit f) s = .next (answered 0x61 f ⟨.ok, [0x00, byteOf s.safe.causes.toNat]⟩ s) ∧
        ∃ u : State,
          exec (.safeEnter f) s = .next (answered 0x60 f ⟨.ok, [0x01, byteOf (s.safe.causes ||| 8#5).toNat]⟩ u) ∧
          u.safe =
            { state := .grace, causes := s.safe.causes ||| 8#5, grace := some (s.settings.muteGrace * 100)
              resetPending := s.safe.resetPending } ∧
          u.flagSet .safe = true ∧ (∀ st, (u.run st).state = .idle ∧ (u.run st).changes = []) ∧
          (∀ st, (u.run st).fault =
            if (s.run st).state = .waiting ∨ (s.run st).state = .dwelling ∨ (s.run st).state = .stalled ∨
                (s.run st).state = .held then some ⟨(s.run st).cursor, none, .safe⟩
            else (s.run st).fault) ∧
          (∀ e ∈ u.queue, e.active = true ∧ e ∈ s.queue) ∧ u.claims = s.claims ∧ u.trackers = s.trackers ∧
          SafelyEntered (s.safe.causes ||| 8#5) s u ∧
          ∀ pl e, s.headOf pl = some e → e.active = true → (s.driver pl).leg = none →
            u.flagSet .changeFailed = true ∧ ∃ x, u.events.lastFailure = some x ∧ x.reason = .safe ∧ x.bank = none) ∧
      (s.safe.state ≠ .normal →
        exec (.safeEnter f) s =
          .next (answered 0x60 f ⟨.ok, [safeStateByte s.safe.state, byteOf (s.safe.causes ||| 8#5).toNat]⟩
            (react (s.setSafe { s.safe with causes := s.safe.causes ||| 8#5 })))) ∧
      (s.safe.state = .grace ∨ s.safe.state = .teardown ∨
          (s.safe.state = .safe ∧
            (s.chamber.door.debounced = false ∨ s.sup.summaries &&& s.settings.safeMask ≠ 0)) →
        exec (.safeExit f) s =
          .next (answered 0x61 f
            ⟨.eState, [safeStateByte s.safe.state, byteOf s.safe.causes.toNat,
              byteOf (s.sup.summaries &&& s.settings.safeMask).toNat]⟩ s)) ∧
      (s.safe.state = .safe → s.chamber.door.debounced = true → s.sup.summaries &&& s.settings.safeMask = 0 →
        exec (.safeExit f) s =
          .next (answered 0x61 f ⟨.ok, [0x00, 0x00]⟩
            (react (s.setSafe { s.safe with state := .normal, causes := 0 })))))

/-- NODE_RESET sets reset pending and adds RESET. In NORMAL that is safe entry, whole: both sequencers IDLE, the WAITING
entries cancelled, an ACTIVE head with no leg in flight failed (R71, R97, R140; orders: logs 3 and 29, fields of the run
states kept: log 24, a leg being reported in flight: log 13). In GRACE and TEARDOWN the clearing waits. In SAFE it is
made at once: claims, faults, counters, summaries, events, the bad-frame count and both run states take their reset
values and RESET leaves the set; with no COIL fault cleared on a fitted bank away from TERM reset pending then ends, the
state staying SAFE while a cause is left and becoming NORMAL with none (nothing being queued and no home owed); with
such a bank, it owes a home and the state is TEARDOWN, whether or not it owed one before (the model's reading, log 16;
R147). The clearing made when TEARDOWN reaches SAFE is stated with teardown's end, in GraceAndKeepaliveEnd. FORGET
clears the address and stops the keepalive timer (R155). Parameters are refused with E_ARG and FFH. -/
def Obligations.NodeResetAndForget : Prop :=
  ∀ (f : Request) (s : State), ForThisNode f s →
    (f.params ≠ [] →
      exec (.nodeReset f) s = .next (answered 0x62 f ⟨.eArg, [0xFF]⟩ s) ∧
      exec (.forget f) s = .next (answered 0x63 f ⟨.eArg, [0xFF]⟩ s)) ∧
    (f.params = [] →
      exec (.forget f) s =
        .next (answered 0x63 f ⟨.ok, []⟩ { s with ring := { s.ring with address := none, keepalive := none } }) ∧
      (s.safe.state = .normal →
        ∃ u : State,
          exec (.nodeReset f) s = .next (answered 0x62 f ⟨.ok, [0x01, byteOf (s.safe.causes ||| 16#5).toNat]⟩ u) ∧
          u.safe =
            { state := .grace, causes := s.safe.causes ||| 16#5, grace := some (s.settings.muteGrace * 100)
              resetPending := true } ∧
          SafelyEntered (s.safe.causes ||| 16#5) (s.setSafe { s.safe with resetPending := true }) u) ∧
      (s.safe.state = .grace ∨ s.safe.state = .teardown →
        exec (.nodeReset f) s =
          .next (answered 0x62 f ⟨.ok, [safeStateByte s.safe.state, byteOf (s.safe.causes ||| 16#5).toNat]⟩
            (react (s.setSafe { s.safe with causes := s.safe.causes ||| 16#5, resetPending := true })))) ∧
      (s.safe.state = .safe →
        (∀ b, (s.bank b).fitted = true → s.faultValid b .coil = true → (s.bank b).position = some .term) →
        (s.safe.causes &&& ~~~16#5 ≠ 0 →
          exec (.nodeReset f) s =
            .next (answered 0x62 f ⟨.ok, [0x03, byteOf (s.safe.causes &&& ~~~16#5).toNat]⟩
              (clearedWorking s .safe))) ∧
        (s.safe.causes &&& ~~~16#5 = 0 → s.queue = [] → (∀ b, (s.bank b).fitted = true → (s.bank b).homeOwed = false) →
          exec (.nodeReset f) s =
            .next (answered 0x62 f ⟨.ok, [0x00, 0x00]⟩ (clearedWorking s .normal)))) ∧
      (s.safe.state = .safe →
        (∃ b, ResetOwes s b) →
        ∃ t u : State,
          ClearedOwing (s.setSafe { s.safe with causes := s.safe.causes ||| 16#5, resetPending := true }) t ∧
          u = workForced .b (workForced .a t) ∧
          exec (.nodeReset f) s =
            .next (answered 0x62 f ⟨.ok, [0x02, byteOf (s.safe.causes &&& ~~~16#5).toNat]⟩ (react u)) ∧
          u.safe =
            { s.safe with state := .teardown, causes := s.safe.causes &&& ~~~16#5, resetPending := true } ∧
          u.claims = ClaimTable.empty ∧ u.events.flags &&& ~~~Event.pathFreed.mask = 0 ∧ u.sup.summaries = 0 ∧
          ∀ b, (s.bank b).fitted = true → s.faultValid b .coil = true → (s.bank b).position ≠ some .term →
            u.faultsOf b = 0 ∧ (u.bank b).homeOwed = true))

/-! ## Frames that are not executed, broadcasts -/

/-- A request to the node with a code that is not in the table answers E_UNKNOWN with no data (R161). A REQUEST for
another address is forwarded with its hop count raised, and by an unaddressed node unchanged (R153). A REQUEST to the
node that carries a status is not executed: ADDRESS_CLASH is raised and it is forwarded with its hop count raised
(R156). Nothing else changes but the keepalive timer, the forward list and the outputs. -/
def Obligations.RequestsPassedOn : Prop :=
  (∀ (code : Byte) (f : Request) (s : State), ForThisNode f s → code ∉ requestCodes →
    exec (.eUnknown code f) s = .next (answered code f ⟨.eUnknown, []⟩ s)) ∧
  ∀ (code : Byte) (f : Request) (s : State), Ready s → f.wellFormed = true →
    (s.ring.address = none →
      exec (.requestOtherDestination code f) s = .next (finishFrame (requestFrame code f) s).driveOutputs) ∧
    ∀ a, s.ring.address = some a → f.hdr.dest ≠ 0 →
      (f.hdr.dest ≠ a →
        exec (.requestOtherDestination code f) s =
          .next (finishFrame (requestFrame code { f with hdr := hopped f.hdr }) s).driveOutputs) ∧
      (f.hdr.dest = a → f.status ≠ 0xFF →
        exec (.addressClash code f) s =
          .next (finishFrame (requestFrame code { f with hdr := hopped f.hdr }) (s.raise .addressClash)).driveOutputs)

/-- A good REQUEST with destination 0: SET_SETTINGS, CLEAR_EVENTS, SAFE_ENTER, SAFE_EXIT, NODE_RESET and FORGET have the
effect they have when sent to the node's address, and every other request of the table has none; the node's bit of the
ack map is 1 exactly for an executed request with status OK, and the hop count is raised (R157; log 25: whatever status
byte it carries). A response length other than 2 makes it a bad frame (R150). -/
def Obligations.BroadcastRequests : Prop :=
  ∀ (f : Request) (s : State) (a : BitVec 4), Ready s → f.wellFormed = true → f.hdr.dest = 0 →
    s.ring.address = some a → a ≠ 0 →
    (f.resp.length = 2 →
      (∀ x ∈ executedInBroadcast, ∃ (r : Reply) (u : State),
        exec (x.2 { f with hdr := { f.hdr with dest := a }, status := 0xFF }) s =
          .next (answered x.1 { f with hdr := { f.hdr with dest := a }, status := 0xFF } r u) ∧
        exec (x.2 f) s =
          .next (finishFrame
            (requestFrame x.1 { f with hdr := hopped f.hdr, resp := ackMap f.resp a (decide (r.status = .ok)) })
            u).driveOutputs) ∧
      ∀ x ∈ keptFromBroadcast,
        exec (x.2 f) s =
          .next (finishFrame (requestFrame x.1 { f with hdr := hopped f.hdr, resp := ackMap f.resp a false })
            s).driveOutputs) ∧
    (f.resp.length ≠ 2 →
      ∀ x ∈ executedInBroadcast ++ keptFromBroadcast,
        exec (x.2 f) s = .next (finishFrame (requestFrame x.1 f) (countBad s)).driveOutputs)

/-! ## CADENCE, ENUMERATE, bad frames -/

/-- A CADENCE frame completes at every node. An unaddressed one forwards it unchanged (R153). An addressed one records its
number and gate bits, raising CADENCE_SLIP with a step that is not 1 to 16 (R86, R158), delivers it to both sequencers,
and forwards it with the hop count raised and its settle and attention bits written, every other bit as it came (R159).
A sequencer that dwells counts the frame, its step ending at 0 (R87, R88); one that is STALLED retries plane A then plane
B, a fault ending it, and leaves STALLED when no plane is stalled, for WAITING with a change just accepted (R85, R108; where
R107 has DWELLING if the other change has ended, the model's reading is R85, log 31); any other does not act. Either sequencer
is first, and the calls of the other come before, between or after its two (R85, R99); the bits are read at any one of
the points so passed, the attention bit with the frame's own events (R39, R158, R170): which, is the model's free order
(log 3), where the drivers choose is log 10, and the reading of both bits at one point is log 20. With neither sequencer
acting and nothing for the drivers to choose, nothing else changes. -/
def Obligations.CadenceTaken : Prop :=
  (∀ number : Word16, cadenceStep none number = (1, false)) ∧
  (∀ last number : Word16,
    cadenceStep (some last) number =
      if 1 ≤ (number - last).toNat ∧ (number - last).toNat ≤ 16 then ((number - last).toNat, false) else (1, true)) ∧
  (∀ (d : Nat) (st : Station) (s : State),
    ((s.run st).state = .waiting ∨ (s.run st).state = .held ∨ (s.run st).state = .idle ∨ (s.run st).state = .done ∨
      (s.run st).state = .faulted → takeCadenceA d st s = (.over, s)) ∧
    ((s.run st).state = .dwelling → d < (s.run st).dwell →
      takeCadenceA d st s = (.over, s.setRun st { s.run st with dwell := (s.run st).dwell - d })) ∧
    ((s.run st).state = .dwelling → (s.run st).dwell ≤ d →
      takeCadenceA d st s = endStepA st (s.setRun st { s.run st with dwell := 0 })) ∧
    ((s.run st).state = .stalled →
      ∃ w fault, PlaneRetried st .a s w fault ∧ takeCadenceA d st s = (if fault = none then .retryB else .over, w)) ∧
    endStep st s = finishTurn st (endStepA st s) ∧
    (∀ n test r t, nextIndex (s.seqCfg st) (s.run st) = (n, test, r) → (s.seqCfg st).stop ≠ some n →
      (s.run st).copy.hold = false → (s.step n).kind = .apply t →
      ∃ v w fault,
        ArrivesAt st n (decide (test = .loopback))
          (if test = .advance true then (s.setRun st r).raise (wrapEvent st) else s.setRun st r) v ∧
        PlaneEvaluated st .a v w fault ∧ endStepA st s = (if fault = none then .evalB else .over, w)) ∧
    (∀ n test r, nextIndex (s.seqCfg st) (s.run st) = (n, test, r) →
      ((s.seqCfg st).stop = some n ∨ (s.run st).copy.hold = true ∨ ∃ t, (s.step n).kind = .jump t) →
      endStepA st s = (.over, endStep st s)) ∧
    finishTurn st (.over, s) = s ∧ SecondEvaluated st s (finishTurn st (.evalB, s)) ∧
    SecondRetried st s (finishTurn st (.retryB, s))) ∧
  (∀ v : State,
    (v.settled = true ↔ v.queue = [] ∧ (∀ p, (v.path p).state = .free ∨ (v.path p).state = .live) ∧
      v.safe.state = .normal) ∧
    (v.attention = true ↔ v.events.flags &&& v.settings.attentionMask ≠ 0) ∧
    (v.frameAttention = true ↔
      ∃ ev ∈ [Event.cadenceSlip, .seq1Mark, .seq2Mark, .seq1Stopped, .seq2Stopped, .seq1Fault, .seq2Fault, .seq1Stall,
          .seq2Stall, .seq1Wrap, .seq2Wrap],
        v.flagSet ev = true ∧ v.settings.attentionMask.getLsbD ev.bit = true)) ∧
  ∀ (f : CadenceFrame) (s : State), Ready s →
    (s.ring.address = none → exec (.cadence f) s = .next (finishFrame (cadenceBytes f) s).driveOutputs) ∧
    ∀ (a : BitVec 4) (d : Nat) (slip : Bool) (s0 : State), s.ring.address = some a →
      cadenceStep s.ring.lastCadence f.number = (d, slip) →
      s0 =
        (if slip = true then
          ({ s.redraw with
              ring := { s.ring with lastCadence := some f.number, gates := f.gates.setWidth 4 } } : State).raise .cadenceSlip
         else
          { s.redraw with
            ring := { s.ring with lastCadence := some f.number, gates := f.gates.setWidth 4 } }) →
      (∃ (p q : Station) (points : List State) (u t : State), p ≠ q ∧ u ∈ points ∧ points.getLast? = some t ∧
        exec (.cadence f) s =
          .next (finishFrame
            (cadenceBytes
              { f with
                hdr := hopped f.hdr, settle := writeBit f.settle a.toNat u.settled
                attention := writeBit f.attention a.toNat (u.attention || t.frameAttention) })
            t).driveOutputs ∧
        let pA := takeCadenceA d p s0
        let pB := finishTurn p pA
        let qA := takeCadenceA d q (react pB)
        let qA' := takeCadenceA d q pA.2
        (points = [s0, pA.2, pB, react pB, qA.2, finishTurn q qA, react (finishTurn q qA)] ∨
          points =
            [s0, pA.2, qA'.2, finishTurn q qA', finishTurn p (pA.1, finishTurn q qA'),
             react (finishTurn p (pA.1, finishTurn q qA'))] ∨
          points =
            [s0, pA.2, qA'.2, finishTurn p (pA.1, qA'.2), finishTurn q (qA'.1, finishTurn p (pA.1, qA'.2)),
             react (finishTurn q (qA'.1, finishTurn p (pA.1, qA'.2)))])) ∧
      ((∀ st, (s.run st).state ≠ .dwelling ∧ (s.run st).state ≠ .stalled) →
        (s.safe.state = .grace ∨ s.safe.state = .safe ∨
          (s.safe.state = .normal ∧ canChoose s .a = false ∧ canChoose s .b = false)) →
        exec (.cadence f) s =
          .next (finishFrame
            (cadenceBytes
              { f with
                hdr := hopped f.hdr, settle := writeBit f.settle a.toNat s0.settled
                attention := writeBit f.attention a.toNat s0.attention })
            s0).driveOutputs)

/-- An unaddressed node takes a next address of 1 to 15 as its own and writes the next one; from 16 it stays unaddressed
and sets the overflow flag; both raise the hop count. A next address of 0 makes a bad frame. An addressed node forwards
the frame unchanged. Nothing else changes but the keepalive timer, the forward list and the outputs (R150, R153, R154,
R160). -/
def Obligations.EnumerateTaken : Prop :=
  ∀ (h : Header) (next flags : Byte) (s : State), Ready s →
    (s.ring.address ≠ none →
      exec (.enumerate h next flags) s = .next (finishFrame (enumerateBytes h next flags) s).driveOutputs) ∧
    (s.ring.address = none →
      (next = 0 →
        exec (.enumerate h next flags) s =
          .next (finishFrame (enumerateBytes h next flags) (countBad s)).driveOutputs) ∧
      (1 ≤ next.toNat → next.toNat ≤ 15 →
        exec (.enumerate h next flags) s =
          .next (finishFrame (enumerateBytes (hopped h) (next + 1) flags)
            (s.setRing { s.ring with address := some (next.setWidth 4) })).driveOutputs) ∧
      (16 ≤ next.toNat →
        exec (.enumerate h next flags) s =
          .next (finishFrame (enumerateBytes (hopped h) next (flags ||| 1)) s).driveOutputs))

/-- Bytes that fail the size or check test of R150 are a bad frame that does not restart the keepalive timer; with a good
size and check, a kind of 0 or 6 to 15 is forwarded unchanged and not counted, and one of 1 to 5 with bits 7..4 of byte
1 not zero is a bad frame. A frame that ends while the forward list holds 4 frames is lost and counted. The oldest
frame of the list leaves it when it has been sent (R152). -/
def Obligations.BadAndLostFrames : Prop :=
  ∀ (bytes : List Byte) (s : State), s.inReset = false →
    (s.ring.forward.length < 4 →
      (¬ (6 ≤ bytes.length ∧ bytes.length ≤ 126 ∧ val1 bytes 3 ≤ 120 ∧ bytes.length = 6 + val1 bytes 3 ∧
          wordBytes (crc (bytes.take (bytes.length - 2))) = bytes.drop (bytes.length - 2)) →
        exec (.badFrame bytes) s = .next (forwardFrame bytes (countBad s)).driveOutputs) ∧
      (6 ≤ bytes.length → bytes.length ≤ 126 → val1 bytes 3 ≤ 120 → bytes.length = 6 + val1 bytes 3 →
          wordBytes (crc (bytes.take (bytes.length - 2))) = bytes.drop (bytes.length - 2) →
        (val1 bytes 0 / 16 = 0 ∨ 6 ≤ val1 bytes 0 / 16 →
          exec (.unknownFrame bytes) s = .next (finishFrame bytes s).driveOutputs) ∧
        (1 ≤ val1 bytes 0 / 16 → val1 bytes 0 / 16 ≤ 5 → 16 ≤ val1 bytes 1 →
          exec (.badFrame bytes) s = .next (finishFrame bytes (countBad s)).driveOutputs))) ∧
    (4 ≤ s.ring.forward.length → exec (.forwardListFull bytes) s = .next (countBad s).driveOutputs) ∧
    exec .forwardFrameSent s =
      .next (s.setRing { s.ring with forward := s.ring.forward.tail }).driveOutputs

/-! ## Timers, visits, inputs, reset -/

/-- The end of the grace timer takes GRACE to TEARDOWN (R141); with no path, no home owed, no leg and no pause both
planes are done and SAFE is reached at once (R142). In TEARDOWN a driver with no leg in flight is in forced mode (R71,
R72). It takes the non-FREE paths of its plane in slot order, a LIVE or SETTLING one becoming CLOSING when it is
reached, and of each the banks held in leg order: one at TERM is released, one with a valid COIL fault is recorded
UNKNOWN and released, and any other is driven; a path that holds no bank goes FREE, a current path on it being none
(R95). Then it takes the homes owed in bank order, but for a bank not at TERM with a valid COIL fault: at TERM the home
ends, else it is driven (R72, R73). When both planes are done the state is SAFE and the drivers leave forced mode (R72,
R142). With RESET in the cause set the clearing of R147 is made then: claims, faults, counters, summaries, events, the
bad-frame count and both run states take their reset values and RESET leaves the set; where it makes a bank owe a home,
one that owed it before too (the model's reading, log 16), the state is TEARDOWN again and the drivers work on, reset
pending still yes. With no such bank, or where SAFE is reached with reset pending and RESET not in the set, reset
pending ends, the state staying SAFE while a cause is left and becoming NORMAL with none, where the drivers choose work
(R147). The expiry of the keepalive timer stops it and adds KEEPALIVE, which in NORMAL is safe entry, whole (R71, R97,
R139, R140, R160; orders: logs 3 and 29, fields of the run states kept: log 24, a leg being reported in flight: log 13).
The time left passes first (the model's choice, log 2). -/
def Obligations.GraceAndKeepaliveEnd : Prop :=
  (∀ s : State, s.inReset = false →
    (∀ n, s.safe.grace = some n → s.safe.state = .grace →
      exec .graceEnd s =
        .next (settleTeardown
          ((s.elapse n).setSafe { s.safe with state := .teardown, grace := none })).driveOutputs ∧
      ((∀ p, (s.path p).state = .free) → (∀ b, (s.bank b).fitted = true → (s.bank b).homeOwed = false) →
        (∀ pl, (s.driver pl).leg = none ∧ (s.driver pl).pause = none) → causeIn .reset s.safe.causes = false →
        s.safe.resetPending = false →
        ∃ t : State, exec .graceEnd s = .next t ∧
          t.safe = { s.safe with state := .safe, grace := none } ∧ (∀ pl, (t.driver pl).forced = false) ∧
          t.banks = s.banks ∧ t.queue = s.queue ∧ t.claims = s.claims ∧ t.seqs = s.seqs ∧ t.events = s.events)) ∧
    (∀ n, s.ring.keepalive = some n →
      (∃ u : State, exec .keepaliveExpiry s = .next u.driveOutputs ∧
        CauseJoins 1#5 ((s.elapse n).setRing { (s.elapse n).ring with keepalive := none }) u) ∧
      (s.safe.state = .normal →
        ∃ t : State, exec .keepaliveExpiry s = .next t ∧ t.ring.keepalive = none ∧
          t.safe =
            { state := .grace, causes := s.safe.causes ||| 1#5, grace := some (s.settings.muteGrace * 100)
              resetPending := s.safe.resetPending } ∧
          t.flagSet .safe = true ∧ t.chamber.mute1 = true ∧ t.chamber.mute2 = true ∧ t.chamber.alert = true) ∧
      (s.safe.state ≠ .normal →
        ∃ t : State, exec .keepaliveExpiry s = .next t ∧ t.ring.keepalive = none ∧
          t.safe = { (s.elapse n).safe with causes := s.safe.causes ||| 1#5 } ∧ t.queue = s.queue ∧
          t.banks = s.banks ∧ t.seqs = s.seqs ∧ t.events = s.events))) ∧
  (∀ s : State,
    (s.safe.state = .teardown → react s = settleTeardown s) ∧
    (¬ (∀ pl, PlaneDone (workForced .b (workForced .a s)) pl) →
      settleTeardown s = workForced .b (workForced .a s)) ∧
    ∀ w v : State, w = workForced .b (workForced .a s) → (∀ pl, PlaneDone w pl) →
      v =
        { w with
          safe := { w.safe with state := .safe }
          drivers :=
            ⟨{ w.drivers.a with forced := false, passed := 0, waiting := none },
             { w.drivers.b with forced := false, passed := 0, waiting := none }⟩ } →
      (causeIn .reset v.safe.causes = false →
        (v.safe.resetPending = false → settleTeardown s = v) ∧
        (v.safe.resetPending = true → v.safe.causes ≠ 0 →
          settleTeardown s = v.setSafe { v.safe with resetPending := false }) ∧
        (v.safe.resetPending = true → v.safe.causes = 0 →
          settleTeardown s = react (v.setSafe { v.safe with state := .normal, resetPending := false }))) ∧
      (causeIn .reset v.safe.causes = true →
        ((∀ b, ¬ ResetOwes v b) →
          (v.safe.causes &&& ~~~16#5 ≠ 0 → settleTeardown s = clearedWorking v .safe) ∧
          (v.safe.causes &&& ~~~16#5 = 0 → settleTeardown s = react (clearedWorking v .normal))) ∧
        ((∃ b, ResetOwes v b) →
          ∃ t, ClearedOwing v t ∧ settleTeardown s = workForced .b (workForced .a t)))) ∧
  ∀ (s : State) (pl : Plane),
    ((s.driver pl).leg ≠ none → workForced pl s = s) ∧
    ((s.driver pl).leg = none →
      ∀ s1, s1 = s.setDriver pl { s.driver pl with forced := true } →
        ((s.driver pl).pause ≠ none → workForced pl s = s1) ∧
        ((s.driver pl).pause = none →
          (∀ p s2, UsedOn s pl p → (∀ q, q < p → ¬ UsedOn s pl q) →
            s2 =
              (if (s.path p).state = .live ∨ (s.path p).state = .settling then
                s1.setPath p
                  { s.path p with
                    state := .closing, prior := priorOf (s.path p).state, priorLegs := (s.path p).legsDone
                    settleTimer := none, legsDone := s.legsReleased p }
               else s1) →
            (s.heldBanks p = [] → workForced pl s = forcedLoop pl 64 (freeSlot p s2)) ∧
            ∀ b more, s.heldBanks p = b :: more →
              ((s.bank b).position = some .term → workForced pl s = forcedLoop pl 64 (endForcedBreak p b s2)) ∧
              ((s.bank b).position ≠ some .term → s.faultValid b .coil = true →
                workForced pl s =
                  forcedLoop pl 64 (endForcedBreak p b (s2.setBank b { s.bank b with position := none }))) ∧
              ((s.bank b).position ≠ some .term → s.faultValid b .coil = false →
                workForced pl s = startLeg pl { bank := b, target := .term, source := .forcedBreak p } s2) ∧
              ((endForcedBreak p b s2).bank b).holder = none ∧
              (more = [] → ((endForcedBreak p b s2).path p) = PathRecord.free ∧
                (endForcedBreak p b s2).flagSet .pathFreed = true ∧ CurrentsDrop p s2 (endForcedBreak p b s2))) ∧
          ((∀ p, ¬ UsedOn s pl p) →
            ((∀ b, ¬ ForcedHomeDue s pl b) → workForced pl s = s1) ∧
            ∀ b, ForcedHomeDue s pl b → (∀ x, x < b → ¬ ForcedHomeDue s pl x) →
              ((s.bank b).position = some .term →
                workForced pl s = forcedLoop pl 64 (s1.setBank b { s.bank b with homeOwed := false })) ∧
              ((s.bank b).position ≠ some .term →
                workForced pl s = startLeg pl { bank := b, target := .term, source := .forcedHome } s1))))

/-- A cycle starts with the interval timer at 0 and the visit of the first fitted bank with no leg in flight, its three
readings sampled; with none it ends at once (R123, R124). A visit end keeps the sample of a bank that is fitted and has
no leg in flight, judges COIL and DRIFT by R125, STRAY of an unheld bank at TERM and WORN by R126, one after another,
against the bank record of the visit end (an earlier check that enters the safe state notwithstanding: log 32), a held
bank and one away from TERM keeping the STRAY counter; a miss in the bypass set or at the effective threshold makes its
fault valid, with a kind in the safe mask FAULT joins the causes, in NORMAL safe entry (R128, R130, R139, R140; orders:
logs 3 and 29, fields of the run states kept: log 24, a leg being reported in flight: log 13). It judges nothing on any
other bank. The cycle then goes on with the visit of the next fitted bank with no leg in flight, its readings sampled
(R124); past B23 it ends: stopped with interval 0, else waiting, with the interval timer going on, or from 0 where it
did not run, and with the next cycle at once where the timer has reached the interval (R123). (Log 2: the time left
passes first. An interval timer that does not run keeps its value while the cycle goes on: the model's choice, log 22.)
-/
def Obligations.VisitsRun : Prop :=
  ∀ s : State, s.inReset = false →
    (s.sup.cycle = .waiting → s.sup.running = true → s.settings.interval ≠ 0 →
      ∃ t : State, exec .visitCycleStart s = .next t ∧ t.sup.elapsed = 0 ∧ t.sup.running = true ∧
        t.banks = s.banks ∧ t.sup.faults = s.sup.faults ∧ t.sup.counters = s.sup.counters ∧
        t.sup.samples = s.sup.samples ∧
        ((∀ b, (s.bank b).fitted = false ∨ s.inFlight b = true) → t.sup.cycle = .waiting ∧ t.sup.visit = none) ∧
        (∀ b, (s.bank b).fitted = true → s.inFlight b = false →
          (∀ x, x < b → (s.bank x).fitted = false ∨ s.inFlight x = true) →
          t.sup.cycle = .visiting ∧ t.sup.position = b ∧
            t.sup.visit =
              some
                { sample := ⟨(s.lines.get b).coil, (s.lines.get b).detector, s.readback b⟩
                  left := 4 })) ∧
    (∀ (v : Visit) (b : BankId), s.sup.visit = some v → s.sup.position = b →
      ∃ t : State, exec .visitEnd s = .next t ∧
        (∀ x, b < x → (s.bank x).fitted = true → s.inFlight x = false →
          (∀ y, b < y → y < x → (s.bank y).fitted = false ∨ s.inFlight y = true) →
          t.sup.cycle = .visiting ∧ t.sup.position = x ∧ t.sup.elapsed = (s.elapse v.left).sup.elapsed ∧
            t.sup.running = s.sup.running ∧
            t.sup.visit =
              some { sample := ⟨(s.lines.get x).coil, (s.lines.get x).detector, s.readback x⟩, left := 4 }) ∧
        ((∀ x, b < x → (s.bank x).fitted = false ∨ s.inFlight x = true) →
          (s.settings.interval = 0 → t.sup.cycle = .stopped ∧ t.sup.running = false ∧ t.sup.visit = none) ∧
          (s.settings.interval ≠ 0 → s.sup.running = false →
            t.sup.cycle = .waiting ∧ t.sup.running = true ∧ t.sup.elapsed = 0 ∧ t.sup.visit = none) ∧
          (s.settings.interval ≠ 0 → s.sup.running = true →
            (s.elapse v.left).sup.elapsed < s.settings.interval * 100 →
            t.sup.cycle = .waiting ∧ t.sup.running = true ∧ t.sup.elapsed = (s.elapse v.left).sup.elapsed ∧
              t.sup.visit = none) ∧
          (s.settings.interval ≠ 0 → s.sup.running = true →
            s.settings.interval * 100 ≤ (s.elapse v.left).sup.elapsed →
            t.sup.elapsed = 0 ∧ t.sup.running = true ∧
            ((∀ x, (s.bank x).fitted = false ∨ s.inFlight x = true) → t.sup.cycle = .waiting ∧ t.sup.visit = none) ∧
            ∀ x, (s.bank x).fitted = true → s.inFlight x = false →
              (∀ y, y < x → (s.bank y).fitted = false ∨ s.inFlight y = true) →
              t.sup.cycle = .visiting ∧ t.sup.position = x ∧
                t.sup.visit =
                  some { sample := ⟨(s.lines.get x).coil, (s.lines.get x).detector, s.readback x⟩, left := 4 })) ∧
        ((s.bank b).fitted = false ∨ s.inFlight b = true →
          t.sup.samples = s.sup.samples ∧ t.sup.faults = s.sup.faults ∧ t.sup.counters = s.sup.counters ∧
            t.events = s.events) ∧
        ((s.bank b).fitted = true → s.inFlight b = false →
          t.sup.samples = s.sup.samples.set b.1 (some v.sample) b.2 ∧
          (∃ w : State,
            VisitJudged b v.sample
              { s.elapse v.left with sup := { (s.elapse v.left).sup with visit := none } } w ∧
            t = { w with sup := t.sup }.driveOutputs ∧
            t.sup =
              { w.sup with
                cycle := t.sup.cycle, position := t.sup.position, elapsed := t.sup.elapsed, running := t.sup.running
                visit := t.sup.visit, samples := t.sup.samples }) ∧
          (s.faultValid b .coil = false →
            t.counter b .coil =
              if s.settings.coilMin ≤ v.sample.coil.toNat ∧ v.sample.coil.toNat ≤ s.settings.coilMax then 0
              else min 7 (s.counter b .coil + 1)) ∧
          (s.faultValid b .drift = false →
            t.counter b .drift =
              if (s.bank b).position = none ∨ (s.bank b).position = v.sample.reading then 0
              else min 7 (s.counter b .drift + 1)) ∧
          (s.faultValid b .stray = false → (s.bank b).position = some .term → (s.bank b).holder = none →
            t.counter b .stray =
              if v.sample.detector.toNat < s.settings.strayThreshold then 0 else min 7 (s.counter b .stray + 1)) ∧
          (s.faultValid b .stray = false → (s.bank b).position ≠ some .term ∨ (s.bank b).holder ≠ none →
            t.counter b .stray = s.counter b .stray) ∧
          ((s.bank b).lifeLimit ≠ 0 → (s.bank b).lifeLimit ≤ (s.bank b).lifeCount →
            t.faultValid b .worn = true)))

/-- A level change that leaves an input away from its debounced state starts its timer at 5 ms, one that brings it back
stops the timer (R116). A debounced change of DOOR to CLOSED removes DOOR, one to OPEN adds it, which in NORMAL is safe
entry, whole (R71, R97, R139, R140; orders: logs 3 and 29, fields of the run states kept: log 24, a leg being reported
in flight: log 13). A debounced seat change writes the last fixture change record and raises FIXTURE (R121); a seat
changes no path (R120). An unseat cancels the WAITING MAKE or SWAP to the port as R35 states: its new slot goes FREE and
is the one of the slots cancelled, and a SWAP's old slot is restored with its banks (R118; its established cadence is
kept, log 27, and with an extra settle of 0 its timer is at 0, whose end is a step of its own, log 12), the sequencer
that made the entry being given the notice (R55, R84, R95; its record is matched by its slots, log 11); an unseat that
finds no WAITING entry to the port makes its SETTLING and LIVE paths FAILED and, in NORMAL, queues their BREAKs with
origin PART, and sets close owed on its FORMING paths (R119). The time left of a timer passes first (the model's choice,
log 2). -/
def Obligations.ChamberInputs : Prop :=
  ∀ s : State, s.inReset = false →
    (∀ (n : FixtureId) (closed : Bool),
      ((s.chamber.seats.get n).level = closed → exec (.inputLevelChange (.seat n) closed) s = .next s.driveOutputs) ∧
      ((s.chamber.seats.get n).level ≠ closed →
        exec (.inputLevelChange (.seat n) closed) s =
          .next (s.setSeat n
            { level := closed, debounced := (s.chamber.seats.get n).debounced
              timer := if closed = (s.chamber.seats.get n).debounced then none else some 500 }).driveOutputs)) ∧
    (∀ closed : Bool,
      (s.chamber.door.level = closed → exec (.inputLevelChange .door closed) s = .next s.driveOutputs) ∧
      (s.chamber.door.level ≠ closed →
        exec (.inputLevelChange .door closed) s =
          .next (s.setDoor
            { level := closed, debounced := s.chamber.door.debounced
              timer := if closed = s.chamber.door.debounced then none else some 500 }).driveOutputs)) ∧
    (∀ k, s.chamber.door.timer = some k → s.chamber.door.level = false →
      ∃ u : State, exec .doorDebouncedChange s = .next u.driveOutputs ∧
        CauseJoins 2#5 ((s.elapse k).setDoor { level := false, debounced := false, timer := none }) u) ∧
    (∀ k, s.chamber.door.timer = some k →
      ∃ t : State, exec .doorDebouncedChange s = .next t ∧
        t.chamber.door = { level := s.chamber.door.level, debounced := s.chamber.door.level, timer := none } ∧
        (s.chamber.door.level = true →
          t.safe = { (s.elapse k).safe with causes := s.safe.causes &&& ~~~2#5 } ∧ t.queue = s.queue) ∧
        (s.chamber.door.level = false → s.safe.state = .normal →
          t.safe =
            { state := .grace, causes := s.safe.causes ||| 2#5, grace := some (s.settings.muteGrace * 100)
              resetPending := s.safe.resetPending }) ∧
        (s.chamber.door.level = false → s.safe.state ≠ .normal →
          t.safe = { (s.elapse k).safe with causes := s.safe.causes ||| 2#5 } ∧ t.queue = s.queue)) ∧
    (∀ (n : FixtureId) (k : Nat), (s.chamber.seats.get n).timer = some k →
      ((s.chamber.seats.get n).level = true →
        ∃ t : State, exec (.seatDebouncedChange n) s = .next t ∧
          t.chamber.seats.get n = { level := true, debounced := true, timer := none } ∧
          t.events.lastFixture = some { fixture := n, seated := true, failedSlots := 0, cancelledSlots := 0 } ∧
          t.events.flags = (s.raise .fixture).events.flags ∧ t.paths = (s.elapse k).paths ∧ t.queue = s.queue ∧
          t.banks = s.banks ∧ t.safe = (s.elapse k).safe) ∧
      ((s.chamber.seats.get n).level = false →
        ∀ (before after : List Entry) (e : Entry) (p : Slot), s.queue = before ++ e :: after → e.active = false →
          e.new = some p → s.slotEndsAt p n = true → (∀ q, q ≠ p → s.slotEndsAt q n = false) →
          (∀ x ∈ before ++ after, x.active = false → x.new ≠ some p) →
          (e.kind = .makeChange ∨ (e.kind = .swapChange ∧ ∃ o, e.old = some o ∧ o ≠ p)) →
          ∃ u : State,
            exec (.seatDebouncedChange n) s = .next (react u).driveOutputs ∧
            (∃ w : State,
              Cancelled e ((s.elapse k).setSeat n { level := false, debounced := false, timer := none }) w ∧
              u = { w with events := u.events }) ∧
            u.chamber.seats.get n = { level := false, debounced := false, timer := none } ∧
            u.path p = PathRecord.free ∧ u.queue = before ++ after ∧ u.flagSet .pathFreed = true ∧
            u.flagSet .fixture = true ∧
            u.events.lastFixture =
              some { fixture := n, seated := false, failedSlots := 0, cancelledSlots := 1#16 <<< p.1 } ∧
            (e.kind = .makeChange →
              (∀ q, q ≠ p → u.path q = (s.elapse k).path q) ∧
              ∀ b, u.bank b =
                if (s.bank b).holder = some p then
                  { s.bank b with
                    holder := none
                    homeOwed := (s.bank b).homeOwed || decide ((s.bank b).position ≠ some .term) }
                else s.bank b) ∧
            ∀ (o : Slot) (r : RouteId) (x : PriorState), e.kind = .swapChange → e.old = some o →
              (s.path o).route = some r → (s.path o).prior = some x → x ≠ .failed →
              u.path o =
                (if x = .settling then
                  { s.path o with
                    state := .settling, settleTimer := some ((s.route r).extraSettle * 10)
                    legsDone := (s.route r).legs.length }
                 else
                   { (s.elapse k).path o with state := .live, legsDone := (s.route r).legs.length }) ∧
              (∀ q, q ≠ o → q ≠ p → u.path q = (s.elapse k).path q) ∧
              (∀ b, u.bank b =
                if (s.bank b).holder = some p then
                  (if b ∈ (s.route r).legs.map RouteLeg.bank then { s.bank b with holder := some o }
                   else
                     { s.bank b with
                       holder := none
                       homeOwed := (s.bank b).homeOwed || decide ((s.bank b).position ≠ some .term) })
                else s.bank b) ∧
              ∀ st, e.origin = .sequencer st → (∃ c, (s.run st).changes = [c] ∧ c.new = some p) →
                (s.run st).current.get e.plane = some p → (u.run st).changes = [] ∧
                  (u.run st).current.get e.plane = some o) ∧
      ((s.chamber.seats.get n).level = false →
        (∀ e ∈ s.queue, e.active = false → ∀ p, e.new = some p → s.slotEndsAt p n = false) →
        ∃ (u : State) (x : FixtureChange),
          exec (.seatDebouncedChange n) s = .next (react u).driveOutputs ∧
          u.chamber.seats.get n = { level := false, debounced := false, timer := none } ∧ u.banks = s.banks ∧
          u.flagSet .fixture = true ∧ u.events.lastFixture = some x ∧ x.fixture = n ∧ x.seated = false ∧
          x.cancelledSlots = 0 ∧
          (∀ p, x.failedSlots.getLsbD p.1 = true ↔ FailedByUnseat s n p) ∧
          (∀ p, ¬ FailedByUnseat s n p → u.path p = (s.elapse k).path p) ∧
          (∀ p, FailedByUnseat s n p →
            (u.path p).failure = (s.path p).failure.or (some .fixtureLost) ∧ (u.path p).settleTimer = none) ∧
          (s.safe.state ≠ .normal →
            u.queue = s.queue ∧ ∀ p, FailedByUnseat s n p →
              (u.path p).state = .failed ∧ (u.path p).closeOwed = (s.path p).closeOwed) ∧
          (s.safe.state = .normal →
            (∀ p, FailedByUnseat s n p → (s.path p).state = .forming →
              (u.path p).state = .failed ∧ (u.path p).closeOwed = true ∧
                (u.path p).closeOwedCause = (s.path p).closeOwedCause.or (some .fixtureLoss)) ∧
            (∀ p, FailedByUnseat s n p → (s.path p).state ≠ .forming →
              (u.path p).state = .closing ∧ (u.path p).prior = some .failed ∧
                (u.path p).priorLegs = (s.path p).legsDone) ∧
            ∃ broken : List Slot,
              (∀ p, p ∈ broken ↔ FailedByUnseat s n p ∧ (s.path p).state ≠ .forming) ∧
              broken.Pairwise (fun p q => p < q) ∧
              u.queue = s.queue ++ broken.map fun p =>
                { kind := .breakChange, old := some p, new := none, plane := s.slotPlane p, origin := .part
                  active := false, plan := (s.heldBanks p).map fun b => ⟨b, .term, .breakPart, .oldSlot⟩ })))

/-- Hardware reset takes every state to one state: every record of the part at its reset values (R2, R14, R20, R41, R55,
R56, R75, R78, R80, R111, R116, R122, R138, R144, R148, R163, R166, R167, R171), the pins, the free orders and the queue
of commands as they were. At its end the debounced states take the levels and no timer of an input runs; the first cycle
starts, its first visit being that of the lowest fitted bank with no leg in flight, or with none ending at once; an open
door is safe entry with DOOR, whole (R71, R97, R139, R140; orders: logs 3 and 29, fields of the run states kept: log 24,
a leg being reported in flight: log 13), a closed one changes nothing more (R116, R122 to R124). Out of reset that end
changes nothing but the outputs (the model's choice for a command that does not fit, log 9). The levels held in reset,
the debounced states meanwhile and the cycle that has started are the model's (logs 5 to 7). -/
def Obligations.HardwareResetStatement : Prop :=
  ∀ s : State,
    exec .hardwareReset s =
      .next
        { inReset := true
          ring := { address := none, badFrames := 0, lastCadence := none, gates := 0, keepalive := none, forward := [] }
          settings :=
            { keepalivePeriod := 0, muteGrace := 10, interval := 20, missThreshold := 2, bypass := 0, hotThreshold := 64
              strayThreshold := 128, coilMin := 200, coilMax := 800, alertMask := 63, safeMask := 0
              attentionMask := 4194303 }
          banks :=
            Vector.replicate 24
              { fitted := false, plane := .a, throwsFitted := 1, operate := 1, settle := 0, lifeLimit := 0
                lifeCount := 0, position := none, holder := none, homeOwed := false, hotDeferrals := 0 }
          lines := s.lines
          routes :=
            Vector.replicate 128
              { defined := false, station := .s1, port := 1, plane := .a, endpoint := .probe 0, legs := []
                extraSettle := 0 }
          paths :=
            Vector.replicate 16
              { state := .free, route := none, station := none, origin := none, legsDone := 0, closeOwed := false
                closeOwedCause := none, failure := none, prior := none, priorLegs := 0, settleTimer := none
                established := none }
          queue := []
          trackers :=
            ⟨{ isOpen := false, tag := none, budget := 0, closingHeld := false },
             { isOpen := false, tag := none, budget := 0, closingHeld := false }⟩
          drivers :=
            ⟨{ phase := .idle, leg := none, left := 0, held := none, waiting := none, passed := 0, forced := false
               pause := none },
             { phase := .idle, leg := none, left := 0, held := none, waiting := none, passed := 0, forced := false
               pause := none }⟩
          steps :=
            Vector.replicate 512
              { kind := .apply 1, routeA := .keep, routeB := .keep, cond := .always, mark := false, hold := false }
          seqs := ⟨⟨SeqSettings.reset, SeqRun.reset⟩, ⟨SeqSettings.reset, SeqRun.reset⟩⟩
          claims := { banks := Vector.replicate 24 none, fixtures := Vector.replicate 4 none }
          chamber :=
            { seats :=
                s.chamber.seats.map fun x => { level := x.level, debounced := x.level, timer := none }
              door := { level := s.chamber.door.level, debounced := s.chamber.door.level, timer := none }
              mute1 := false, mute2 := false, alert := false }
          sup :=
            { cycle := .waiting, position := 0, elapsed := 0, running := true, visit := none
              counters := Vector.replicate 24 ⟨0, 0, 0, 0, 0⟩, faults := Vector.replicate 24 0, summaries := 0
              samples := Vector.replicate 24 none }
          events := { flags := 0, lastFailure := none, lastOverrun := none, lastFixture := none }
          safe := { state := .normal, causes := 0, grace := none, resetPending := false }
          arb := s.arb, draws := s.draws, pending := s.pending } ∧
    (s.inReset = true →
      ∃ v u : State, exec .hardwareResetEnd s = .next u.driveOutputs ∧
        v =
          { s with
            inReset := false
            chamber :=
              { s.chamber with
                seats := s.chamber.seats.map fun x => { level := x.level, debounced := x.level, timer := none }
                door := { level := s.chamber.door.level, debounced := s.chamber.door.level, timer := none } }
            sup := u.sup } ∧
        u.sup =
          { s.sup with
            cycle := u.sup.cycle, position := u.sup.position, elapsed := u.sup.elapsed, running := u.sup.running
            visit := u.sup.visit } ∧
        (s.chamber.door.level = true → u = v) ∧ (s.chamber.door.level = false → CauseJoins 2#5 v u)) ∧
    (s.inReset = true →
      ∃ t : State, exec .hardwareResetEnd s = .next t ∧ t.inReset = false ∧
        (∀ n, t.chamber.seats.get n =
          { level := (s.chamber.seats.get n).level, debounced := (s.chamber.seats.get n).level, timer := none }) ∧
        t.chamber.door = { level := s.chamber.door.level, debounced := s.chamber.door.level, timer := none } ∧
        t.events.lastFixture = s.events.lastFixture ∧ t.sup.elapsed = 0 ∧ t.settings = s.settings ∧
        (s.settings.interval ≠ 0 → t.sup.running = true) ∧
        (∀ b, (s.bank b).fitted = true → s.inFlight b = false →
          (∀ y, y < b → (s.bank y).fitted = false ∨ s.inFlight y = true) →
          t.sup.cycle = .visiting ∧ t.sup.position = b ∧
            t.sup.visit =
              some { sample := ⟨(s.lines.get b).coil, (s.lines.get b).detector, s.readback b⟩, left := 4 }) ∧
        ((∀ b, (s.bank b).fitted = false ∨ s.inFlight b = true) →
          t.sup.visit = none ∧ (s.settings.interval ≠ 0 → t.sup.cycle = .waiting)) ∧
        (s.chamber.door.level = true → t.safe = s.safe ∧ t.events = s.events ∧ t.queue = s.queue ∧
          t.paths = s.paths ∧ t.banks = s.banks) ∧
        (s.chamber.door.level = false → s.safe.state = .normal →
          t.safe =
            { state := .grace, causes := s.safe.causes ||| 2#5, grace := some (s.settings.muteGrace * 100)
              resetPending := s.safe.resetPending } ∧
          t.flagSet .safe = true ∧ t.chamber.mute1 = true ∧ t.chamber.mute2 = true ∧ t.chamber.alert = true)) ∧
    (s.inReset = false → exec .hardwareResetEnd s = .next s.driveOutputs)

end
end

