-- ==== Sys2Proof/Laws/State.lean ====
section
/-! SUPPORT. One lemma per field per update of State, so that no proof unfolds a record update; and what reading a
record after a write gives. -/

namespace Sys2Proof.Machine

variable (s : State)

/-! ### setBank -/

@[simp] theorem inReset_setBank (b : BankId) (x : BankRecord) : (s.setBank b x).inReset = s.inReset := rfl
@[simp] theorem ring_setBank (b : BankId) (x : BankRecord) : (s.setBank b x).ring = s.ring := rfl
@[simp] theorem settings_setBank (b : BankId) (x : BankRecord) : (s.setBank b x).settings = s.settings := rfl
@[simp] theorem lines_setBank (b : BankId) (x : BankRecord) : (s.setBank b x).lines = s.lines := rfl
@[simp] theorem routes_setBank (b : BankId) (x : BankRecord) : (s.setBank b x).routes = s.routes := rfl
@[simp] theorem paths_setBank (b : BankId) (x : BankRecord) : (s.setBank b x).paths = s.paths := rfl
@[simp] theorem queue_setBank (b : BankId) (x : BankRecord) : (s.setBank b x).queue = s.queue := rfl
@[simp] theorem trackers_setBank (b : BankId) (x : BankRecord) : (s.setBank b x).trackers = s.trackers := rfl
@[simp] theorem drivers_setBank (b : BankId) (x : BankRecord) : (s.setBank b x).drivers = s.drivers := rfl
@[simp] theorem steps_setBank (b : BankId) (x : BankRecord) : (s.setBank b x).steps = s.steps := rfl
@[simp] theorem seqs_setBank (b : BankId) (x : BankRecord) : (s.setBank b x).seqs = s.seqs := rfl
@[simp] theorem claims_setBank (b : BankId) (x : BankRecord) : (s.setBank b x).claims = s.claims := rfl
@[simp] theorem chamber_setBank (b : BankId) (x : BankRecord) : (s.setBank b x).chamber = s.chamber := rfl
@[simp] theorem sup_setBank (b : BankId) (x : BankRecord) : (s.setBank b x).sup = s.sup := rfl
@[simp] theorem events_setBank (b : BankId) (x : BankRecord) : (s.setBank b x).events = s.events := rfl
@[simp] theorem safe_setBank (b : BankId) (x : BankRecord) : (s.setBank b x).safe = s.safe := rfl
@[simp] theorem arb_setBank (b : BankId) (x : BankRecord) : (s.setBank b x).arb = s.arb := rfl
@[simp] theorem draws_setBank (b : BankId) (x : BankRecord) : (s.setBank b x).draws = s.draws := rfl
@[simp] theorem pending_setBank (b : BankId) (x : BankRecord) : (s.setBank b x).pending = s.pending := rfl

/-! ### mapBanks -/

@[simp] theorem inReset_mapBanks (f : BankId → BankRecord → BankRecord) : (s.mapBanks f).inReset = s.inReset := by simp only [State.mapBanks]
@[simp] theorem ring_mapBanks (f : BankId → BankRecord → BankRecord) : (s.mapBanks f).ring = s.ring := by simp only [State.mapBanks]
@[simp] theorem settings_mapBanks (f : BankId → BankRecord → BankRecord) : (s.mapBanks f).settings = s.settings := by simp only [State.mapBanks]
@[simp] theorem lines_mapBanks (f : BankId → BankRecord → BankRecord) : (s.mapBanks f).lines = s.lines := by simp only [State.mapBanks]
@[simp] theorem routes_mapBanks (f : BankId → BankRecord → BankRecord) : (s.mapBanks f).routes = s.routes := by simp only [State.mapBanks]
@[simp] theorem paths_mapBanks (f : BankId → BankRecord → BankRecord) : (s.mapBanks f).paths = s.paths := by simp only [State.mapBanks]
@[simp] theorem queue_mapBanks (f : BankId → BankRecord → BankRecord) : (s.mapBanks f).queue = s.queue := by simp only [State.mapBanks]
@[simp] theorem trackers_mapBanks (f : BankId → BankRecord → BankRecord) : (s.mapBanks f).trackers = s.trackers := by simp only [State.mapBanks]
@[simp] theorem drivers_mapBanks (f : BankId → BankRecord → BankRecord) : (s.mapBanks f).drivers = s.drivers := by simp only [State.mapBanks]
@[simp] theorem steps_mapBanks (f : BankId → BankRecord → BankRecord) : (s.mapBanks f).steps = s.steps := by simp only [State.mapBanks]
@[simp] theorem seqs_mapBanks (f : BankId → BankRecord → BankRecord) : (s.mapBanks f).seqs = s.seqs := by simp only [State.mapBanks]
@[simp] theorem claims_mapBanks (f : BankId → BankRecord → BankRecord) : (s.mapBanks f).claims = s.claims := by simp only [State.mapBanks]
@[simp] theorem chamber_mapBanks (f : BankId → BankRecord → BankRecord) : (s.mapBanks f).chamber = s.chamber := by simp only [State.mapBanks]
@[simp] theorem sup_mapBanks (f : BankId → BankRecord → BankRecord) : (s.mapBanks f).sup = s.sup := by simp only [State.mapBanks]
@[simp] theorem events_mapBanks (f : BankId → BankRecord → BankRecord) : (s.mapBanks f).events = s.events := by simp only [State.mapBanks]
@[simp] theorem safe_mapBanks (f : BankId → BankRecord → BankRecord) : (s.mapBanks f).safe = s.safe := by simp only [State.mapBanks]
@[simp] theorem arb_mapBanks (f : BankId → BankRecord → BankRecord) : (s.mapBanks f).arb = s.arb := by simp only [State.mapBanks]
@[simp] theorem draws_mapBanks (f : BankId → BankRecord → BankRecord) : (s.mapBanks f).draws = s.draws := by simp only [State.mapBanks]
@[simp] theorem pending_mapBanks (f : BankId → BankRecord → BankRecord) : (s.mapBanks f).pending = s.pending := by simp only [State.mapBanks]

/-! ### recordPosition -/

@[simp] theorem inReset_recordPosition (b : BankId) (x : Position) : (s.recordPosition b x).inReset = s.inReset := rfl
@[simp] theorem ring_recordPosition (b : BankId) (x : Position) : (s.recordPosition b x).ring = s.ring := rfl
@[simp] theorem settings_recordPosition (b : BankId) (x : Position) : (s.recordPosition b x).settings = s.settings := rfl
@[simp] theorem lines_recordPosition (b : BankId) (x : Position) : (s.recordPosition b x).lines = s.lines := rfl
@[simp] theorem routes_recordPosition (b : BankId) (x : Position) : (s.recordPosition b x).routes = s.routes := rfl
@[simp] theorem paths_recordPosition (b : BankId) (x : Position) : (s.recordPosition b x).paths = s.paths := rfl
@[simp] theorem queue_recordPosition (b : BankId) (x : Position) : (s.recordPosition b x).queue = s.queue := rfl
@[simp] theorem trackers_recordPosition (b : BankId) (x : Position) : (s.recordPosition b x).trackers = s.trackers := rfl
@[simp] theorem drivers_recordPosition (b : BankId) (x : Position) : (s.recordPosition b x).drivers = s.drivers := rfl
@[simp] theorem steps_recordPosition (b : BankId) (x : Position) : (s.recordPosition b x).steps = s.steps := rfl
@[simp] theorem seqs_recordPosition (b : BankId) (x : Position) : (s.recordPosition b x).seqs = s.seqs := rfl
@[simp] theorem claims_recordPosition (b : BankId) (x : Position) : (s.recordPosition b x).claims = s.claims := rfl
@[simp] theorem chamber_recordPosition (b : BankId) (x : Position) : (s.recordPosition b x).chamber = s.chamber := rfl
@[simp] theorem sup_recordPosition (b : BankId) (x : Position) : (s.recordPosition b x).sup = s.sup := rfl
@[simp] theorem events_recordPosition (b : BankId) (x : Position) : (s.recordPosition b x).events = s.events := rfl
@[simp] theorem safe_recordPosition (b : BankId) (x : Position) : (s.recordPosition b x).safe = s.safe := rfl
@[simp] theorem arb_recordPosition (b : BankId) (x : Position) : (s.recordPosition b x).arb = s.arb := rfl
@[simp] theorem draws_recordPosition (b : BankId) (x : Position) : (s.recordPosition b x).draws = s.draws := rfl
@[simp] theorem pending_recordPosition (b : BankId) (x : Position) : (s.recordPosition b x).pending = s.pending := rfl

/-! ### setHolder -/

@[simp] theorem inReset_setHolder (b : BankId) (x : Option Slot) : (s.setHolder b x).inReset = s.inReset := rfl
@[simp] theorem ring_setHolder (b : BankId) (x : Option Slot) : (s.setHolder b x).ring = s.ring := rfl
@[simp] theorem settings_setHolder (b : BankId) (x : Option Slot) : (s.setHolder b x).settings = s.settings := rfl
@[simp] theorem lines_setHolder (b : BankId) (x : Option Slot) : (s.setHolder b x).lines = s.lines := rfl
@[simp] theorem routes_setHolder (b : BankId) (x : Option Slot) : (s.setHolder b x).routes = s.routes := rfl
@[simp] theorem paths_setHolder (b : BankId) (x : Option Slot) : (s.setHolder b x).paths = s.paths := rfl
@[simp] theorem queue_setHolder (b : BankId) (x : Option Slot) : (s.setHolder b x).queue = s.queue := rfl
@[simp] theorem trackers_setHolder (b : BankId) (x : Option Slot) : (s.setHolder b x).trackers = s.trackers := rfl
@[simp] theorem drivers_setHolder (b : BankId) (x : Option Slot) : (s.setHolder b x).drivers = s.drivers := rfl
@[simp] theorem steps_setHolder (b : BankId) (x : Option Slot) : (s.setHolder b x).steps = s.steps := rfl
@[simp] theorem seqs_setHolder (b : BankId) (x : Option Slot) : (s.setHolder b x).seqs = s.seqs := rfl
@[simp] theorem claims_setHolder (b : BankId) (x : Option Slot) : (s.setHolder b x).claims = s.claims := rfl
@[simp] theorem chamber_setHolder (b : BankId) (x : Option Slot) : (s.setHolder b x).chamber = s.chamber := rfl
@[simp] theorem sup_setHolder (b : BankId) (x : Option Slot) : (s.setHolder b x).sup = s.sup := rfl
@[simp] theorem events_setHolder (b : BankId) (x : Option Slot) : (s.setHolder b x).events = s.events := rfl
@[simp] theorem safe_setHolder (b : BankId) (x : Option Slot) : (s.setHolder b x).safe = s.safe := rfl
@[simp] theorem arb_setHolder (b : BankId) (x : Option Slot) : (s.setHolder b x).arb = s.arb := rfl
@[simp] theorem draws_setHolder (b : BankId) (x : Option Slot) : (s.setHolder b x).draws = s.draws := rfl
@[simp] theorem pending_setHolder (b : BankId) (x : Option Slot) : (s.setHolder b x).pending = s.pending := rfl

/-! ### setHomeOwed -/

@[simp] theorem inReset_setHomeOwed (b : BankId) (x : Bool) : (s.setHomeOwed b x).inReset = s.inReset := rfl
@[simp] theorem ring_setHomeOwed (b : BankId) (x : Bool) : (s.setHomeOwed b x).ring = s.ring := rfl
@[simp] theorem settings_setHomeOwed (b : BankId) (x : Bool) : (s.setHomeOwed b x).settings = s.settings := rfl
@[simp] theorem lines_setHomeOwed (b : BankId) (x : Bool) : (s.setHomeOwed b x).lines = s.lines := rfl
@[simp] theorem routes_setHomeOwed (b : BankId) (x : Bool) : (s.setHomeOwed b x).routes = s.routes := rfl
@[simp] theorem paths_setHomeOwed (b : BankId) (x : Bool) : (s.setHomeOwed b x).paths = s.paths := rfl
@[simp] theorem queue_setHomeOwed (b : BankId) (x : Bool) : (s.setHomeOwed b x).queue = s.queue := rfl
@[simp] theorem trackers_setHomeOwed (b : BankId) (x : Bool) : (s.setHomeOwed b x).trackers = s.trackers := rfl
@[simp] theorem drivers_setHomeOwed (b : BankId) (x : Bool) : (s.setHomeOwed b x).drivers = s.drivers := rfl
@[simp] theorem steps_setHomeOwed (b : BankId) (x : Bool) : (s.setHomeOwed b x).steps = s.steps := rfl
@[simp] theorem seqs_setHomeOwed (b : BankId) (x : Bool) : (s.setHomeOwed b x).seqs = s.seqs := rfl
@[simp] theorem claims_setHomeOwed (b : BankId) (x : Bool) : (s.setHomeOwed b x).claims = s.claims := rfl
@[simp] theorem chamber_setHomeOwed (b : BankId) (x : Bool) : (s.setHomeOwed b x).chamber = s.chamber := rfl
@[simp] theorem sup_setHomeOwed (b : BankId) (x : Bool) : (s.setHomeOwed b x).sup = s.sup := rfl
@[simp] theorem events_setHomeOwed (b : BankId) (x : Bool) : (s.setHomeOwed b x).events = s.events := rfl
@[simp] theorem safe_setHomeOwed (b : BankId) (x : Bool) : (s.setHomeOwed b x).safe = s.safe := rfl
@[simp] theorem arb_setHomeOwed (b : BankId) (x : Bool) : (s.setHomeOwed b x).arb = s.arb := rfl
@[simp] theorem draws_setHomeOwed (b : BankId) (x : Bool) : (s.setHomeOwed b x).draws = s.draws := rfl
@[simp] theorem pending_setHomeOwed (b : BankId) (x : Bool) : (s.setHomeOwed b x).pending = s.pending := rfl

/-! ### setRoute -/

@[simp] theorem inReset_setRoute (r : RouteId) (x : RouteRecord) : (s.setRoute r x).inReset = s.inReset := rfl
@[simp] theorem ring_setRoute (r : RouteId) (x : RouteRecord) : (s.setRoute r x).ring = s.ring := rfl
@[simp] theorem settings_setRoute (r : RouteId) (x : RouteRecord) : (s.setRoute r x).settings = s.settings := rfl
@[simp] theorem banks_setRoute (r : RouteId) (x : RouteRecord) : (s.setRoute r x).banks = s.banks := rfl
@[simp] theorem lines_setRoute (r : RouteId) (x : RouteRecord) : (s.setRoute r x).lines = s.lines := rfl
@[simp] theorem paths_setRoute (r : RouteId) (x : RouteRecord) : (s.setRoute r x).paths = s.paths := rfl
@[simp] theorem queue_setRoute (r : RouteId) (x : RouteRecord) : (s.setRoute r x).queue = s.queue := rfl
@[simp] theorem trackers_setRoute (r : RouteId) (x : RouteRecord) : (s.setRoute r x).trackers = s.trackers := rfl
@[simp] theorem drivers_setRoute (r : RouteId) (x : RouteRecord) : (s.setRoute r x).drivers = s.drivers := rfl
@[simp] theorem steps_setRoute (r : RouteId) (x : RouteRecord) : (s.setRoute r x).steps = s.steps := rfl
@[simp] theorem seqs_setRoute (r : RouteId) (x : RouteRecord) : (s.setRoute r x).seqs = s.seqs := rfl
@[simp] theorem claims_setRoute (r : RouteId) (x : RouteRecord) : (s.setRoute r x).claims = s.claims := rfl
@[simp] theorem chamber_setRoute (r : RouteId) (x : RouteRecord) : (s.setRoute r x).chamber = s.chamber := rfl
@[simp] theorem sup_setRoute (r : RouteId) (x : RouteRecord) : (s.setRoute r x).sup = s.sup := rfl
@[simp] theorem events_setRoute (r : RouteId) (x : RouteRecord) : (s.setRoute r x).events = s.events := rfl
@[simp] theorem safe_setRoute (r : RouteId) (x : RouteRecord) : (s.setRoute r x).safe = s.safe := rfl
@[simp] theorem arb_setRoute (r : RouteId) (x : RouteRecord) : (s.setRoute r x).arb = s.arb := rfl
@[simp] theorem draws_setRoute (r : RouteId) (x : RouteRecord) : (s.setRoute r x).draws = s.draws := rfl
@[simp] theorem pending_setRoute (r : RouteId) (x : RouteRecord) : (s.setRoute r x).pending = s.pending := rfl

/-! ### setPath -/

@[simp] theorem inReset_setPath (p : Slot) (x : PathRecord) : (s.setPath p x).inReset = s.inReset := rfl
@[simp] theorem ring_setPath (p : Slot) (x : PathRecord) : (s.setPath p x).ring = s.ring := rfl
@[simp] theorem settings_setPath (p : Slot) (x : PathRecord) : (s.setPath p x).settings = s.settings := rfl
@[simp] theorem banks_setPath (p : Slot) (x : PathRecord) : (s.setPath p x).banks = s.banks := rfl
@[simp] theorem lines_setPath (p : Slot) (x : PathRecord) : (s.setPath p x).lines = s.lines := rfl
@[simp] theorem routes_setPath (p : Slot) (x : PathRecord) : (s.setPath p x).routes = s.routes := rfl
@[simp] theorem queue_setPath (p : Slot) (x : PathRecord) : (s.setPath p x).queue = s.queue := rfl
@[simp] theorem trackers_setPath (p : Slot) (x : PathRecord) : (s.setPath p x).trackers = s.trackers := rfl
@[simp] theorem drivers_setPath (p : Slot) (x : PathRecord) : (s.setPath p x).drivers = s.drivers := rfl
@[simp] theorem steps_setPath (p : Slot) (x : PathRecord) : (s.setPath p x).steps = s.steps := rfl
@[simp] theorem seqs_setPath (p : Slot) (x : PathRecord) : (s.setPath p x).seqs = s.seqs := rfl
@[simp] theorem claims_setPath (p : Slot) (x : PathRecord) : (s.setPath p x).claims = s.claims := rfl
@[simp] theorem chamber_setPath (p : Slot) (x : PathRecord) : (s.setPath p x).chamber = s.chamber := rfl
@[simp] theorem sup_setPath (p : Slot) (x : PathRecord) : (s.setPath p x).sup = s.sup := rfl
@[simp] theorem events_setPath (p : Slot) (x : PathRecord) : (s.setPath p x).events = s.events := rfl
@[simp] theorem safe_setPath (p : Slot) (x : PathRecord) : (s.setPath p x).safe = s.safe := rfl
@[simp] theorem arb_setPath (p : Slot) (x : PathRecord) : (s.setPath p x).arb = s.arb := rfl
@[simp] theorem draws_setPath (p : Slot) (x : PathRecord) : (s.setPath p x).draws = s.draws := rfl
@[simp] theorem pending_setPath (p : Slot) (x : PathRecord) : (s.setPath p x).pending = s.pending := rfl

/-! ### setTracker -/

@[simp] theorem inReset_setTracker (p : Plane) (x : Tracker) : (s.setTracker p x).inReset = s.inReset := rfl
@[simp] theorem ring_setTracker (p : Plane) (x : Tracker) : (s.setTracker p x).ring = s.ring := rfl
@[simp] theorem settings_setTracker (p : Plane) (x : Tracker) : (s.setTracker p x).settings = s.settings := rfl
@[simp] theorem banks_setTracker (p : Plane) (x : Tracker) : (s.setTracker p x).banks = s.banks := rfl
@[simp] theorem lines_setTracker (p : Plane) (x : Tracker) : (s.setTracker p x).lines = s.lines := rfl
@[simp] theorem routes_setTracker (p : Plane) (x : Tracker) : (s.setTracker p x).routes = s.routes := rfl
@[simp] theorem paths_setTracker (p : Plane) (x : Tracker) : (s.setTracker p x).paths = s.paths := rfl
@[simp] theorem queue_setTracker (p : Plane) (x : Tracker) : (s.setTracker p x).queue = s.queue := rfl
@[simp] theorem drivers_setTracker (p : Plane) (x : Tracker) : (s.setTracker p x).drivers = s.drivers := rfl
@[simp] theorem steps_setTracker (p : Plane) (x : Tracker) : (s.setTracker p x).steps = s.steps := rfl
@[simp] theorem seqs_setTracker (p : Plane) (x : Tracker) : (s.setTracker p x).seqs = s.seqs := rfl
@[simp] theorem claims_setTracker (p : Plane) (x : Tracker) : (s.setTracker p x).claims = s.claims := rfl
@[simp] theorem chamber_setTracker (p : Plane) (x : Tracker) : (s.setTracker p x).chamber = s.chamber := rfl
@[simp] theorem sup_setTracker (p : Plane) (x : Tracker) : (s.setTracker p x).sup = s.sup := rfl
@[simp] theorem events_setTracker (p : Plane) (x : Tracker) : (s.setTracker p x).events = s.events := rfl
@[simp] theorem safe_setTracker (p : Plane) (x : Tracker) : (s.setTracker p x).safe = s.safe := rfl
@[simp] theorem arb_setTracker (p : Plane) (x : Tracker) : (s.setTracker p x).arb = s.arb := rfl
@[simp] theorem draws_setTracker (p : Plane) (x : Tracker) : (s.setTracker p x).draws = s.draws := rfl
@[simp] theorem pending_setTracker (p : Plane) (x : Tracker) : (s.setTracker p x).pending = s.pending := rfl

/-! ### setDriver -/

@[simp] theorem inReset_setDriver (p : Plane) (x : Driver) : (s.setDriver p x).inReset = s.inReset := rfl
@[simp] theorem ring_setDriver (p : Plane) (x : Driver) : (s.setDriver p x).ring = s.ring := rfl
@[simp] theorem settings_setDriver (p : Plane) (x : Driver) : (s.setDriver p x).settings = s.settings := rfl
@[simp] theorem banks_setDriver (p : Plane) (x : Driver) : (s.setDriver p x).banks = s.banks := rfl
@[simp] theorem lines_setDriver (p : Plane) (x : Driver) : (s.setDriver p x).lines = s.lines := rfl
@[simp] theorem routes_setDriver (p : Plane) (x : Driver) : (s.setDriver p x).routes = s.routes := rfl
@[simp] theorem paths_setDriver (p : Plane) (x : Driver) : (s.setDriver p x).paths = s.paths := rfl
@[simp] theorem queue_setDriver (p : Plane) (x : Driver) : (s.setDriver p x).queue = s.queue := rfl
@[simp] theorem trackers_setDriver (p : Plane) (x : Driver) : (s.setDriver p x).trackers = s.trackers := rfl
@[simp] theorem steps_setDriver (p : Plane) (x : Driver) : (s.setDriver p x).steps = s.steps := rfl
@[simp] theorem seqs_setDriver (p : Plane) (x : Driver) : (s.setDriver p x).seqs = s.seqs := rfl
@[simp] theorem claims_setDriver (p : Plane) (x : Driver) : (s.setDriver p x).claims = s.claims := rfl
@[simp] theorem chamber_setDriver (p : Plane) (x : Driver) : (s.setDriver p x).chamber = s.chamber := rfl
@[simp] theorem sup_setDriver (p : Plane) (x : Driver) : (s.setDriver p x).sup = s.sup := rfl
@[simp] theorem events_setDriver (p : Plane) (x : Driver) : (s.setDriver p x).events = s.events := rfl
@[simp] theorem safe_setDriver (p : Plane) (x : Driver) : (s.setDriver p x).safe = s.safe := rfl
@[simp] theorem arb_setDriver (p : Plane) (x : Driver) : (s.setDriver p x).arb = s.arb := rfl
@[simp] theorem draws_setDriver (p : Plane) (x : Driver) : (s.setDriver p x).draws = s.draws := rfl
@[simp] theorem pending_setDriver (p : Plane) (x : Driver) : (s.setDriver p x).pending = s.pending := rfl

/-! ### setRun -/

@[simp] theorem inReset_setRun (st : Station) (x : SeqRun) : (s.setRun st x).inReset = s.inReset := rfl
@[simp] theorem ring_setRun (st : Station) (x : SeqRun) : (s.setRun st x).ring = s.ring := rfl
@[simp] theorem settings_setRun (st : Station) (x : SeqRun) : (s.setRun st x).settings = s.settings := rfl
@[simp] theorem banks_setRun (st : Station) (x : SeqRun) : (s.setRun st x).banks = s.banks := rfl
@[simp] theorem lines_setRun (st : Station) (x : SeqRun) : (s.setRun st x).lines = s.lines := rfl
@[simp] theorem routes_setRun (st : Station) (x : SeqRun) : (s.setRun st x).routes = s.routes := rfl
@[simp] theorem paths_setRun (st : Station) (x : SeqRun) : (s.setRun st x).paths = s.paths := rfl
@[simp] theorem queue_setRun (st : Station) (x : SeqRun) : (s.setRun st x).queue = s.queue := rfl
@[simp] theorem trackers_setRun (st : Station) (x : SeqRun) : (s.setRun st x).trackers = s.trackers := rfl
@[simp] theorem drivers_setRun (st : Station) (x : SeqRun) : (s.setRun st x).drivers = s.drivers := rfl
@[simp] theorem steps_setRun (st : Station) (x : SeqRun) : (s.setRun st x).steps = s.steps := rfl
@[simp] theorem claims_setRun (st : Station) (x : SeqRun) : (s.setRun st x).claims = s.claims := rfl
@[simp] theorem chamber_setRun (st : Station) (x : SeqRun) : (s.setRun st x).chamber = s.chamber := rfl
@[simp] theorem sup_setRun (st : Station) (x : SeqRun) : (s.setRun st x).sup = s.sup := rfl
@[simp] theorem events_setRun (st : Station) (x : SeqRun) : (s.setRun st x).events = s.events := rfl
@[simp] theorem safe_setRun (st : Station) (x : SeqRun) : (s.setRun st x).safe = s.safe := rfl
@[simp] theorem arb_setRun (st : Station) (x : SeqRun) : (s.setRun st x).arb = s.arb := rfl
@[simp] theorem draws_setRun (st : Station) (x : SeqRun) : (s.setRun st x).draws = s.draws := rfl
@[simp] theorem pending_setRun (st : Station) (x : SeqRun) : (s.setRun st x).pending = s.pending := rfl

/-! ### setSeqCfg -/

@[simp] theorem inReset_setSeqCfg (st : Station) (x : SeqSettings) : (s.setSeqCfg st x).inReset = s.inReset := rfl
@[simp] theorem ring_setSeqCfg (st : Station) (x : SeqSettings) : (s.setSeqCfg st x).ring = s.ring := rfl
@[simp] theorem settings_setSeqCfg (st : Station) (x : SeqSettings) : (s.setSeqCfg st x).settings = s.settings := rfl
@[simp] theorem banks_setSeqCfg (st : Station) (x : SeqSettings) : (s.setSeqCfg st x).banks = s.banks := rfl
@[simp] theorem lines_setSeqCfg (st : Station) (x : SeqSettings) : (s.setSeqCfg st x).lines = s.lines := rfl
@[simp] theorem routes_setSeqCfg (st : Station) (x : SeqSettings) : (s.setSeqCfg st x).routes = s.routes := rfl
@[simp] theorem paths_setSeqCfg (st : Station) (x : SeqSettings) : (s.setSeqCfg st x).paths = s.paths := rfl
@[simp] theorem queue_setSeqCfg (st : Station) (x : SeqSettings) : (s.setSeqCfg st x).queue = s.queue := rfl
@[simp] theorem trackers_setSeqCfg (st : Station) (x : SeqSettings) : (s.setSeqCfg st x).trackers = s.trackers := rfl
@[simp] theorem drivers_setSeqCfg (st : Station) (x : SeqSettings) : (s.setSeqCfg st x).drivers = s.drivers := rfl
@[simp] theorem steps_setSeqCfg (st : Station) (x : SeqSettings) : (s.setSeqCfg st x).steps = s.steps := rfl
@[simp] theorem claims_setSeqCfg (st : Station) (x : SeqSettings) : (s.setSeqCfg st x).claims = s.claims := rfl
@[simp] theorem chamber_setSeqCfg (st : Station) (x : SeqSettings) : (s.setSeqCfg st x).chamber = s.chamber := rfl
@[simp] theorem sup_setSeqCfg (st : Station) (x : SeqSettings) : (s.setSeqCfg st x).sup = s.sup := rfl
@[simp] theorem events_setSeqCfg (st : Station) (x : SeqSettings) : (s.setSeqCfg st x).events = s.events := rfl
@[simp] theorem safe_setSeqCfg (st : Station) (x : SeqSettings) : (s.setSeqCfg st x).safe = s.safe := rfl
@[simp] theorem arb_setSeqCfg (st : Station) (x : SeqSettings) : (s.setSeqCfg st x).arb = s.arb := rfl
@[simp] theorem draws_setSeqCfg (st : Station) (x : SeqSettings) : (s.setSeqCfg st x).draws = s.draws := rfl
@[simp] theorem pending_setSeqCfg (st : Station) (x : SeqSettings) : (s.setSeqCfg st x).pending = s.pending := rfl

/-! ### setStep -/

@[simp] theorem inReset_setStep (n : StepId) (x : StepRecord) : (s.setStep n x).inReset = s.inReset := rfl
@[simp] theorem ring_setStep (n : StepId) (x : StepRecord) : (s.setStep n x).ring = s.ring := rfl
@[simp] theorem settings_setStep (n : StepId) (x : StepRecord) : (s.setStep n x).settings = s.settings := rfl
@[simp] theorem banks_setStep (n : StepId) (x : StepRecord) : (s.setStep n x).banks = s.banks := rfl
@[simp] theorem lines_setStep (n : StepId) (x : StepRecord) : (s.setStep n x).lines = s.lines := rfl
@[simp] theorem routes_setStep (n : StepId) (x : StepRecord) : (s.setStep n x).routes = s.routes := rfl
@[simp] theorem paths_setStep (n : StepId) (x : StepRecord) : (s.setStep n x).paths = s.paths := rfl
@[simp] theorem queue_setStep (n : StepId) (x : StepRecord) : (s.setStep n x).queue = s.queue := rfl
@[simp] theorem trackers_setStep (n : StepId) (x : StepRecord) : (s.setStep n x).trackers = s.trackers := rfl
@[simp] theorem drivers_setStep (n : StepId) (x : StepRecord) : (s.setStep n x).drivers = s.drivers := rfl
@[simp] theorem seqs_setStep (n : StepId) (x : StepRecord) : (s.setStep n x).seqs = s.seqs := rfl
@[simp] theorem claims_setStep (n : StepId) (x : StepRecord) : (s.setStep n x).claims = s.claims := rfl
@[simp] theorem chamber_setStep (n : StepId) (x : StepRecord) : (s.setStep n x).chamber = s.chamber := rfl
@[simp] theorem sup_setStep (n : StepId) (x : StepRecord) : (s.setStep n x).sup = s.sup := rfl
@[simp] theorem events_setStep (n : StepId) (x : StepRecord) : (s.setStep n x).events = s.events := rfl
@[simp] theorem safe_setStep (n : StepId) (x : StepRecord) : (s.setStep n x).safe = s.safe := rfl
@[simp] theorem arb_setStep (n : StepId) (x : StepRecord) : (s.setStep n x).arb = s.arb := rfl
@[simp] theorem draws_setStep (n : StepId) (x : StepRecord) : (s.setStep n x).draws = s.draws := rfl
@[simp] theorem pending_setStep (n : StepId) (x : StepRecord) : (s.setStep n x).pending = s.pending := rfl

/-! ### setQueue -/

@[simp] theorem inReset_setQueue (x : List Entry) : (s.setQueue x).inReset = s.inReset := rfl
@[simp] theorem ring_setQueue (x : List Entry) : (s.setQueue x).ring = s.ring := rfl
@[simp] theorem settings_setQueue (x : List Entry) : (s.setQueue x).settings = s.settings := rfl
@[simp] theorem banks_setQueue (x : List Entry) : (s.setQueue x).banks = s.banks := rfl
@[simp] theorem lines_setQueue (x : List Entry) : (s.setQueue x).lines = s.lines := rfl
@[simp] theorem routes_setQueue (x : List Entry) : (s.setQueue x).routes = s.routes := rfl
@[simp] theorem paths_setQueue (x : List Entry) : (s.setQueue x).paths = s.paths := rfl
@[simp] theorem queue_setQueue (x : List Entry) : (s.setQueue x).queue = x := rfl
@[simp] theorem trackers_setQueue (x : List Entry) : (s.setQueue x).trackers = s.trackers := rfl
@[simp] theorem drivers_setQueue (x : List Entry) : (s.setQueue x).drivers = s.drivers := rfl
@[simp] theorem steps_setQueue (x : List Entry) : (s.setQueue x).steps = s.steps := rfl
@[simp] theorem seqs_setQueue (x : List Entry) : (s.setQueue x).seqs = s.seqs := rfl
@[simp] theorem claims_setQueue (x : List Entry) : (s.setQueue x).claims = s.claims := rfl
@[simp] theorem chamber_setQueue (x : List Entry) : (s.setQueue x).chamber = s.chamber := rfl
@[simp] theorem sup_setQueue (x : List Entry) : (s.setQueue x).sup = s.sup := rfl
@[simp] theorem events_setQueue (x : List Entry) : (s.setQueue x).events = s.events := rfl
@[simp] theorem safe_setQueue (x : List Entry) : (s.setQueue x).safe = s.safe := rfl
@[simp] theorem arb_setQueue (x : List Entry) : (s.setQueue x).arb = s.arb := rfl
@[simp] theorem draws_setQueue (x : List Entry) : (s.setQueue x).draws = s.draws := rfl
@[simp] theorem pending_setQueue (x : List Entry) : (s.setQueue x).pending = s.pending := rfl

/-! ### setRing -/

@[simp] theorem inReset_setRing (x : RingInterface) : (s.setRing x).inReset = s.inReset := rfl
@[simp] theorem ring_setRing (x : RingInterface) : (s.setRing x).ring = x := rfl
@[simp] theorem settings_setRing (x : RingInterface) : (s.setRing x).settings = s.settings := rfl
@[simp] theorem banks_setRing (x : RingInterface) : (s.setRing x).banks = s.banks := rfl
@[simp] theorem lines_setRing (x : RingInterface) : (s.setRing x).lines = s.lines := rfl
@[simp] theorem routes_setRing (x : RingInterface) : (s.setRing x).routes = s.routes := rfl
@[simp] theorem paths_setRing (x : RingInterface) : (s.setRing x).paths = s.paths := rfl
@[simp] theorem queue_setRing (x : RingInterface) : (s.setRing x).queue = s.queue := rfl
@[simp] theorem trackers_setRing (x : RingInterface) : (s.setRing x).trackers = s.trackers := rfl
@[simp] theorem drivers_setRing (x : RingInterface) : (s.setRing x).drivers = s.drivers := rfl
@[simp] theorem steps_setRing (x : RingInterface) : (s.setRing x).steps = s.steps := rfl
@[simp] theorem seqs_setRing (x : RingInterface) : (s.setRing x).seqs = s.seqs := rfl
@[simp] theorem claims_setRing (x : RingInterface) : (s.setRing x).claims = s.claims := rfl
@[simp] theorem chamber_setRing (x : RingInterface) : (s.setRing x).chamber = s.chamber := rfl
@[simp] theorem sup_setRing (x : RingInterface) : (s.setRing x).sup = s.sup := rfl
@[simp] theorem events_setRing (x : RingInterface) : (s.setRing x).events = s.events := rfl
@[simp] theorem safe_setRing (x : RingInterface) : (s.setRing x).safe = s.safe := rfl
@[simp] theorem arb_setRing (x : RingInterface) : (s.setRing x).arb = s.arb := rfl
@[simp] theorem draws_setRing (x : RingInterface) : (s.setRing x).draws = s.draws := rfl
@[simp] theorem pending_setRing (x : RingInterface) : (s.setRing x).pending = s.pending := rfl

/-! ### setSup -/

@[simp] theorem inReset_setSup (x : Supervision) : (s.setSup x).inReset = s.inReset := rfl
@[simp] theorem ring_setSup (x : Supervision) : (s.setSup x).ring = s.ring := rfl
@[simp] theorem settings_setSup (x : Supervision) : (s.setSup x).settings = s.settings := rfl
@[simp] theorem banks_setSup (x : Supervision) : (s.setSup x).banks = s.banks := rfl
@[simp] theorem lines_setSup (x : Supervision) : (s.setSup x).lines = s.lines := rfl
@[simp] theorem routes_setSup (x : Supervision) : (s.setSup x).routes = s.routes := rfl
@[simp] theorem paths_setSup (x : Supervision) : (s.setSup x).paths = s.paths := rfl
@[simp] theorem queue_setSup (x : Supervision) : (s.setSup x).queue = s.queue := rfl
@[simp] theorem trackers_setSup (x : Supervision) : (s.setSup x).trackers = s.trackers := rfl
@[simp] theorem drivers_setSup (x : Supervision) : (s.setSup x).drivers = s.drivers := rfl
@[simp] theorem steps_setSup (x : Supervision) : (s.setSup x).steps = s.steps := rfl
@[simp] theorem seqs_setSup (x : Supervision) : (s.setSup x).seqs = s.seqs := rfl
@[simp] theorem claims_setSup (x : Supervision) : (s.setSup x).claims = s.claims := rfl
@[simp] theorem chamber_setSup (x : Supervision) : (s.setSup x).chamber = s.chamber := rfl
@[simp] theorem sup_setSup (x : Supervision) : (s.setSup x).sup = x := rfl
@[simp] theorem events_setSup (x : Supervision) : (s.setSup x).events = s.events := rfl
@[simp] theorem safe_setSup (x : Supervision) : (s.setSup x).safe = s.safe := rfl
@[simp] theorem arb_setSup (x : Supervision) : (s.setSup x).arb = s.arb := rfl
@[simp] theorem draws_setSup (x : Supervision) : (s.setSup x).draws = s.draws := rfl
@[simp] theorem pending_setSup (x : Supervision) : (s.setSup x).pending = s.pending := rfl

/-! ### setSafe -/

@[simp] theorem inReset_setSafe (x : SafeController) : (s.setSafe x).inReset = s.inReset := rfl
@[simp] theorem ring_setSafe (x : SafeController) : (s.setSafe x).ring = s.ring := rfl
@[simp] theorem settings_setSafe (x : SafeController) : (s.setSafe x).settings = s.settings := rfl
@[simp] theorem banks_setSafe (x : SafeController) : (s.setSafe x).banks = s.banks := rfl
@[simp] theorem lines_setSafe (x : SafeController) : (s.setSafe x).lines = s.lines := rfl
@[simp] theorem routes_setSafe (x : SafeController) : (s.setSafe x).routes = s.routes := rfl
@[simp] theorem paths_setSafe (x : SafeController) : (s.setSafe x).paths = s.paths := rfl
@[simp] theorem queue_setSafe (x : SafeController) : (s.setSafe x).queue = s.queue := rfl
@[simp] theorem trackers_setSafe (x : SafeController) : (s.setSafe x).trackers = s.trackers := rfl
@[simp] theorem drivers_setSafe (x : SafeController) : (s.setSafe x).drivers = s.drivers := rfl
@[simp] theorem steps_setSafe (x : SafeController) : (s.setSafe x).steps = s.steps := rfl
@[simp] theorem seqs_setSafe (x : SafeController) : (s.setSafe x).seqs = s.seqs := rfl
@[simp] theorem claims_setSafe (x : SafeController) : (s.setSafe x).claims = s.claims := rfl
@[simp] theorem chamber_setSafe (x : SafeController) : (s.setSafe x).chamber = s.chamber := rfl
@[simp] theorem sup_setSafe (x : SafeController) : (s.setSafe x).sup = s.sup := rfl
@[simp] theorem events_setSafe (x : SafeController) : (s.setSafe x).events = s.events := rfl
@[simp] theorem safe_setSafe (x : SafeController) : (s.setSafe x).safe = x := rfl
@[simp] theorem arb_setSafe (x : SafeController) : (s.setSafe x).arb = s.arb := rfl
@[simp] theorem draws_setSafe (x : SafeController) : (s.setSafe x).draws = s.draws := rfl
@[simp] theorem pending_setSafe (x : SafeController) : (s.setSafe x).pending = s.pending := rfl

/-! ### setCounter -/

@[simp] theorem inReset_setCounter (b : BankId) (k : FaultKind) (n : Nat) : (s.setCounter b k n).inReset = s.inReset := rfl
@[simp] theorem ring_setCounter (b : BankId) (k : FaultKind) (n : Nat) : (s.setCounter b k n).ring = s.ring := rfl
@[simp] theorem settings_setCounter (b : BankId) (k : FaultKind) (n : Nat) : (s.setCounter b k n).settings = s.settings := rfl
@[simp] theorem banks_setCounter (b : BankId) (k : FaultKind) (n : Nat) : (s.setCounter b k n).banks = s.banks := rfl
@[simp] theorem lines_setCounter (b : BankId) (k : FaultKind) (n : Nat) : (s.setCounter b k n).lines = s.lines := rfl
@[simp] theorem routes_setCounter (b : BankId) (k : FaultKind) (n : Nat) : (s.setCounter b k n).routes = s.routes := rfl
@[simp] theorem paths_setCounter (b : BankId) (k : FaultKind) (n : Nat) : (s.setCounter b k n).paths = s.paths := rfl
@[simp] theorem queue_setCounter (b : BankId) (k : FaultKind) (n : Nat) : (s.setCounter b k n).queue = s.queue := rfl
@[simp] theorem trackers_setCounter (b : BankId) (k : FaultKind) (n : Nat) : (s.setCounter b k n).trackers = s.trackers := rfl
@[simp] theorem drivers_setCounter (b : BankId) (k : FaultKind) (n : Nat) : (s.setCounter b k n).drivers = s.drivers := rfl
@[simp] theorem steps_setCounter (b : BankId) (k : FaultKind) (n : Nat) : (s.setCounter b k n).steps = s.steps := rfl
@[simp] theorem seqs_setCounter (b : BankId) (k : FaultKind) (n : Nat) : (s.setCounter b k n).seqs = s.seqs := rfl
@[simp] theorem claims_setCounter (b : BankId) (k : FaultKind) (n : Nat) : (s.setCounter b k n).claims = s.claims := rfl
@[simp] theorem chamber_setCounter (b : BankId) (k : FaultKind) (n : Nat) : (s.setCounter b k n).chamber = s.chamber := rfl
@[simp] theorem events_setCounter (b : BankId) (k : FaultKind) (n : Nat) : (s.setCounter b k n).events = s.events := rfl
@[simp] theorem safe_setCounter (b : BankId) (k : FaultKind) (n : Nat) : (s.setCounter b k n).safe = s.safe := rfl
@[simp] theorem arb_setCounter (b : BankId) (k : FaultKind) (n : Nat) : (s.setCounter b k n).arb = s.arb := rfl
@[simp] theorem draws_setCounter (b : BankId) (k : FaultKind) (n : Nat) : (s.setCounter b k n).draws = s.draws := rfl
@[simp] theorem pending_setCounter (b : BankId) (k : FaultKind) (n : Nat) : (s.setCounter b k n).pending = s.pending := rfl

/-! ### setFaults -/

@[simp] theorem inReset_setFaults (b : BankId) (x : KindSet) : (s.setFaults b x).inReset = s.inReset := rfl
@[simp] theorem ring_setFaults (b : BankId) (x : KindSet) : (s.setFaults b x).ring = s.ring := rfl
@[simp] theorem settings_setFaults (b : BankId) (x : KindSet) : (s.setFaults b x).settings = s.settings := rfl
@[simp] theorem banks_setFaults (b : BankId) (x : KindSet) : (s.setFaults b x).banks = s.banks := rfl
@[simp] theorem lines_setFaults (b : BankId) (x : KindSet) : (s.setFaults b x).lines = s.lines := rfl
@[simp] theorem routes_setFaults (b : BankId) (x : KindSet) : (s.setFaults b x).routes = s.routes := rfl
@[simp] theorem paths_setFaults (b : BankId) (x : KindSet) : (s.setFaults b x).paths = s.paths := rfl
@[simp] theorem queue_setFaults (b : BankId) (x : KindSet) : (s.setFaults b x).queue = s.queue := rfl
@[simp] theorem trackers_setFaults (b : BankId) (x : KindSet) : (s.setFaults b x).trackers = s.trackers := rfl
@[simp] theorem drivers_setFaults (b : BankId) (x : KindSet) : (s.setFaults b x).drivers = s.drivers := rfl
@[simp] theorem steps_setFaults (b : BankId) (x : KindSet) : (s.setFaults b x).steps = s.steps := rfl
@[simp] theorem seqs_setFaults (b : BankId) (x : KindSet) : (s.setFaults b x).seqs = s.seqs := rfl
@[simp] theorem claims_setFaults (b : BankId) (x : KindSet) : (s.setFaults b x).claims = s.claims := rfl
@[simp] theorem chamber_setFaults (b : BankId) (x : KindSet) : (s.setFaults b x).chamber = s.chamber := rfl
@[simp] theorem events_setFaults (b : BankId) (x : KindSet) : (s.setFaults b x).events = s.events := rfl
@[simp] theorem safe_setFaults (b : BankId) (x : KindSet) : (s.setFaults b x).safe = s.safe := rfl
@[simp] theorem arb_setFaults (b : BankId) (x : KindSet) : (s.setFaults b x).arb = s.arb := rfl
@[simp] theorem draws_setFaults (b : BankId) (x : KindSet) : (s.setFaults b x).draws = s.draws := rfl
@[simp] theorem pending_setFaults (b : BankId) (x : KindSet) : (s.setFaults b x).pending = s.pending := rfl

/-! ### raise -/

@[simp] theorem inReset_raise (e : Event) : (s.raise e).inReset = s.inReset := rfl
@[simp] theorem ring_raise (e : Event) : (s.raise e).ring = s.ring := rfl
@[simp] theorem settings_raise (e : Event) : (s.raise e).settings = s.settings := rfl
@[simp] theorem banks_raise (e : Event) : (s.raise e).banks = s.banks := rfl
@[simp] theorem lines_raise (e : Event) : (s.raise e).lines = s.lines := rfl
@[simp] theorem routes_raise (e : Event) : (s.raise e).routes = s.routes := rfl
@[simp] theorem paths_raise (e : Event) : (s.raise e).paths = s.paths := rfl
@[simp] theorem queue_raise (e : Event) : (s.raise e).queue = s.queue := rfl
@[simp] theorem trackers_raise (e : Event) : (s.raise e).trackers = s.trackers := rfl
@[simp] theorem drivers_raise (e : Event) : (s.raise e).drivers = s.drivers := rfl
@[simp] theorem steps_raise (e : Event) : (s.raise e).steps = s.steps := rfl
@[simp] theorem seqs_raise (e : Event) : (s.raise e).seqs = s.seqs := rfl
@[simp] theorem claims_raise (e : Event) : (s.raise e).claims = s.claims := rfl
@[simp] theorem chamber_raise (e : Event) : (s.raise e).chamber = s.chamber := rfl
@[simp] theorem sup_raise (e : Event) : (s.raise e).sup = s.sup := rfl
@[simp] theorem safe_raise (e : Event) : (s.raise e).safe = s.safe := rfl
@[simp] theorem arb_raise (e : Event) : (s.raise e).arb = s.arb := rfl
@[simp] theorem draws_raise (e : Event) : (s.raise e).draws = s.draws := rfl
@[simp] theorem pending_raise (e : Event) : (s.raise e).pending = s.pending := rfl

/-! ### redraw -/

@[simp] theorem inReset_redraw : (s.redraw).inReset = s.inReset := rfl
@[simp] theorem ring_redraw : (s.redraw).ring = s.ring := rfl
@[simp] theorem settings_redraw : (s.redraw).settings = s.settings := rfl
@[simp] theorem banks_redraw : (s.redraw).banks = s.banks := rfl
@[simp] theorem lines_redraw : (s.redraw).lines = s.lines := rfl
@[simp] theorem routes_redraw : (s.redraw).routes = s.routes := rfl
@[simp] theorem paths_redraw : (s.redraw).paths = s.paths := rfl
@[simp] theorem queue_redraw : (s.redraw).queue = s.queue := rfl
@[simp] theorem trackers_redraw : (s.redraw).trackers = s.trackers := rfl
@[simp] theorem drivers_redraw : (s.redraw).drivers = s.drivers := rfl
@[simp] theorem steps_redraw : (s.redraw).steps = s.steps := rfl
@[simp] theorem seqs_redraw : (s.redraw).seqs = s.seqs := rfl
@[simp] theorem claims_redraw : (s.redraw).claims = s.claims := rfl
@[simp] theorem chamber_redraw : (s.redraw).chamber = s.chamber := rfl
@[simp] theorem sup_redraw : (s.redraw).sup = s.sup := rfl
@[simp] theorem events_redraw : (s.redraw).events = s.events := rfl
@[simp] theorem safe_redraw : (s.redraw).safe = s.safe := rfl
@[simp] theorem pending_redraw : (s.redraw).pending = s.pending := rfl

/-! ### driveOutputs -/

@[simp] theorem inReset_driveOutputs : (s.driveOutputs).inReset = s.inReset := rfl
@[simp] theorem ring_driveOutputs : (s.driveOutputs).ring = s.ring := rfl
@[simp] theorem settings_driveOutputs : (s.driveOutputs).settings = s.settings := rfl
@[simp] theorem banks_driveOutputs : (s.driveOutputs).banks = s.banks := rfl
@[simp] theorem lines_driveOutputs : (s.driveOutputs).lines = s.lines := rfl
@[simp] theorem routes_driveOutputs : (s.driveOutputs).routes = s.routes := rfl
@[simp] theorem paths_driveOutputs : (s.driveOutputs).paths = s.paths := rfl
@[simp] theorem queue_driveOutputs : (s.driveOutputs).queue = s.queue := rfl
@[simp] theorem trackers_driveOutputs : (s.driveOutputs).trackers = s.trackers := rfl
@[simp] theorem drivers_driveOutputs : (s.driveOutputs).drivers = s.drivers := rfl
@[simp] theorem steps_driveOutputs : (s.driveOutputs).steps = s.steps := rfl
@[simp] theorem seqs_driveOutputs : (s.driveOutputs).seqs = s.seqs := rfl
@[simp] theorem claims_driveOutputs : (s.driveOutputs).claims = s.claims := rfl
@[simp] theorem sup_driveOutputs : (s.driveOutputs).sup = s.sup := rfl
@[simp] theorem events_driveOutputs : (s.driveOutputs).events = s.events := rfl
@[simp] theorem safe_driveOutputs : (s.driveOutputs).safe = s.safe := rfl
@[simp] theorem arb_driveOutputs : (s.driveOutputs).arb = s.arb := rfl
@[simp] theorem draws_driveOutputs : (s.driveOutputs).draws = s.draws := rfl
@[simp] theorem pending_driveOutputs : (s.driveOutputs).pending = s.pending := rfl

/-! ### elapse -/

@[simp] theorem inReset_elapse (n : Nat) : (s.elapse n).inReset = s.inReset := rfl
@[simp] theorem settings_elapse (n : Nat) : (s.elapse n).settings = s.settings := rfl
@[simp] theorem banks_elapse (n : Nat) : (s.elapse n).banks = s.banks := rfl
@[simp] theorem lines_elapse (n : Nat) : (s.elapse n).lines = s.lines := rfl
@[simp] theorem routes_elapse (n : Nat) : (s.elapse n).routes = s.routes := rfl
@[simp] theorem queue_elapse (n : Nat) : (s.elapse n).queue = s.queue := rfl
@[simp] theorem steps_elapse (n : Nat) : (s.elapse n).steps = s.steps := rfl
@[simp] theorem seqs_elapse (n : Nat) : (s.elapse n).seqs = s.seqs := rfl
@[simp] theorem claims_elapse (n : Nat) : (s.elapse n).claims = s.claims := rfl
@[simp] theorem events_elapse (n : Nat) : (s.elapse n).events = s.events := rfl
@[simp] theorem arb_elapse (n : Nat) : (s.elapse n).arb = s.arb := rfl
@[simp] theorem draws_elapse (n : Nat) : (s.elapse n).draws = s.draws := rfl
@[simp] theorem pending_elapse (n : Nat) : (s.elapse n).pending = s.pending := rfl

/-! ### Reading after a write -/

theorem ByPlane.get_set {α : Type} (x : ByPlane α) (p q : Plane) (v : α) :
    (x.set p v).get q = if q = p then v else x.get q := by
  cases p <;> cases q <;> rfl

theorem ByStation.get_set {α : Type} (x : ByStation α) (p q : Station) (v : α) :
    (x.set p v).get q = if q = p then v else x.get q := by
  cases p <;> cases q <;> rfl

theorem vector_get_set {α : Type} {n : Nat} (v : Vector α n) (i j : Fin n) (x : α) :
    (v.set i.1 x i.2).get j = if j = i then x else v.get j := by
  show (v.set i.1 x i.2)[j.1] = if j = i then x else v[j.1]
  rw [Vector.getElem_set]
  by_cases h : i.1 = j.1
  · simp [h, Fin.ext h.symm]
  · have h' : ¬ j = i := fun e => h (by rw [e])
    simp [h, h']

theorem vector_get_ofFn {α : Type} {n : Nat} (f : Fin n → α) (j : Fin n) : (Vector.ofFn f).get j = f j := by
  show (Vector.ofFn f)[j.1] = f j
  simp

theorem bank_setBank (b c : BankId) (x : BankRecord) : (s.setBank b x).bank c = if c = b then x else s.bank c :=
  vector_get_set s.banks b c x

theorem bank_mapBanks (f : BankId → BankRecord → BankRecord) (c : BankId) :
    (s.mapBanks f).bank c = f c (s.bank c) :=
  vector_get_ofFn _ c

theorem path_setPath (p q : Slot) (x : PathRecord) : (s.setPath p x).path q = if q = p then x else s.path q :=
  vector_get_set s.paths p q x

theorem route_setRoute (p q : RouteId) (x : RouteRecord) :
    (s.setRoute p x).route q = if q = p then x else s.route q :=
  vector_get_set s.routes p q x

theorem step_setStep (p q : StepId) (x : StepRecord) : (s.setStep p x).step q = if q = p then x else s.step q :=
  vector_get_set s.steps p q x

theorem tracker_setTracker (p q : Plane) (x : Tracker) :
    (s.setTracker p x).tracker q = if q = p then x else s.tracker q :=
  ByPlane.get_set s.trackers p q x

theorem driver_setDriver (p q : Plane) (x : Driver) :
    (s.setDriver p x).driver q = if q = p then x else s.driver q :=
  ByPlane.get_set s.drivers p q x

theorem seq_setRun (st u : Station) (x : SeqRun) :
    (s.setRun st x).seq u = if u = st then { s.seq st with run := x } else s.seq u :=
  ByStation.get_set s.seqs st u _

theorem seq_setSeqCfg (st u : Station) (x : SeqSettings) :
    (s.setSeqCfg st x).seq u = if u = st then { s.seq st with cfg := x } else s.seq u :=
  ByStation.get_set s.seqs st u _

theorem faultsOf_setFaults (b c : BankId) (x : KindSet) :
    (s.setFaults b x).faultsOf c = if c = b then x else s.faultsOf c :=
  vector_get_set s.sup.faults b c x

end Sys2Proof.Machine
end

