-- ==== Sys2Proof/Laws/Requests.lean ====
section
/-! SUPPORT. Taking a request: what every REQUEST row does when the request is this node's, and the shapes of the two
operations that end every frame. -/

namespace Sys2Proof.Machine

theorem crc_length (bs : List Byte) : (wordBytes (crc bs)).length = 2 := rfl

theorem requestPayload_length (code : Byte) (f : Request) :
    (requestPayload code f).length = 5 + f.params.length + f.resp.length := by
  simp [requestPayload]
  omega

theorem wellFormed_iff (f : Request) :
    f.wellFormed = true ↔ f.params.length ≤ 56 ∧ f.resp.length ≤ 56 := by
  unfold Request.wellFormed
  rw [Bool.and_eq_true]
  exact and_congr decide_eq_true_iff decide_eq_true_iff

/-- Out of reset a command is its effect and the outputs that follow. -/
theorem perform_awake (g : State → State) (s : State) (h : s.inReset = false) :
    perform g s = .next (g s).driveOutputs := by
  simp [perform, h]

/-- A frame is taken while the forward list has room. -/
theorem receive_ready (g : State → State) (s : State) (h : s.ring.forward.length < 4) : receive g s = g s := by
  have : ¬ Config.forwardCapacity ≤ s.ring.forward.length := by simp [Config.forwardCapacity]; omega
  simp [receive, this]

/-- R150, R152: a request of the sizes of R149 is delivered. -/
theorem takeRequest_ready (code : Byte) (u : RequestUnit) (f : Request) (s : State)
    (hl : s.ring.forward.length < 4) (hw : f.wellFormed = true) :
    takeRequest code u f s = deliverRequest code u f s := by
  have hlen : ¬ 120 < (requestPayload code f).length := by
    have := (wellFormed_iff f).1 hw
    rw [requestPayload_length]
    omega
  simp [takeRequest, receive_ready _ _ hl, hlen, hw]

/-- R156: a request that is this node's is executed, its answer written and the frame forwarded. -/
theorem takeRequest_forThisNode (code : Byte) (u : RequestUnit) (f : Request) (s : State) (h : ForThisNode f s) :
    perform (takeRequest code u f) s = .next (answered code f (u f.station f.params s).1 (u f.station f.params s).2) := by
  obtain ⟨⟨hr, hl⟩, hw, hd, ha, hs⟩ := h
  rw [perform_awake _ _ hr, takeRequest_ready _ _ _ _ hl hw]
  have hd' : ¬ f.hdr.dest = 0#4 := hd
  simp [deliverRequest, ha, hd', takeAddressed, hs, notTaken, answered]

theorem stationOf_named (f : Request) (st : Station) (h : NamesStation f st) : stationOf f.station = some st := by
  cases st <;> simp_all [NamesStation, stationOf]

@[simp] theorem ring_finishFrame_forward (bytes : List Byte) (s : State) :
    (finishFrame bytes s).ring.forward = s.ring.forward ++ [bytes] := rfl

@[simp] theorem ring_finishFrame_address (bytes : List Byte) (s : State) :
    (finishFrame bytes s).ring.address = s.ring.address := rfl

@[simp] theorem ring_finishFrame_badFrames (bytes : List Byte) (s : State) :
    (finishFrame bytes s).ring.badFrames = s.ring.badFrames := rfl

@[simp] theorem ring_countBad_badFrames (s : State) :
    (countBad s).ring.badFrames = min 255 (s.ring.badFrames + 1) := rfl

@[simp] theorem ring_countBad_forward (s : State) : (countBad s).ring.forward = s.ring.forward := rfl

/-- A frame finished changes nothing but the ring record. -/
theorem finishFrame_frame (bytes : List Byte) (s : State) :
    finishFrame bytes s = { s with ring := (finishFrame bytes s).ring } := rfl

/-- A bad frame changes nothing but the ring record and the event flags. -/
theorem countBad_frame (s : State) :
    countBad s = { s with ring := (countBad s).ring, events := (countBad s).events } := rfl

/-- R144, R171: after the outputs are driven they are as their conditions say. -/
theorem outputs_driveOutputs (s : State) : OutputsHold s.driveOutputs := by
  refine ⟨?_, ?_, ?_⟩
  · simp [State.driveOutputs, State.muteDue, State.isNormal]
  · simp [State.driveOutputs, State.muteDue, State.isNormal]
  · simp [State.driveOutputs, State.alertDue, State.isNormal]

end Sys2Proof.Machine
end

