-- ==== Sys2Proof/Laws/Acceptance.lean ====
section
/-! SUPPORT. Acceptance: the checks of R22 pass exactly for an acceptable change, and the answer of a refusal is that of
the first check that fails. -/

namespace Sys2Proof.Machine

theorem foldl_or_bits (f : Slot → Bool) (l : List Slot) (m : BitVec 16) (i : Nat) (hi : i < 16) :
    (l.foldl (fun m p => if f p then m ||| (1#16 <<< p.1) else m) m).getLsbD i = (m.getLsbD i || l.any fun p => f p && decide (p.1 = i)) := by
  induction l generalizing m with
  | nil => simp
  | cons p l ih =>
    rw [List.foldl_cons, ih, List.any_cons]
    cases hf : f p
    · simp
    · simp only [if_true, BitVec.getLsbD_or, BitVec.getLsbD_shiftLeft]
      by_cases h : p.1 = i
      · subst h; simp [hi]
      · have h2 : i - p.1 ≠ 0 ∨ i < p.1 := by omega
        rcases h2 with h2 | h2
        · have : (1#16).getLsbD (i - p.1) = false := by
            rw [BitVec.getLsbD_one]; simp [h2]
          simp [h, this]
        · simp [h, h2]

/-- Bit n of a slot map is the slot's membership. -/
theorem getLsbD_slotMap (f : Slot → Bool) (p : Slot) : (slotMap f).getLsbD p.1 = f p := by
  unfold slotMap
  rw [foldl_or_bits _ _ _ _ p.2]
  simp [allSlots]
  cases h : f p
  · simp
    intro x hx
    by_cases e : x.1 = p.1
    · rw [Fin.ext e, h] at hx; cases hx
    · exact e
  · simp
    exact ⟨p, h, rfl⟩

theorem slotMap_eq_zero (f : Slot → Bool) : slotMap f = 0 ↔ ∀ p, f p = false := by
  constructor
  · intro h p
    rw [← getLsbD_slotMap f p, h]
    simp
  · intro h
    apply BitVec.eq_of_getLsbD_eq
    intro i hi
    have := getLsbD_slotMap f ⟨i, hi⟩
    simp only at this
    rw [this, h]
    simp

theorem useRefusal_eq_none (s : State) (x : RouteRecord) (old : Option Plane) :
    useRefusal s x old = none ↔
      x.defined = true ∧
      (∀ l ∈ x.legs, (s.bank l.bank).fitted = true ∧ (s.bank l.bank).plane = x.plane ∧
        l.thr.1 + 1 ≤ (s.bank l.bank).throwsFitted) ∧
      (∀ pl, old = some pl → pl = x.plane) := by
  unfold useRefusal
  cases hd : x.defined
  · simp
  · cases hf : x.legs.findIdx? fun l => !legUsable s x.plane l with
    | some i =>
      simp
      intro h
      rw [List.findIdx?_eq_some_iff_getElem] at hf
      obtain ⟨hi, hx, _⟩ := hf
      have := h _ (List.getElem_mem hi)
      simp [legUsable, this] at hx
    | none =>
      rw [List.findIdx?_eq_none_iff] at hf
      have hf' : ∀ l ∈ x.legs, (s.bank l.bank).fitted = true ∧ (s.bank l.bank).plane = x.plane ∧
        l.thr.1 + 1 ≤ (s.bank l.bank).throwsFitted := by
        intro l hl
        have := hf l hl
        simpa [legUsable, and_assoc] using this
      cases old with
      | none => simpa using hf'
      | some pl =>
        by_cases e : pl = x.plane
        · simpa [e] using hf'
        · simp [e]

theorem stationAdmitted_iff (x : RouteRecord) (st : Station) : stationAdmitted x st = true ↔ RouteFor x st := by
  unfold stationAdmitted RouteFor
  cases x.station <;> cases st <;> simp

theorem claimRefusal_eq_none (s : State) (x : RouteRecord) (st : Station) :
    claimRefusal s x st = none ↔
      (∀ l ∈ x.legs, s.claims.banks.get l.bank = some st) ∧
      (∀ n, x.endpoint = .fixture n → s.claims.fixtures.get n = some st) := by
  unfold claimRefusal routeItems
  simp only [Option.map_eq_none_iff, List.find?_eq_none, List.mem_append]
  constructor
  · intro h
    refine ⟨fun l hl => ?_, fun n hn => ?_⟩
    · have := h (.bank l.bank) (Or.inl (List.mem_map_of_mem hl))
      exact Classical.not_not.1 fun e => this (decide_eq_true e)
    · have := h (.fixture n) (Or.inr (by simp [hn]))
      exact Classical.not_not.1 fun e => this (decide_eq_true e)
  · rintro ⟨h1, h2⟩ i hi
    rcases hi with hi | hi
    · obtain ⟨l, hl, rfl⟩ := List.mem_map.1 hi
      simp [State.claimOf, h1 l hl]
    · cases he : x.endpoint with
      | probe n => simp [he] at hi
      | fixture n => simp [he] at hi; subst hi; simp [State.claimOf, h2 n he]

theorem seatRefusal_eq_none (s : State) (x : RouteRecord) :
    seatRefusal s x = none ↔ ∀ n, x.endpoint = .fixture n → (s.chamber.seats.get n).debounced = true := by
  unfold seatRefusal State.seated
  cases he : x.endpoint with
  | probe n => simp
  | fixture n => simp

theorem faultRefusal_eq_none (s : State) (x : RouteRecord) (oldLegs : List RouteLeg) :
    faultRefusal s x oldLegs = none ↔ ∀ l ∈ x.legs, l ∈ oldLegs ∨ s.faultsOf l.bank = 0 := by
  unfold faultRefusal retainedLeg State.inhibited
  simp
  constructor
  · intro h l hl
    have := h l hl
    by_cases e : l ∈ oldLegs
    · exact Or.inl e
    · exact Or.inr (by simpa [e] using this)
  · intro h l hl e
    exact (h l hl).resolve_left e

/-- R22: a MAKE, or a SWAP from a slot on a route of the same plane, passes the six checks exactly when it is
acceptable. -/
theorem acceptanceRefusal_eq_none (s : State) (st : Station) (x : RouteRecord) (old : Option Slot)
    (oldLegs : List RouteLeg)
    (h : old = none ∧ oldLegs = [] ∨ ∃ o y, old = some o ∧ s.slotRoute o = some y ∧ y.plane = x.plane ∧ y.legs = oldLegs) :
    acceptanceRefusal s st x old = none ↔ Acceptable s st x old oldLegs := by
  have hl : (match old.bind s.slotRoute with | some x => x.legs | none => []) = oldLegs := by
    rcases h with ⟨rfl, rfl⟩ | ⟨o, y, rfl, hy, _, rfl⟩
    · rfl
    · simp [hy]
  have hp : ∀ pl, (old.bind s.slotRoute).map RouteRecord.plane = some pl → pl = x.plane := by
    rcases h with ⟨rfl, rfl⟩ | ⟨o, y, rfl, hy, hpl, rfl⟩
    · simp
    · simp [hy, hpl]
  have hst : (if stationAdmitted x st then none else some ⟨.eClaim, [0xFF]⟩ : Option Reply) = none ↔ RouteFor x st := by
    rw [← stationAdmitted_iff]
    cases stationAdmitted x st <;> simp
  have hc : conflictRefusal s st x old = none ↔
      (∀ l ∈ x.legs, (s.bank l.bank).holder = none ∨ (old ≠ none ∧ (s.bank l.bank).holder = old)) ∧
      (∀ q y, old ≠ some q → (s.path q).state ≠ .free → s.slotRoute q = some y → y.plane = x.plane →
        ((s.path q).station = some st → y.port ≠ x.port) ∧ y.endpoint ≠ x.endpoint) := by
    unfold conflictRefusal
    have : (if slotMap (conflicting s st x old) = 0 then none
        else some (⟨.eConflict, bytesOfMap16 (slotMap (conflicting s st x old))⟩ : Reply)) = none ↔
        ∀ q, conflicting s st x old q = false := by
      rw [← slotMap_eq_zero]
      split <;> simp_all
    show (if slotMap (conflicting s st x old) = 0 then none
        else some (⟨.eConflict, bytesOfMap16 (slotMap (conflicting s st x old))⟩ : Reply)) = none ↔ _
    rw [this]
    unfold conflicting
    constructor
    · intro h
      refine ⟨fun l hl => ?_, fun q y hq hf hr hpl => ?_⟩
      · cases hh : (s.bank l.bank).holder with
        | none => exact Or.inl rfl
        | some q =>
          right
          have := h q
          by_cases e : old = some q
          · simp [e]
          · exfalso
            simp [e] at this
            exact this.1 l hl hh
      · have := h q
        simp [hq, hr, hpl, State.slotUsed, hf] at this
        exact ⟨this.2.1, this.2.2⟩
    · rintro ⟨h1, h2⟩ q
      by_cases e : old = some q
      · simp [e]
      · simp only [e, ne_eq, not_false_eq_true, decide_true, Bool.true_and, Bool.or_eq_false_iff]
        constructor
        · rw [List.any_eq_false]
          intro l hl
          rcases h1 l hl with h | h
          · simp [h]
          · simp [h.2, e]
        · cases hu : s.slotUsed q
          · simp
          · have hf : (s.path q).state ≠ .free := by simpa [State.slotUsed] using hu
            cases hr : s.slotRoute q with
            | none => simp
            | some y =>
              by_cases hpl : y.plane = x.plane
              · have := h2 q y e hf hr hpl
                simp [hpl, this.2]
                exact this.1
              · simp [hpl]
  have hfr : faultRefusal s x (match old.bind s.slotRoute with | some x => x.legs | none => []) = none ↔
      ∀ l ∈ x.legs, l ∈ oldLegs ∨ s.faultsOf l.bank = 0 := by
    rw [hl]
    exact faultRefusal_eq_none s x oldLegs
  unfold acceptanceRefusal Acceptable
  simp only [Option.or_eq_none_iff, useRefusal_eq_none, hst, claimRefusal_eq_none, seatRefusal_eq_none,
    hc]
  constructor
  · rintro ⟨⟨a, b, _⟩, c, ⟨d, e⟩, f, g, i, j⟩
    exact ⟨a, b, c, d, fun n hn => ⟨e n hn, f n hn⟩, hfr.1 g, i, j⟩
  · rintro ⟨a, b, c, d, e, g, i, j⟩
    exact ⟨⟨a, b, hp⟩, c, ⟨d, fun n hn => (e n hn).1⟩, fun n hn => (e n hn).2, hfr.2 g, i, j⟩

/-! ## The first check that fails (R22) -/

/-- The first element with the property splits the list after elements without it. -/
theorem find?_iff_split {α : Type} (f : α → Bool) (l : List α) (x : α) :
    l.find? f = some x ↔ ∃ before after, l = before ++ x :: after ∧ (∀ y ∈ before, f y = false) ∧ f x = true := by
  rw [List.find?_eq_some_iff_append]
  constructor
  · rintro ⟨h, a, b, rfl, hb⟩
    exact ⟨a, b, rfl, fun y hy => by simpa using hb y hy, h⟩
  · rintro ⟨a, b, rfl, hb, h⟩
    exact ⟨h, a, b, rfl, fun y hy => by simpa using hb y hy⟩

theorem findIdx?_iff_split {α : Type} (f : α → Bool) (l : List α) (i : Nat) :
    l.findIdx? f = some i ↔
      ∃ before x after, l = before ++ x :: after ∧ (∀ y ∈ before, f y = false) ∧ f x = true ∧ i = before.length := by
  rw [List.findIdx?_eq_some_iff_getElem]
  constructor
  · rintro ⟨hi, hx, hb⟩
    refine ⟨l.take i, l[i], l.drop (i + 1), ?_, fun y hy => ?_, hx, ?_⟩
    · rw [List.getElem_cons_drop, List.take_append_drop]
    · obtain ⟨j, hj, rfl⟩ := List.getElem_of_mem hy
      have h1 : j < i := by
        rw [List.length_take] at hj
        omega
      rw [List.getElem_take]
      simpa using hb j h1
    · rw [List.length_take]
      omega
  · rintro ⟨a, x, b, rfl, hb, hx, rfl⟩
    refine ⟨by simp, by simpa using hx, fun j hj => ?_⟩
    rw [List.getElem_append_left hj]
    simpa using hb _ (List.getElem_mem hj)

theorem legUsable_iff (s : State) (pl : Plane) (l : RouteLeg) : legUsable s pl l = true ↔ LegUsable s pl l := by
  unfold legUsable LegUsable
  simp [and_assoc]

theorem legUsable_eq_false (s : State) (pl : Plane) (l : RouteLeg) : legUsable s pl l = false ↔ ¬ LegUsable s pl l := by
  rw [← legUsable_iff, Bool.not_eq_true]

theorem conflicting_iff (s : State) (st : Station) (x : RouteRecord) (old : Option Slot) (q : Slot) :
    conflicting s st x old q = true ↔ Conflicts s st x old q := by
  unfold conflicting Conflicts State.slotUsed
  simp only [Bool.and_eq_true, Bool.or_eq_true, decide_eq_true_iff, List.any_eq_true]
  refine and_congr_right fun _ => or_congr Iff.rfl (and_congr_right fun _ => ?_)
  cases s.slotRoute q <;> simp

/-- R22: what check `k` alone answers. -/
def checkRefusal (s : State) (st : Station) (x : RouteRecord) (old : Option Slot) (oldPlane : Option Plane)
    (oldLegs : List RouteLeg) : Nat → Option Reply
  | 1 => useRefusal s x oldPlane
  | 2 => if stationAdmitted x st then none else some ⟨.eClaim, [0xFF]⟩
  | 3 => claimRefusal s x st
  | 4 => seatRefusal s x
  | 5 => faultRefusal s x oldLegs
  | 6 => conflictRefusal s st x old
  | _ => none

theorem useRefusal_eq_some (s : State) (x : RouteRecord) (old : Option Plane) (r : Reply) :
    useRefusal s x old = some r ↔
      (x.defined = false ∧ r = ⟨.eArg, [0xFE]⟩) ∨
      (x.defined = true ∧
        ∃ before l after, x.legs = before ++ l :: after ∧ (∀ m ∈ before, LegUsable s x.plane m) ∧
          ¬ LegUsable s x.plane l ∧ r = ⟨.eArg, [byteOf before.length]⟩) ∨
      (x.defined = true ∧ (∀ l ∈ x.legs, LegUsable s x.plane l) ∧ old ≠ none ∧ old ≠ some x.plane ∧
        r = ⟨.eArg, [0xFD]⟩) := by
  unfold useRefusal
  cases hd : x.defined
  · simp [eq_comm]
  · cases hf : x.legs.findIdx? fun l => !legUsable s x.plane l with
    | some i =>
      obtain ⟨a, l, b, hl, ha, hx, rfl⟩ := (findIdx?_iff_split _ _ _).1 hf
      have hx' : ¬ LegUsable s x.plane l := (legUsable_eq_false _ _ _).1 (by simpa using hx)
      constructor
      · intro h
        cases h
        exact Or.inr (Or.inl ⟨rfl, a, l, b, hl, fun m hm => (legUsable_iff _ _ _).1 (by simpa using ha m hm), hx', rfl⟩)
      · rintro (h | ⟨_, a', l', b', hl', ha', hx2, rfl⟩ | ⟨_, h, _⟩)
        · exact nomatch h.1
        · have := (findIdx?_iff_split (fun l => !legUsable s x.plane l) x.legs a'.length).2
            ⟨a', l', b', hl', fun y hy => by simpa using (legUsable_iff _ _ _).2 (ha' y hy),
              by simpa using (legUsable_eq_false _ _ _).2 hx2, rfl⟩
          rw [hf] at this
          show some (⟨.eArg, [byteOf a.length]⟩ : Reply) = _
          rw [Option.some.inj this]
        · exact absurd (h l (by rw [hl]; simp)) hx'
    | none =>
      rw [List.findIdx?_eq_none_iff] at hf
      have hu : ∀ l ∈ x.legs, LegUsable s x.plane l := fun l hl => (legUsable_iff _ _ _).1 (by simpa using hf l hl)
      have hn : ¬ ∃ before l after, x.legs = before ++ l :: after ∧ (∀ m ∈ before, LegUsable s x.plane m) ∧
          ¬ LegUsable s x.plane l ∧ r = ⟨.eArg, [byteOf before.length]⟩ := by
        rintro ⟨a, l, b, hl, _, h, _⟩
        exact h (hu l (by rw [hl]; simp))
      constructor
      · intro h
        cases old with
        | none => cases h
        | some pl =>
          by_cases e : pl = x.plane
          · simp [e] at h
          · simp [e] at h
            exact Or.inr (Or.inr ⟨rfl, hu, by simp, by simpa using e, h.symm⟩)
      · rintro (h | h | ⟨_, _, h1, h2, rfl⟩)
        · exact nomatch h.1
        · exact absurd h.2 hn
        · cases old with
          | none => exact absurd rfl h1
          | some pl =>
            have e : pl ≠ x.plane := fun e => h2 (by rw [e])
            simp [e]

theorem claimRefusal_eq_some (s : State) (x : RouteRecord) (st : Station) (r : Reply) :
    claimRefusal s x st = some r ↔
      ∃ before i after, routeItems x = before ++ i :: after ∧ (∀ j ∈ before, s.claimOf j = some st) ∧
        s.claimOf i ≠ some st ∧ r = ⟨.eClaim, [itemByte i]⟩ := by
  unfold claimRefusal
  rw [Option.map_eq_some_iff]
  simp only [find?_iff_split, decide_eq_false_iff_not, decide_eq_true_iff, Classical.not_not]
  constructor
  · rintro ⟨i, ⟨a, b, h1, h2, h3⟩, rfl⟩
    exact ⟨a, i, b, h1, h2, h3, rfl⟩
  · rintro ⟨a, i, b, h1, h2, h3, rfl⟩
    exact ⟨i, ⟨a, b, h1, h2, h3⟩, rfl⟩

theorem seatRefusal_eq_some (s : State) (x : RouteRecord) (r : Reply) :
    seatRefusal s x = some r ↔
      ∃ n, x.endpoint = .fixture n ∧ (s.chamber.seats.get n).debounced = false ∧ r = ⟨.eState, [fixtureByte n]⟩ := by
  unfold seatRefusal State.seated
  cases x.endpoint with
  | probe n => simp
  | fixture n =>
    constructor
    · intro h
      cases hd : (s.chamber.seats.get n).debounced
      · simp [hd] at h
        exact ⟨n, rfl, hd, h.symm⟩
      · simp [hd] at h
    · rintro ⟨m, hm, hd, rfl⟩
      cases hm
      simp [hd]

theorem faultRefusal_eq_some (s : State) (x : RouteRecord) (oldLegs : List RouteLeg) (r : Reply) :
    faultRefusal s x oldLegs = some r ↔
      ∃ before l after, x.legs = before ++ l :: after ∧ (∀ m ∈ before, m ∈ oldLegs ∨ s.faultsOf m.bank = 0) ∧
        l ∉ oldLegs ∧ s.faultsOf l.bank ≠ 0 ∧ r = ⟨.eFault, [byteOf l.bank.1]⟩ := by
  have hb : ∀ l : RouteLeg, (!retainedLeg oldLegs l && s.inhibited l.bank) = true ↔
      l ∉ oldLegs ∧ s.faultsOf l.bank ≠ 0 := by
    intro l
    unfold retainedLeg State.inhibited
    simp
  have hf : ∀ l : RouteLeg, (!retainedLeg oldLegs l && s.inhibited l.bank) = false ↔
      l ∈ oldLegs ∨ s.faultsOf l.bank = 0 := by
    intro l
    rw [← Bool.not_eq_true, hb, Classical.not_and_iff_not_or_not, Classical.not_not, Classical.not_not]
  unfold faultRefusal
  rw [Option.map_eq_some_iff]
  simp only [find?_iff_split, hb, hf]
  constructor
  · rintro ⟨l, ⟨a, b, h1, h2, h3, h4⟩, rfl⟩
    exact ⟨a, l, b, h1, h2, h3, h4, rfl⟩
  · rintro ⟨a, l, b, h1, h2, h3, h4, rfl⟩
    exact ⟨l, ⟨a, b, h1, h2, h3, h4⟩, rfl⟩

theorem conflictRefusal_eq_some (s : State) (st : Station) (x : RouteRecord) (old : Option Slot) (r : Reply) :
    conflictRefusal s st x old = some r ↔
      ∃ m : BitVec 16, m ≠ 0 ∧ (∀ q : Slot, m.getLsbD q.1 = true ↔ Conflicts s st x old q) ∧
        r = ⟨.eConflict, bytes2 m.toNat⟩ := by
  unfold conflictRefusal bytesOfMap16
  dsimp only
  constructor
  · intro h
    by_cases e : slotMap (conflicting s st x old) = 0
    · rw [if_pos e] at h
      cases h
    · rw [if_neg e] at h
      cases h
      exact ⟨_, e, fun q => by rw [getLsbD_slotMap, conflicting_iff], rfl⟩
  · rintro ⟨m, hm, hq, rfl⟩
    have : slotMap (conflicting s st x old) = m := by
      apply BitVec.eq_of_getLsbD_eq
      intro i hi
      have h1 := getLsbD_slotMap (conflicting s st x old) ⟨i, hi⟩
      have h2 := hq ⟨i, hi⟩
      rw [← conflicting_iff] at h2
      simp only at h1 h2
      rw [h1, Bool.eq_iff_iff, h2]
    rw [this, if_neg hm]

/-- R22: each check fails with an answer exactly when its part of the acceptance gives that answer. -/
theorem checkRefusal_iff (s : State) (st : Station) (x : RouteRecord) (old : Option Slot) (oldPlane : Option Plane)
    (oldLegs : List RouteLeg) (k : Nat) (r : Reply) :
    checkRefusal s st x old oldPlane oldLegs k = some r ↔ FailsCheck s st x old oldPlane oldLegs k r := by
  unfold FailsCheck
  match k with
  | 0 => simp [checkRefusal]
  | 1 => simp only [checkRefusal, useRefusal_eq_some]; simp
  | 2 =>
    have h : (if stationAdmitted x st = true then none else some ⟨.eClaim, [0xFF]⟩ : Option Reply) = some r ↔
        ¬ RouteFor x st ∧ r = ⟨.eClaim, [0xFF]⟩ := by
      rw [← stationAdmitted_iff]
      by_cases e : stationAdmitted x st = true
      · simp [e]
      · rw [if_neg e]
        exact ⟨fun h => ⟨e, (Option.some.inj h).symm⟩, fun h => by rw [h.2]⟩
    simp only [checkRefusal, h]
    simp
  | 3 => simp only [checkRefusal, claimRefusal_eq_some]; simp
  | 4 => simp only [checkRefusal, seatRefusal_eq_some]; simp
  | 5 => simp only [checkRefusal, faultRefusal_eq_some]; simp
  | 6 => simp only [checkRefusal, conflictRefusal_eq_some]; simp
  | n + 7 => simp [checkRefusal]

/-- R22: the first check that fails, in terms of the checks. -/
theorem firstFailure_iff (s : State) (st : Station) (x : RouteRecord) (old : Option Slot) (oldPlane : Option Plane)
    (oldLegs : List RouteLeg) (k : Nat) (r : Reply) :
    FirstFailure s st x old oldPlane oldLegs k r ↔
      checkRefusal s st x old oldPlane oldLegs k = some r ∧
        ∀ j, j < k → checkRefusal s st x old oldPlane oldLegs j = none := by
  unfold FirstFailure
  simp only [← checkRefusal_iff, Option.eq_none_iff_forall_ne_some, ne_eq]
  exact and_congr_right fun _ => ⟨fun h j hj a => h j a hj, fun h j a hj => h j hj a⟩

/-- R22: the answer of the acceptance is that of the first check that fails. `old` is the old slot of a SWAP, whose
route's plane and legs are given. -/
theorem acceptanceRefusal_of_firstFailure (s : State) (st : Station) (x : RouteRecord) (old : Option Slot)
    (oldPlane : Option Plane) (oldLegs : List RouteLeg) (k : Nat) (r : Reply)
    (h : (old = none ∧ oldPlane = none ∧ oldLegs = []) ∨
      ∃ o y, old = some o ∧ s.slotRoute o = some y ∧ oldPlane = some y.plane ∧ oldLegs = y.legs)
    (hf : FirstFailure s st x old oldPlane oldLegs k r) : acceptanceRefusal s st x old = some r := by
  have hp : (old.bind s.slotRoute).map RouteRecord.plane = oldPlane := by
    rcases h with ⟨rfl, rfl, _⟩ | ⟨o, y, rfl, hy, rfl, _⟩
    · rfl
    · simp [hy]
  have hl : (match old.bind s.slotRoute with | some x => x.legs | none => []) = oldLegs := by
    rcases h with ⟨rfl, _, rfl⟩ | ⟨o, y, rfl, hy, _, rfl⟩
    · rfl
    · simp [hy]
  obtain ⟨h1, h2⟩ := (firstFailure_iff _ _ _ _ _ _ _ _).1 hf
  have he : acceptanceRefusal s st x old =
      (List.range' 1 6).findSome? (checkRefusal s st x old oldPlane oldLegs) := by
    subst hp hl
    simp only [acceptanceRefusal, List.range', List.findSome?_cons, List.findSome?_nil, checkRefusal]
    cases useRefusal s x ((old.bind s.slotRoute).map RouteRecord.plane) with
    | some _ => rfl
    | none =>
      by_cases ha : stationAdmitted x st = true <;> simp only [ha]
      · cases claimRefusal s x st <;> cases seatRefusal s x <;> first | rfl | skip
        cases faultRefusal s x _ <;> cases conflictRefusal s st x old <;> rfl
      · rfl
  have hk : 1 ≤ k ∧ k ≤ 6 := by
    by_contra hn
    have h0 : checkRefusal s st x old oldPlane oldLegs k = none := by
      unfold checkRefusal
      split <;> first | rfl | omega
    rw [h0] at h1
    cases h1
  rw [he, List.findSome?_eq_some_iff]
  refine ⟨List.range' 1 (k - 1), k, List.range' (k + 1) (6 - k), ?_, h1, fun j hj => h2 j ?_⟩
  · obtain ⟨hk1, hk6⟩ := hk
    interval_cases k <;> rfl
  · have := List.mem_range'_1.1 hj
    omega

/-- R24: the lowest-numbered FREE slot. -/
theorem lowestFree_eq_some (s : State) (p : Slot) : s.lowestFree = some p ↔ LowestFree s p := by
  unfold State.lowestFree LowestFree allSlots State.slotUsed
  rw [List.find?_eq_some_iff_getElem]
  simp
  intro _
  constructor
  · rintro ⟨i, hi, rfl, hb⟩ q hq
    exact hb q.1 hq
  · intro hb
    exact ⟨p.1, p.2, rfl, fun j hj => hb ⟨j, by omega⟩ hj⟩

end Sys2Proof.Machine
end

