-- ==== Sys2Proof/Laws/Aside.lean ====
section
/-! SUPPORT. What the operations of the Path Set and the Change Queue never write: the windows, the claims, the
Supervision Unit and the Safe Controller. One lemma per operation. -/

namespace Sys2Proof.Machine

/-- The part of the state that those operations never write. -/
def State.aside (s : State) : ByPlane Tracker × ClaimTable × Supervision × SafeController :=
  (s.trackers, s.claims, s.sup, s.safe)

@[simp] theorem aside_setBank (s : State) (b : BankId) (x : BankRecord) : (s.setBank b x).aside = s.aside := rfl

@[simp] theorem aside_recordPosition (s : State) (b : BankId) (x : Position) : (s.recordPosition b x).aside = s.aside := rfl

@[simp] theorem aside_setHolder (s : State) (b : BankId) (x : Option Slot) : (s.setHolder b x).aside = s.aside := rfl

@[simp] theorem aside_setHomeOwed (s : State) (b : BankId) (x : Bool) : (s.setHomeOwed b x).aside = s.aside := rfl

@[simp] theorem aside_setPath (s : State) (p : Slot) (x : PathRecord) : (s.setPath p x).aside = s.aside := rfl

@[simp] theorem aside_setDriver (s : State) (p : Plane) (x : Driver) : (s.setDriver p x).aside = s.aside := rfl

@[simp] theorem aside_setQueue (s : State) (x : List Entry) : (s.setQueue x).aside = s.aside := rfl

@[simp] theorem aside_raise (s : State) (e : Event) : (s.raise e).aside = s.aside := rfl

@[simp] theorem aside_redraw (s : State) : (s.redraw).aside = s.aside := rfl

@[simp] theorem aside_mapBanks (s : State) (f : BankId → BankRecord → BankRecord) :
    (s.mapBanks f).aside = s.aside := by
  simp [State.aside]

@[simp] theorem aside_setRun (s : State) (st : Station) (r : SeqRun) : (s.setRun st r).aside = s.aside := by
  cases st <;> rfl

theorem aside_foldl {α : Type} (f : State → α → State) (h : ∀ s x, (f s x).aside = s.aside) (xs : List α) (s : State) :
    (xs.foldl f s).aside = s.aside := by
  induction xs generalizing s with
  | nil => rfl
  | cons x xs ih => rw [List.foldl_cons, ih, h]

@[simp] theorem aside_eachPlane (f : Plane → State → State) (h : ∀ p s, (f p s).aside = s.aside) (s : State) :
    (eachPlane f s).aside = s.aside := by
  unfold eachPlane
  split <;> simp [h]

@[simp] theorem aside_freeSlot (s : State) (p : Slot) : (freeSlot p s).aside = s.aside := by
  simp [freeSlot]

@[simp] theorem aside_placeMake (s : State) (st : Station) (org : ChangeOrigin) (r : RouteId) (p : Slot) : (placeMake s st org r p).aside = s.aside := by
  simp [placeMake]

@[simp] theorem aside_placeSwap (s : State) (st : Station) (org : ChangeOrigin) (o : Slot) (r : RouteId) (p : Slot) : (placeSwap s st org o r p).aside = s.aside := by
  simp [placeSwap]

@[simp] theorem aside_acceptBreak (s : State) (p : Slot) (org : ChangeOrigin) (x : Option PriorState) : (acceptBreak p org x s).aside = s.aside := by
  simp [acceptBreak]

@[simp] theorem aside_goLive (s : State) (p : Slot) : (goLive p s).aside = s.aside := by
  simp [goLive]

@[simp] theorem aside_startSettling (s : State) (p : Slot) : (startSettling p s).aside = s.aside := by
  unfold startSettling
  split <;> simp

@[simp] theorem aside_failSlot (s : State) (p : Slot) (why : FailReason) : (failSlot p why s).aside = s.aside := by
  unfold failSlot
  simp only
  split <;> simp

@[simp] theorem aside_notifyEnded (s : State) (e : Entry) (c : Bool) : (notifyEnded e c s).aside = s.aside := by
  unfold notifyEnded
  split <;> simp

@[simp] theorem aside_clearHeld (s : State) (pl : Plane) : (clearHeld pl s).aside = s.aside := by
  simp [clearHeld]

@[simp] theorem aside_removeEntry (s : State) (e : Entry) : (removeEntry e s).aside = s.aside := by
  unfold removeEntry
  split <;> simp

@[simp] theorem aside_applyCloseOwed (s : State) (p : Slot) : (applyCloseOwed p s).aside = s.aside := by
  unfold applyCloseOwed
  simp only
  split <;> simp

@[simp] theorem aside_settleFormed (s : State) (p : Slot) : (settleFormed p s).aside = s.aside := by
  unfold settleFormed
  simp only
  split <;> simp

@[simp] theorem aside_freeOpt (s : State) (p : Option Slot) : (freeOpt p s).aside = s.aside := by
  unfold freeOpt
  split <;> simp

@[simp] theorem aside_completeEntry (s : State) (e : Entry) : (completeEntry e s).aside = s.aside := by
  unfold completeEntry
  split <;> simp

@[simp] theorem aside_failPaths (s : State) (e : Entry) : (failPaths e s).aside = s.aside := by
  unfold failPaths
  repeat' split
  all_goals simp

@[simp] theorem aside_recordFailure (s : State) (e : Entry) (why : EntryFailure) (b : Option BankId) (r : Option RouteId) : (recordFailure e why b r s).aside = s.aside := by
  rfl

@[simp] theorem aside_failEntry (s : State) (e : Entry) (why : EntryFailure) (b : Option BankId) : (failEntry e why b s).aside = s.aside := by
  unfold failEntry
  split <;> simp

@[simp] theorem aside_returnBanks (s : State) (o n : Slot) : (returnBanks o n s).aside = s.aside := by
  simp [returnBanks]

@[simp] theorem aside_undoAcceptance (s : State) (e : Entry) : (undoAcceptance e s).aside = s.aside := by
  unfold undoAcceptance
  split <;> simp

@[simp] theorem aside_cancelEntry (s : State) (e : Entry) : (cancelEntry e s).aside = s.aside := by
  simp [cancelEntry]

@[simp] theorem aside_cancelAll (s : State) (es : List Entry) : (cancelAll es s).aside = s.aside := by
  exact aside_foldl _ (fun s e => aside_cancelEntry s e) es s

@[simp] theorem aside_convertSwap (s : State) (e : Entry) (o n : Slot) : (convertSwap e o n s).aside = s.aside := by
  unfold convertSwap
  simp only
  repeat' split
  all_goals simp

@[simp] theorem aside_failIdleHead (s : State) (pl : Plane) : (failIdleHead pl s).aside = s.aside := by
  unfold failIdleHead
  repeat' split
  all_goals simp

end Sys2Proof.Machine
end

