-- ==== Sys2Proof/Laws/Bytes.lean ====
section
/-! SUPPORT. What the bytes of a value give back when they are read by position. -/

namespace Sys2Proof.Machine

@[simp] theorem toNat_byteOf (n : Nat) : (byteOf n).toNat = n % 256 := by simp [byteOf]

@[simp] theorem val1_cons_zero (x : Byte) (xs : List Byte) : val1 (x :: xs) 0 = x.toNat := rfl

@[simp] theorem val1_cons_succ (x : Byte) (xs : List Byte) (i : Nat) : val1 (x :: xs) (i + 1) = val1 xs i := rfl

theorem val1_byteOf (n : Nat) (xs : List Byte) (h : n < 256) : val1 (byteOf n :: xs) 0 = n := by
  simp [Nat.mod_eq_of_lt h]

/-- A value below 65 536 is read back from its two bytes. -/
theorem two_bytes (n : Nat) (h : n < 65536) : n / 256 % 256 * 256 + n % 256 = n := by omega

/-- A value below 2 ^ 24 is read back from its three bytes. -/
theorem three_bytes (n : Nat) (h : n < 16777216) :
    (n / 65536 % 256 * 256 + n / 256 % 256) * 256 + n % 256 = n := by omega

/-- A value below 2 ^ 32 is read back from its four bytes. -/
theorem four_bytes (n : Nat) (h : n < 4294967296) :
    (n / 65536 / 256 % 256 * 256 + n / 65536 % 256) * 65536 + (n / 256 % 256 * 256 + n % 256) = n := by omega

theorem val1_lt (ps : List Byte) (i : Nat) : val1 ps i < 256 := (ps.getD i 0).isLt

theorem val2_lt (ps : List Byte) (i : Nat) : val2 ps i < 65536 := by
  have := val1_lt ps i
  have := val1_lt ps (i + 1)
  unfold val2
  omega

theorem val3_lt (ps : List Byte) (i : Nat) : val3 ps i < 16777216 := by
  have := val2_lt ps i
  have := val1_lt ps (i + 2)
  unfold val3
  omega

theorem val4_lt (ps : List Byte) (i : Nat) : val4 ps i < 4294967296 := by
  have := val2_lt ps i
  have := val2_lt ps (i + 2)
  unfold val4
  omega

@[simp] theorem length_bytes2 (n : Nat) : (bytes2 n).length = 2 := rfl

@[simp] theorem length_bytes3 (n : Nat) : (bytes3 n).length = 3 := rfl

@[simp] theorem length_bytes4 (n : Nat) : (bytes4 n).length = 4 := rfl

@[simp] theorem length_settingsBytes (x : Settings) : (settingsBytes x).length = 18 := rfl

@[simp] theorem length_seqSettingsBytes (c : SeqSettings) : (seqSettingsBytes c).length = 15 := rfl

@[simp] theorem length_stepBytes (r : StepRecord) : (stepBytes r).length = 5 := rfl

@[simp] theorem length_itemMapBytes (f : Item → Bool) : (itemMapBytes f).length = 4 := rfl

end Sys2Proof.Machine
end

