-- ==== Sys2Proof/Laws/Evaluation.lean ====
section
/-! SUPPORT. One lemma per operation of a List Sequencer that says everything it does: the arrival (R83), the evaluation
of a plane (R99), the state taken (R84), the retries (R85, R108), and the end of a step (R88, R89). -/

namespace Sys2Proof.Machine

@[simp] theorem run_setRun_self (s : State) (st : Station) (r : SeqRun) : (s.setRun st r).run st = r := by
  cases st <;> rfl

@[simp] theorem setRun_setRun (s : State) (st : Station) (r r' : SeqRun) :
    (s.setRun st r).setRun st r' = s.setRun st r' := by
  cases st <;> rfl

theorem inRegion_iff (c : SeqSettings) (n : StepId) : c.inRegion n = true ↔ InRegion c n := by
  unfold SeqSettings.inRegion InRegion
  simp only [Bool.and_eq_true, decide_eq_true_iff]

theorem anyStalled_iff (r : SeqRun) : r.anyStalled = true ↔ r.stalled ≠ ⟨none, none⟩ := by
  unfold SeqRun.anyStalled
  obtain ⟨a, b⟩ := r.stalled
  cases a <;> cases b <;> simp

/-! ## Arrival and evaluation (R83, R84, R99, R109) -/

theorem arrivesAt_arriveAt (st : Station) (n : StepId) (loopback : Bool) (s : State) :
    ArrivesAt st n loopback s (arriveAt st n loopback s) := by
  have hg : (decide ((s.seqCfg st).group.map Prod.fst = some n) && !loopback) =
      decide ((s.seqCfg st).group.map Prod.fst = some n ∧ loopback = false) := by
    cases loopback <;> simp
  unfold ArrivesAt arriveAt
  dsimp only
  rw [hg]
  cases hm : (s.step n).mark <;> cases st
  all_goals
    refine ⟨rfl, fun other ho => ?_, ?_, rfl⟩
    · cases other
      · first | rfl | exact absurd rfl ho
      · first | rfl | exact absurd rfl ho
    · simp only [decide_eq_true_iff]
      rfl

/-- What an arrival leaves in the run state before the evaluation. -/
theorem run_of_arrivesAt {st : Station} {n : StepId} {loopback : Bool} {s v : State} (h : ArrivesAt st n loopback s v) :
    (v.run st).copy = s.step n ∧ (v.run st).stalled = ⟨none, none⟩ ∧ (v.run st).changes = [] ∧
      (v.run st).jumpTaken = false ∧ (v.run st).cursor = n := by
  obtain ⟨_, _, h, _⟩ := h
  unfold State.run
  rw [h]
  exact ⟨rfl, rfl, rfl, rfl, rfl⟩

theorem becameFaulted_faultSeq (st : Station) (pl : Option Plane) (why : SeqFaultReason) (w : State) :
    BecameFaulted st pl why w (faultSeq st pl why w) := rfl

/-- R99: one plane is evaluated, with the fault it gives, if any. -/
theorem planeEvaluated_writeOutcome (st : Station) (pl : Plane) (v : State) :
    ∃ fault, PlaneEvaluated st pl v (writeOutcome st pl (evalPlane st pl v)).2 fault ∧
      (writeOutcome st pl (evalPlane st pl v)).1 = decide (fault ≠ none) := by
  unfold PlaneEvaluated
  generalize evalPlane st pl v = x
  obtain ⟨o, w⟩ := x
  cases o with
  | passed => exact ⟨none, ⟨fun _ h => (nomatch h), fun _ => ⟨rfl, rfl⟩⟩, rfl⟩
  | applied => exact ⟨none, ⟨fun _ h => (nomatch h), fun _ => ⟨rfl, rfl⟩⟩, rfl⟩
  | stalled c => exact ⟨none, ⟨fun _ h => (nomatch h), fun _ => ⟨rfl, rfl⟩⟩, rfl⟩
  | faulted why =>
    exact ⟨some why, ⟨fun x h => by cases h; exact ⟨rfl, rfl⟩, fun h => absurd rfl (h why)⟩, rfl⟩

/-- R84: the state taken after an evaluation without a fault. -/
theorem takesState_settleSeq (st : Station) (x : State) : TakesState st x (settleSeq st x) := by
  refine ⟨fun h => ?_, fun h hc => ?_, fun h hc => ?_⟩
  · unfold settleSeq
    exact if_pos ((anyStalled_iff _).2 h)
  · have h1 : ¬ (x.run st).anyStalled = true := fun e => (anyStalled_iff _).1 e h
    have h2 : ¬ (x.run st).changes.isEmpty = true := by simpa using hc
    unfold settleSeq
    dsimp only
    rw [if_neg h1, if_neg h2]
  · have h1 : ¬ (x.run st).anyStalled = true := fun e => (anyStalled_iff _).1 e h
    unfold settleSeq
    dsimp only
    rw [if_neg h1, hc]
    rfl

/-- R99: plane B of an evaluation and the state taken. -/
theorem secondEvaluated_finishTurn (st : Station) (w : State) : SecondEvaluated st w (finishTurn st (.evalB, w)) := by
  obtain ⟨fault, h, hb⟩ := planeEvaluated_writeOutcome st .b w
  refine ⟨_, fault, h, fun hf => ?_, fun hf => ?_⟩
  · have : writeOutcome st .b (evalPlane st .b w) = (true, (writeOutcome st .b (evalPlane st .b w)).2) :=
      Prod.ext (by rw [hb]; exact decide_eq_true hf) rfl
    show settleUnlessFaulted st (writeOutcome st .b (evalPlane st .b w)) = _
    rw [this]
    rfl
  · have : writeOutcome st .b (evalPlane st .b w) = (false, (writeOutcome st .b (evalPlane st .b w)).2) :=
      Prod.ext (by rw [hb, hf]; rfl) rfl
    show TakesState st _ (settleUnlessFaulted st (writeOutcome st .b (evalPlane st .b w)))
    rw [this]
    exact takesState_settleSeq st _

/-- R83, R99: an arrival at an APPLY step, up to plane A's answer. -/
theorem arriveA_apply (st : Station) (n : StepId) (loopback : Bool) (s : State) (d : Nat)
    (h : (s.step n).kind = .apply d) :
    ∃ w fault, PlaneEvaluated st .a (arriveAt st n loopback s) w fault ∧
      arriveA st n loopback s = (if fault = none then .evalB else .over, w) := by
  obtain ⟨fault, h1, hb⟩ := planeEvaluated_writeOutcome st .a (arriveAt st n loopback s)
  refine ⟨_, fault, h1, ?_⟩
  have hk : ((arriveAt st n loopback s).run st).copy.kind = .apply d := by
    rw [(run_of_arrivesAt (arrivesAt_arriveAt st n loopback s)).1, h]
  have hp := Prod.ext (x := writeOutcome st .a (evalPlane st .a (arriveAt st n loopback s)))
    (y := (decide (fault ≠ none), (writeOutcome st .a (evalPlane st .a (arriveAt st n loopback s))).2)) hb rfl
  unfold arriveA
  dsimp only
  rw [hk]
  dsimp only
  rw [hp]
  cases fault <;> rfl

/-- R99, R107: an arrival at an APPLY step, no other call coming between. -/
theorem evaluated_arrive (st : Station) (n : StepId) (loopback : Bool) (s : State) (d : Nat)
    (h : (s.step n).kind = .apply d) : Evaluated st (arriveAt st n loopback s) (arrive st n loopback s) := by
  obtain ⟨w, fault, h1, h2⟩ := arriveA_apply st n loopback s d h
  refine ⟨w, fault, h1, fun hf => ?_, fun hf => ?_⟩
  · unfold arrive
    rw [h2, if_neg hf]
    rfl
  · unfold arrive
    rw [h2, if_pos hf]
    exact secondEvaluated_finishTurn st w

/-- R109: an arrival at a JUMP step makes no call and ends the turn. -/
theorem arriveA_jump (st : Station) (n : StepId) (loopback : Bool) (s : State) (t : StepId)
    (h : (s.step n).kind = .jump t) : arriveA st n loopback s = (.over, arrive st n loopback s) := by
  have hk : ((arriveAt st n loopback s).run st).copy.kind = .jump t := by
    rw [(run_of_arrivesAt (arrivesAt_arriveAt st n loopback s)).1, h]
  unfold arrive arriveA
  dsimp only
  rw [hk]
  rfl

/-- R109: what that arrival leaves. -/
theorem jumpEvaluated_arrive (st : Station) (n : StepId) (loopback : Bool) (s : State) (t : StepId)
    (h : (s.step n).kind = .jump t) : JumpEvaluated st t (arriveAt st n loopback s) (arrive st n loopback s) := by
  have hv := arrivesAt_arriveAt st n loopback s
  have hk : ((arriveAt st n loopback s).run st).copy.kind = .jump t := by
    rw [(run_of_arrivesAt hv).1, h]
  have he : arrive st n loopback s = settleUnlessFaulted st (evalJump st t (arriveAt st n loopback s)) := by
    unfold arrive arriveA
    dsimp only
    rw [hk]
    rfl
  obtain ⟨_, hs, hc, _⟩ := run_of_arrivesAt hv
  rw [he]
  generalize arriveAt st n loopback s = v at hs hc
  have hset : ∀ r : SeqRun, r.stalled = ⟨none, none⟩ → r.changes = [] →
      settleSeq st (v.setRun st r) = v.setRun st { r with state := .dwelling, dwell := 1 } := by
    intro r h1 h2
    have := (takesState_settleSeq st (v.setRun st r)).2.2 (by rw [run_setRun_self, h1]) (by rw [run_setRun_self, h2])
    rw [this, run_setRun_self, setRun_setRun]
  have hself : settleSeq st v = v.setRun st { v.run st with state := .dwelling, dwell := 1 } :=
    (takesState_settleSeq st v).2.2 hs hc
  unfold JumpEvaluated evalJump
  refine ⟨fun hh => ?_, fun hh => ?_⟩
  · have hb : (holds v st (v.run st).copy.cond .a && holds v st (v.run st).copy.cond .b) = true := by
      rw [hh.1, hh.2]
      rfl
    dsimp only
    rw [if_pos hb]
    refine ⟨fun hr => ?_, fun hr => ?_⟩
    · rw [if_pos ((inRegion_iff _ _).2 hr)]
      exact hset _ hs hc
    · rw [if_neg fun e => hr ((inRegion_iff _ _).1 e)]
      exact becameFaulted_faultSeq _ _ _ _
  · have hb : ¬ (holds v st (v.run st).copy.cond .a && holds v st (v.run st).copy.cond .b) = true := by
      rw [Bool.and_eq_true]
      exact hh
    dsimp only
    rw [if_neg hb]
    exact hself

/-! ## Retries (R85, R108) -/

/-- What the answer of a repeated call leaves; whether the sequencer faulted. -/
def retried (st : Station) (pl : Plane) : PlaneOutcome × State → Bool × State
  | (.applied, s) => (false, s.setRun st { s.run st with stalled := (s.run st).stalled.set pl none })
  | (.faulted why, s) => (true, faultSeq st (some pl) why s)
  | (.stalled _, s) | (.passed, s) => (false, s)

theorem retryPlane_route (st : Station) (pl : Plane) (s : State) (call : StalledCall) (r : RouteId)
    (hs : (s.run st).stalled.get pl = some call) (hf : (s.run st).copy.field pl = .route r) :
    retryPlane st pl s = retried st pl (askAgain st pl call r s) := by
  have each : ∀ x : PlaneOutcome × State,
      (match x with
        | (.applied, s1) => (false, s1.setRun st { s1.run st with stalled := (s1.run st).stalled.set pl none })
        | (.faulted why, s1) => (true, faultSeq st (some pl) why s1)
        | (_, s1) => (false, s1)) = retried st pl x := by
    rintro ⟨o, w⟩
    cases o <;> rfl
  unfold retryPlane askAgain
  dsimp only
  rw [hs, hf]
  cases call
  · exact each (askMake st pl r s)
  · exact each (askSwap st pl r s)

/-- R85, R108: one plane's retry, with the fault it gives, if any. -/
theorem planeRetried_retryPlane (st : Station) (pl : Plane) (s : State) :
    ∃ fault, PlaneRetried st pl s (retryPlane st pl s).2 fault ∧
      (retryPlane st pl s).1 = decide (fault ≠ none) := by
  unfold PlaneRetried
  have quiet : (∀ call r, (s.run st).stalled.get pl = some call → (s.run st).copy.field pl ≠ .route r) →
      retryPlane st pl s = (false, s) := by
    intro h
    unfold retryPlane
    dsimp only
    split
    · rename_i call r hs hf
      exact absurd hf (h _ _ hs)
    · rfl
  cases hs : (s.run st).stalled.get pl with
  | none =>
    rw [quiet fun _ _ h => by rw [hs] at h; cases h]
    exact ⟨none, ⟨fun _ => ⟨rfl, rfl⟩, fun _ _ h => (nomatch h)⟩, rfl⟩
  | some call =>
    cases hf : (s.run st).copy.field pl with
    | keep =>
      rw [quiet fun _ _ _ h => by rw [hf] at h; cases h]
      exact ⟨none, ⟨fun h => (nomatch h), fun _ _ _ h => (nomatch h)⟩, rfl⟩
    | clear =>
      rw [quiet fun _ _ _ h => by rw [hf] at h; cases h]
      exact ⟨none, ⟨fun h => (nomatch h), fun _ _ _ h => (nomatch h)⟩, rfl⟩
    | route r =>
      rw [retryPlane_route st pl s call r hs hf]
      have hk : ∀ x : PlaneOutcome × State, askAgain st pl call r s = x →
          ∃ fault,
            ((some call = none → fault = none ∧ (retried st pl x).2 = s) ∧
              ∀ call' r', some call = some call' → RouteField.route r = .route r' →
                ∀ o' x', askAgain st pl call' r' s = (o', x') →
                  (o' = .applied →
                    fault = none ∧
                      (retried st pl x).2 = x'.setRun st { x'.run st with stalled := (x'.run st).stalled.set pl none }) ∧
                  (∀ why, o' = .faulted why →
                    fault = some why ∧ BecameFaulted st (some pl) why x' (retried st pl x).2) ∧
                  (∀ c, o' = .stalled c → fault = none ∧ (retried st pl x).2 = x')) ∧
              (retried st pl x).1 = decide (fault ≠ none) := by
        intro x hx
        refine ⟨match x.1 with | .faulted why => some why | _ => none, ⟨fun h => (nomatch h), ?_⟩, ?_⟩
        · intro call' r' hc hr o' x' hx'
          cases hc
          cases hr
          rw [hx] at hx'
          subst hx'
          refine ⟨?_, ?_, ?_⟩
          · rintro rfl
            exact ⟨rfl, rfl⟩
          · rintro why rfl
            exact ⟨rfl, rfl⟩
          · rintro c rfl
            exact ⟨rfl, rfl⟩
        · obtain ⟨o, w⟩ := x
          cases o <;> rfl
      exact hk _ rfl

/-- R85: plane A of the retries. -/
theorem retryA_spec (st : Station) (s : State) :
    ∃ w fault, PlaneRetried st .a s w fault ∧ retryA st s = (if fault = none then .retryB else .over, w) := by
  obtain ⟨fault, h, hb⟩ := planeRetried_retryPlane st .a s
  refine ⟨_, fault, h, ?_⟩
  have hp := Prod.ext (x := retryPlane st .a s) (y := (decide (fault ≠ none), (retryPlane st .a s).2)) hb rfl
  unfold retryA
  rw [hp]
  cases fault <;> rfl

/-- R85: plane B of the retries, and the state taken. -/
theorem secondRetried_finishTurn (st : Station) (w : State) : SecondRetried st w (finishTurn st (.retryB, w)) := by
  obtain ⟨fault, h, hb⟩ := planeRetried_retryPlane st .b w
  have hp := Prod.ext (x := retryPlane st .b w) (y := (decide (fault ≠ none), (retryPlane st .b w).2)) hb rfl
  refine ⟨_, fault, h, fun hf => ?_, fun hf => ?_⟩
  · unfold finishTurn
    dsimp only
    rw [hp, decide_eq_true hf]
  · have he : finishTurn st (.retryB, w) = afterRetry st (retryPlane st .b w).2 := by
      unfold finishTurn
      dsimp only
      rw [hp, hf]
      rfl
    rw [he]
    generalize (retryPlane st .b w).2 = x
    unfold afterRetry
    dsimp only
    refine ⟨fun h => ?_, fun h hc => ?_, fun h hc => ?_⟩
    · rw [if_pos ((anyStalled_iff _).2 h)]
    · rw [if_neg fun e => (anyStalled_iff _).1 e h, if_neg (by simpa using hc)]
    · rw [if_neg fun e => (anyStalled_iff _).1 e h, hc]
      rfl

/-! ## The end of a step (R88, R89) -/

/-- The state in which a step's end, its next index found, arrives. -/
def leaving (st : Station) (test : NextTest) (r : SeqRun) (s : State) : State :=
  if test = .advance true then (s.setRun st r).raise (wrapEvent st) else s.setRun st r

/-- R89: a step's end that arrives at the next step, up to plane A's answer. -/
theorem endStepA_arrives (st : Station) (s : State) (n : StepId) (test : NextTest) (r : SeqRun)
    (h : nextIndex (s.seqCfg st) (s.run st) = (n, test, r)) (hs : (s.seqCfg st).stop ≠ some n) (hh : r.copy.hold = false) :
    endStepA st s = arriveA st n (decide (test = .loopback)) (leaving st test r s) := by
  unfold endStepA leaving
  rw [h]
  dsimp only
  rw [if_neg hs, if_neg (by rw [hh]; simp)]

theorem endStep_arrives (st : Station) (s : State) (n : StepId) (test : NextTest) (r : SeqRun)
    (h : nextIndex (s.seqCfg st) (s.run st) = (n, test, r)) (hs : (s.seqCfg st).stop ≠ some n) (hh : r.copy.hold = false) :
    endStep st s = arrive st n (decide (test = .loopback)) (leaving st test r s) := by
  unfold endStep arrive
  rw [endStepA_arrives st s n test r h hs hh]

end Sys2Proof.Machine
end

