-- ==== Sys2Proof/Laws/Paths.lean ====
section
/-! SUPPORT. What the operations of the Path Set leave in the banks, the paths and the queue: one lemma per operation
and record, each true for every slot or bank. -/

namespace Sys2Proof.Machine

theorem path_of_paths (s t : State) (h : t.paths = s.paths) (q : Slot) : t.path q = s.path q := by
  unfold State.path
  rw [h]

theorem bank_of_banks (s t : State) (h : t.banks = s.banks) (b : BankId) : t.bank b = s.bank b := by
  unfold State.bank
  rw [h]

/-! ## placeMake (R24) -/

theorem bank_placeMake (s : State) (st : Station) (org : ChangeOrigin) (r : RouteId) (p : Slot) (b : BankId) :
    (placeMake s st org r p).bank b =
      if (s.route r).legs.any (fun l => decide (l.bank = b)) then reservedBank p (s.bank b) else s.bank b := by
  unfold placeMake State.bank
  simp only [banks_setQueue, banks_setPath]
  exact vector_get_ofFn _ b

theorem path_placeMake (s : State) (st : Station) (org : ChangeOrigin) (r : RouteId) (p q : Slot) :
    (placeMake s st org r p).path q = if q = p then formingPath r st (pathOriginOf org) 0 else s.path q := by
  unfold placeMake State.path
  simp only [paths_setQueue]
  unfold State.setPath
  simp only [vector_get_set, paths_mapBanks]

theorem queue_placeMake (s : State) (st : Station) (org : ChangeOrigin) (r : RouteId) (p : Slot) :
    (placeMake s st org r p).queue =
      s.queue ++
        [{ kind := .makeChange, old := none, new := some p, plane := (s.route r).plane, origin := org, active := false,
           plan := makePlan (s.route r).legs }] := by
  unfold placeMake
  simp only [State.setQueue, queue_setPath, queue_mapBanks]

theorem frame_placeMake (s : State) (st : Station) (org : ChangeOrigin) (r : RouteId) (p : Slot) :
    placeMake s st org r p =
      { s with
        banks := (placeMake s st org r p).banks, paths := (placeMake s st org r p).paths
        queue := (placeMake s st org r p).queue } := by
  simp only [placeMake, State.setQueue, State.setPath, State.mapBanks]

/-! ## placeSwap (R27) -/

theorem bank_placeSwap (s : State) (st : Station) (org : ChangeOrigin) (o : Slot) (r : RouteId) (p : Slot)
    (b : BankId) :
    (placeSwap s st org o r p).bank b =
      if (s.route r).legs.any (fun l => decide (l.bank = b)) then
        (if (s.slotLegs o).any (fun l => decide (l.bank = b)) then { s.bank b with holder := some p }
         else reservedBank p (s.bank b))
      else s.bank b := by
  unfold placeSwap State.bank
  simp only [banks_setQueue, banks_setPath]
  exact vector_get_ofFn _ b

theorem path_placeSwap (s : State) (st : Station) (org : ChangeOrigin) (o : Slot) (r : RouteId) (p q : Slot) :
    (placeSwap s st org o r p).path q =
      if q = p then
        formingPath r st (pathOriginOf org) ((s.route r).legs.countP fun l => retainedLeg (s.slotLegs o) l)
      else if q = o then
        { s.path o with
          state := .closing, prior := priorOf (s.path o).state, priorLegs := (s.path o).legsDone, settleTimer := none
          legsDone := (s.slotLegs o).countP fun l => (s.route r).legs.any fun k => decide (k.bank = l.bank) }
      else s.path q := by
  unfold placeSwap State.path
  simp only [paths_setQueue]
  unfold State.setPath
  simp only [vector_get_set, paths_mapBanks]

theorem queue_placeSwap (s : State) (st : Station) (org : ChangeOrigin) (o : Slot) (r : RouteId) (p : Slot) :
    (placeSwap s st org o r p).queue =
      s.queue ++
        [{ kind := .swapChange, old := some o, new := some p, plane := (s.route r).plane, origin := org,
           active := false, plan := swapPlan (s.slotLegs o) (s.route r).legs }] := by
  unfold placeSwap
  simp only [State.setQueue, queue_setPath, queue_mapBanks]

theorem frame_placeSwap (s : State) (st : Station) (org : ChangeOrigin) (o : Slot) (r : RouteId) (p : Slot) :
    placeSwap s st org o r p =
      { s with
        banks := (placeSwap s st org o r p).banks, paths := (placeSwap s st org o r p).paths
        queue := (placeSwap s st org o r p).queue } := by
  simp only [placeSwap, State.setQueue, State.setPath, State.mapBanks]

/-! ## acceptBreak (R28) -/

theorem path_acceptBreak (p : Slot) (org : ChangeOrigin) (x : Option PriorState) (s : State) (q : Slot) :
    (acceptBreak p org x s).path q =
      if q = p then
        { s.path p with
          state := .closing, prior := x, priorLegs := (s.path p).legsDone, settleTimer := none, closeOwed := false
          closeOwedCause := none, legsDone := s.legsReleased p }
      else s.path q :=
  path_setPath s p q _

theorem queue_acceptBreak (p : Slot) (org : ChangeOrigin) (x : Option PriorState) (s : State) :
    (acceptBreak p org x s).queue =
      s.queue ++
        [{ kind := .breakChange, old := some p, new := none, plane := s.slotPlane p, origin := org, active := false,
           plan := breakPlan (s.heldBanks p) }] := rfl

theorem frame_acceptBreak (p : Slot) (org : ChangeOrigin) (x : Option PriorState) (s : State) :
    acceptBreak p org x s =
      { s with paths := (acceptBreak p org x s).paths, queue := (acceptBreak p org x s).queue } := rfl

/-! ## freeSlot (R38) -/

theorem bank_freeSlot (p : Slot) (s : State) (b : BankId) :
    (freeSlot p s).bank b =
      if (s.bank b).holder = some p then { s.bank b with holder := none } else s.bank b := by
  unfold freeSlot State.bank
  simp only [banks_raise, banks_setRun, banks_setPath]
  exact vector_get_ofFn _ b

theorem path_freeSlot (p : Slot) (s : State) (q : Slot) :
    (freeSlot p s).path q = if q = p then PathRecord.free else s.path q := by
  unfold freeSlot State.path
  simp only [paths_raise, paths_setRun]
  unfold State.setPath
  simp only [vector_get_set, paths_mapBanks]

end Sys2Proof.Machine
end

