-- ==== Sys2Proof/Laws/Raised.lean ====
section
/-! SUPPORT. Event flags stay set: every shared operation but the clearing of NODE_RESET and CLEAR_EVENTS keeps each flag
that is set (R166). One lemma per operation. -/

namespace Sys2Proof.Machine

theorem flagSet_raise_self (s : State) (ev : Event) : (s.raise ev).flagSet ev = true := by
  cases ev <;> simp [State.raise, State.flagSet, Event.mask, Event.bit]

@[simp] theorem flagSet_raise (s : State) (ev e : Event) (h : s.flagSet ev = true) : (s.raise e).flagSet ev = true := by
  unfold State.flagSet at h
  simp [State.raise, State.flagSet, h]

@[simp] theorem flagSet_setBank (s : State) (ev : Event) (b : BankId) (x : BankRecord) : (s.setBank b x).flagSet ev = s.flagSet ev := rfl

@[simp] theorem flagSet_recordPosition (s : State) (ev : Event) (b : BankId) (x : Position) : (s.recordPosition b x).flagSet ev = s.flagSet ev := rfl

@[simp] theorem flagSet_setHolder (s : State) (ev : Event) (b : BankId) (x : Option Slot) : (s.setHolder b x).flagSet ev = s.flagSet ev := rfl

@[simp] theorem flagSet_setHomeOwed (s : State) (ev : Event) (b : BankId) (x : Bool) : (s.setHomeOwed b x).flagSet ev = s.flagSet ev := rfl

@[simp] theorem flagSet_setPath (s : State) (ev : Event) (p : Slot) (x : PathRecord) : (s.setPath p x).flagSet ev = s.flagSet ev := rfl

@[simp] theorem flagSet_setTracker (s : State) (ev : Event) (p : Plane) (x : Tracker) : (s.setTracker p x).flagSet ev = s.flagSet ev := rfl

@[simp] theorem flagSet_setDriver (s : State) (ev : Event) (p : Plane) (x : Driver) : (s.setDriver p x).flagSet ev = s.flagSet ev := rfl

@[simp] theorem flagSet_setQueue (s : State) (ev : Event) (x : List Entry) : (s.setQueue x).flagSet ev = s.flagSet ev := rfl

@[simp] theorem flagSet_setSup (s : State) (ev : Event) (x : Supervision) : (s.setSup x).flagSet ev = s.flagSet ev := rfl

@[simp] theorem flagSet_setSafe (s : State) (ev : Event) (x : SafeController) : (s.setSafe x).flagSet ev = s.flagSet ev := rfl

@[simp] theorem flagSet_setCounter (s : State) (ev : Event) (b : BankId) (k : FaultKind) (n : Nat) : (s.setCounter b k n).flagSet ev = s.flagSet ev := rfl

@[simp] theorem flagSet_setFaults (s : State) (ev : Event) (b : BankId) (x : KindSet) : (s.setFaults b x).flagSet ev = s.flagSet ev := rfl

@[simp] theorem flagSet_redraw (s : State) (ev : Event) : (s.redraw).flagSet ev = s.flagSet ev := rfl

@[simp] theorem flagSet_mapBanks (s : State) (ev : Event) (f : BankId → BankRecord → BankRecord) :
    (s.mapBanks f).flagSet ev = s.flagSet ev := by
  unfold State.flagSet
  rw [events_mapBanks]

@[simp] theorem flagSet_setRun (s : State) (ev : Event) (st : Station) (r : SeqRun) :
    (s.setRun st r).flagSet ev = s.flagSet ev := by
  cases st <;> rfl

theorem flagSet_foldl {α : Type} (ev : Event) (f : State → α → State)
    (hf : ∀ s a, s.flagSet ev = true → (f s a).flagSet ev = true) (as : List α) (s : State) (h : s.flagSet ev = true) :
    (as.foldl f s).flagSet ev = true := by
  induction as generalizing s with
  | nil => exact h
  | cons a as ih => exact ih _ (hf s a h)

theorem flagSet_eachPlane (ev : Event) (f : Plane → State → State)
    (hf : ∀ p s, s.flagSet ev = true → (f p s).flagSet ev = true) (s : State) (h : s.flagSet ev = true) :
    (eachPlane f s).flagSet ev = true := by
  have h0 : s.redraw.flagSet ev = true := h
  unfold eachPlane
  split
  · exact hf _ _ (hf _ _ h0)
  · exact hf _ _ (hf _ _ h0)

@[simp] theorem flagSet_freeSlot (s : State) (ev : Event) (p : Slot) (h : s.flagSet ev = true) :
    ((freeSlot p s)).flagSet ev = true := by
  simp (maxDischargeDepth := 40) [h, freeSlot]

@[simp] theorem flagSet_placeMake (s : State) (ev : Event) (st : Station) (org : ChangeOrigin) (r : RouteId) (p : Slot) (h : s.flagSet ev = true) :
    ((placeMake s st org r p)).flagSet ev = true := by
  simp (maxDischargeDepth := 40) [h, placeMake]

@[simp] theorem flagSet_placeSwap (s : State) (ev : Event) (st : Station) (org : ChangeOrigin) (o : Slot) (r : RouteId) (p : Slot) (h : s.flagSet ev = true) :
    ((placeSwap s st org o r p)).flagSet ev = true := by
  simp (maxDischargeDepth := 40) [h, placeSwap]

@[simp] theorem flagSet_acceptBreak (s : State) (ev : Event) (p : Slot) (org : ChangeOrigin) (x : Option PriorState) (h : s.flagSet ev = true) :
    ((acceptBreak p org x s)).flagSet ev = true := by
  simp (maxDischargeDepth := 40) [h, acceptBreak]

@[simp] theorem flagSet_goLive (s : State) (ev : Event) (p : Slot) (h : s.flagSet ev = true) :
    ((goLive p s)).flagSet ev = true := by
  simp (maxDischargeDepth := 40) [h, goLive]

@[simp] theorem flagSet_startSettling (s : State) (ev : Event) (p : Slot) (h : s.flagSet ev = true) :
    ((startSettling p s)).flagSet ev = true := by
  unfold startSettling
  split <;> simp (maxDischargeDepth := 40) [h]

@[simp] theorem flagSet_failSlot (s : State) (ev : Event) (p : Slot) (why : FailReason) (h : s.flagSet ev = true) :
    ((failSlot p why s)).flagSet ev = true := by
  unfold failSlot
  simp only
  split <;> simp (maxDischargeDepth := 40) [h]

@[simp] theorem flagSet_notifyEnded (s : State) (ev : Event) (e : Entry) (c : Bool) (h : s.flagSet ev = true) :
    ((notifyEnded e c s)).flagSet ev = true := by
  unfold notifyEnded
  split <;> simp (maxDischargeDepth := 40) [h]

@[simp] theorem flagSet_clearHeld (s : State) (ev : Event) (pl : Plane) (h : s.flagSet ev = true) :
    ((clearHeld pl s)).flagSet ev = true := by
  simp (maxDischargeDepth := 40) [h, clearHeld]

@[simp] theorem flagSet_removeEntry (s : State) (ev : Event) (e : Entry) (h : s.flagSet ev = true) :
    ((removeEntry e s)).flagSet ev = true := by
  unfold removeEntry
  split <;> simp (maxDischargeDepth := 40) [h]

@[simp] theorem flagSet_applyCloseOwed (s : State) (ev : Event) (p : Slot) (h : s.flagSet ev = true) :
    ((applyCloseOwed p s)).flagSet ev = true := by
  unfold applyCloseOwed
  simp only
  split <;> simp (maxDischargeDepth := 40) [h]

@[simp] theorem flagSet_settleFormed (s : State) (ev : Event) (p : Slot) (h : s.flagSet ev = true) :
    ((settleFormed p s)).flagSet ev = true := by
  unfold settleFormed
  simp only
  split <;> simp (maxDischargeDepth := 40) [h]

@[simp] theorem flagSet_freeOpt (s : State) (ev : Event) (p : Option Slot) (h : s.flagSet ev = true) :
    ((freeOpt p s)).flagSet ev = true := by
  unfold freeOpt
  split <;> simp (maxDischargeDepth := 40) [h]

@[simp] theorem flagSet_completeEntry (s : State) (ev : Event) (e : Entry) (h : s.flagSet ev = true) :
    ((completeEntry e s)).flagSet ev = true := by
  unfold completeEntry
  split <;> simp (maxDischargeDepth := 40) [h]

@[simp] theorem flagSet_failPaths (s : State) (ev : Event) (e : Entry) (h : s.flagSet ev = true) :
    ((failPaths e s)).flagSet ev = true := by
  unfold failPaths
  repeat' split
  all_goals simp (maxDischargeDepth := 40) [h]

@[simp] theorem flagSet_recordFailure (s : State) (ev : Event) (e : Entry) (why : EntryFailure) (b : Option BankId)
    (r : Option RouteId) (h : s.flagSet ev = true) : (recordFailure e why b r s).flagSet ev = true := by
  unfold recordFailure
  exact flagSet_raise _ _ _ h

@[simp] theorem flagSet_failEntry (s : State) (ev : Event) (e : Entry) (why : EntryFailure) (b : Option BankId) (h : s.flagSet ev = true) :
    ((failEntry e why b s)).flagSet ev = true := by
  unfold failEntry
  split <;> simp (maxDischargeDepth := 40) [h]

@[simp] theorem flagSet_returnBanks (s : State) (ev : Event) (o n : Slot) (h : s.flagSet ev = true) :
    ((returnBanks o n s)).flagSet ev = true := by
  simp (maxDischargeDepth := 40) [h, returnBanks]

@[simp] theorem flagSet_undoAcceptance (s : State) (ev : Event) (e : Entry) (h : s.flagSet ev = true) :
    ((undoAcceptance e s)).flagSet ev = true := by
  unfold undoAcceptance
  split <;> simp (maxDischargeDepth := 40) [h]

@[simp] theorem flagSet_cancelEntry (s : State) (ev : Event) (e : Entry) (h : s.flagSet ev = true) :
    ((cancelEntry e s)).flagSet ev = true := by
  simp (maxDischargeDepth := 40) [h, cancelEntry]

@[simp] theorem flagSet_cancelAll (s : State) (ev : Event) (es : List Entry) (h : s.flagSet ev = true) :
    (cancelAll es s).flagSet ev = true :=
  flagSet_foldl ev _ (fun s e => flagSet_cancelEntry s ev e) es s h

@[simp] theorem flagSet_convertSwap (s : State) (ev : Event) (e : Entry) (o n : Slot) (h : s.flagSet ev = true) :
    ((convertSwap e o n s)).flagSet ev = true := by
  unfold convertSwap
  simp only
  repeat' split
  all_goals simp (maxDischargeDepth := 40) [h]

@[simp] theorem flagSet_failIdleHead (s : State) (ev : Event) (pl : Plane) (h : s.flagSet ev = true) :
    ((failIdleHead pl s)).flagSet ev = true := by
  unfold failIdleHead
  repeat' split
  all_goals simp (maxDischargeDepth := 40) [h]

@[simp] theorem flagSet_enterGrace (s : State) (ev : Event) (h : s.flagSet ev = true) : (enterGrace s).flagSet ev = true := by
  unfold enterGrace
  apply flagSet_eachPlane ev _ (fun p s => flagSet_failIdleHead s ev p)
  simp (maxDischargeDepth := 40) [h]

@[simp] theorem flagSet_addCause (s : State) (ev : Event) (c : SafeCause) (h : s.flagSet ev = true) :
    ((addCause c s)).flagSet ev = true := by
  unfold addCause
  split <;> simp (maxDischargeDepth := 40) [h]

@[simp] theorem flagSet_removeCause (s : State) (ev : Event) (c : SafeCause) (h : s.flagSet ev = true) :
    ((removeCause c s)).flagSet ev = true := by
  simp (maxDischargeDepth := 40) [h, removeCause]

@[simp] theorem flagSet_failHolder (s : State) (ev : Event) (b : BankId) (k : FaultKind) (h : s.flagSet ev = true) :
    ((failHolder b k s)).flagSet ev = true := by
  unfold failHolder
  simp only
  repeat' split
  all_goals simp (maxDischargeDepth := 40) [h]

@[simp] theorem flagSet_becomeValid (s : State) (ev : Event) (b : BankId) (k : FaultKind) (h : s.flagSet ev = true) :
    ((becomeValid b k s)).flagSet ev = true := by
  unfold becomeValid
  simp only
  split <;> simp (maxDischargeDepth := 40) [h]

@[simp] theorem flagSet_takePass (s : State) (ev : Event) (b : BankId) (k : FaultKind) (h : s.flagSet ev = true) :
    ((takePass b k s)).flagSet ev = true := by
  unfold takePass
  split <;> simp (maxDischargeDepth := 40) [h]

@[simp] theorem flagSet_takeMiss (s : State) (ev : Event) (b : BankId) (k : FaultKind) (h : s.flagSet ev = true) :
    ((takeMiss b k s)).flagSet ev = true := by
  unfold takeMiss
  simp only
  repeat' split
  all_goals simp (maxDischargeDepth := 40) [h]

@[simp] theorem flagSet_reportWorn (s : State) (ev : Event) (b : BankId) (h : s.flagSet ev = true) :
    ((reportWorn b s)).flagSet ev = true := by
  unfold reportWorn
  split <;> simp (maxDischargeDepth := 40) [h]

@[simp] theorem flagSet_updateEntry (s : State) (ev : Event) (e e' : Entry) (h : s.flagSet ev = true) :
    ((updateEntry e e' s)).flagSet ev = true := by
  simp (maxDischargeDepth := 40) [h, updateEntry]

@[simp] theorem flagSet_addLegDone (s : State) (ev : Event) (p : Slot) (h : s.flagSet ev = true) :
    ((addLegDone p s)).flagSet ev = true := by
  simp (maxDischargeDepth := 40) [h, addLegDone]

@[simp] theorem flagSet_afterLeg (s : State) (ev : Event) (e : Entry) (h : s.flagSet ev = true) :
    ((afterLeg e s)).flagSet ev = true := by
  unfold afterLeg
  repeat' split
  all_goals simp (maxDischargeDepth := 40) [h]

@[simp] theorem flagSet_endLeg (s : State) (ev : Event) (e : Entry) (l : PlanLeg) (h : s.flagSet ev = true) :
    ((endLeg e l s)).flagSet ev = true := by
  unfold endLeg
  split <;> simp (maxDischargeDepth := 40) [h]

@[simp] theorem flagSet_deferHot (s : State) (ev : Event) (b : BankId) (h : s.flagSet ev = true) :
    ((deferHot b s)).flagSet ev = true := by
  simp (maxDischargeDepth := 40) [h, deferHot]

@[simp] theorem flagSet_holdLeg (s : State) (ev : Event) (pl : Plane) (l : PlanLeg) (w : WaitReason) (h : s.flagSet ev = true) :
    ((holdLeg pl l w s)).flagSet ev = true := by
  simp (maxDischargeDepth := 40) [h, holdLeg]

@[simp] theorem flagSet_passHome (s : State) (ev : Event) (pl : Plane) (b : BankId) (h : s.flagSet ev = true) :
    ((passHome pl b s)).flagSet ev = true := by
  simp (maxDischargeDepth := 40) [h, passHome]

@[simp] theorem flagSet_startLeg (s : State) (ev : Event) (pl : Plane) (l : FlightLeg) (h : s.flagSet ev = true) :
    ((startLeg pl l s)).flagSet ev = true := by
  unfold startLeg
  split <;> simp (maxDischargeDepth := 40) [h]

@[simp] theorem flagSet_startEntryLeg (s : State) (ev : Event) (pl : Plane) (e : Entry) (l : PlanLeg) (h : s.flagSet ev = true) :
    ((startEntryLeg pl e l s)).flagSet ev = true := by
  unfold startEntryLeg
  split <;> simp (maxDischargeDepth := 40) [h]

@[simp] theorem flagSet_meetHot (s : State) (ev : Event) (pl : Plane) (e : Entry) (l : PlanLeg) (h : s.flagSet ev = true) :
    (((meetHot pl e l s).2)).flagSet ev = true := by
  unfold meetHot
  simp only
  repeat' split
  all_goals simp (maxDischargeDepth := 40) [h]

@[simp] theorem flagSet_checkLeg (s : State) (ev : Event) (pl : Plane) (e : Entry) (l : PlanLeg) (h : s.flagSet ev = true) :
    (((checkLeg pl e l s).2)).flagSet ev = true := by
  unfold checkLeg
  repeat' split
  all_goals simp (maxDischargeDepth := 40) [h]

@[simp] theorem flagSet_takeLeg (s : State) (ev : Event) (pl : Plane) (e : Entry) (l : PlanLeg) (h : s.flagSet ev = true) :
    (((takeLeg pl e l s).2)).flagSet ev = true := by
  unfold takeLeg
  repeat' split
  all_goals simp (maxDischargeDepth := 40) [h]

@[simp] theorem flagSet_takeEntry (s : State) (ev : Event) (pl : Plane) (e : Entry) (h : s.flagSet ev = true) :
    (((takeEntry pl e s).2)).flagSet ev = true := by
  unfold takeEntry
  split <;> simp (maxDischargeDepth := 40) [h]

@[simp] theorem flagSet_takeHome (s : State) (ev : Event) (pl : Plane) (b : BankId) (h : s.flagSet ev = true) :
    (((takeHome pl b s).2)).flagSet ev = true := by
  unfold takeHome
  repeat' split
  all_goals simp (maxDischargeDepth := 40) [h]

@[simp] theorem flagSet_chooseOnce (s : State) (ev : Event) (pl : Plane) (h : s.flagSet ev = true) :
    (((chooseOnce pl s).2)).flagSet ev = true := by
  unfold chooseOnce
  repeat' split
  all_goals simp (maxDischargeDepth := 40) [h]

@[simp] theorem flagSet_chooseLoop (s : State) (ev : Event) (pl : Plane) (n : Nat) (h : s.flagSet ev = true) :
    (chooseLoop pl n s).flagSet ev = true := by
  induction n generalizing s with
  | zero => exact h
  | succ n ih =>
    unfold chooseLoop
    split
    · have h1 := flagSet_chooseOnce s ev pl h
      split <;> simp_all
    · exact h

@[simp] theorem flagSet_choosePlane (s : State) (ev : Event) (pl : Plane) (h : s.flagSet ev = true) :
    ((choosePlane pl s)).flagSet ev = true := by
  simp (maxDischargeDepth := 40) [h, choosePlane]

@[simp] theorem flagSet_chooseBoth (s : State) (ev : Event) (h : s.flagSet ev = true) : (chooseBoth s).flagSet ev = true := by
  unfold chooseBoth
  split
  · exact flagSet_eachPlane ev _ (fun p s => flagSet_choosePlane s ev p) s h
  · simp (maxDischargeDepth := 40) [h]

@[simp] theorem flagSet_closeForced (s : State) (ev : Event) (p : Slot) (h : s.flagSet ev = true) :
    ((closeForced p s)).flagSet ev = true := by
  unfold closeForced
  simp only
  split <;> simp (maxDischargeDepth := 40) [h]

@[simp] theorem flagSet_endForcedBreak (s : State) (ev : Event) (p : Slot) (b : BankId) (h : s.flagSet ev = true) :
    ((endForcedBreak p b s)).flagSet ev = true := by
  unfold endForcedBreak
  simp only
  repeat' split
  all_goals simp (maxDischargeDepth := 40) [h]

@[simp] theorem flagSet_takeForcedBreak (s : State) (ev : Event) (pl : Plane) (p : Slot) (b : BankId) (h : s.flagSet ev = true) :
    (((takeForcedBreak pl p b s).2)).flagSet ev = true := by
  unfold takeForcedBreak
  repeat' split
  all_goals simp (maxDischargeDepth := 40) [h]

@[simp] theorem flagSet_forcedOnce (s : State) (ev : Event) (pl : Plane) (h : s.flagSet ev = true) :
    (((forcedOnce pl s).2)).flagSet ev = true := by
  unfold forcedOnce
  simp only
  repeat' split
  all_goals simp (maxDischargeDepth := 40) [h]

@[simp] theorem flagSet_forcedLoop (s : State) (ev : Event) (pl : Plane) (n : Nat) (h : s.flagSet ev = true) :
    (forcedLoop pl n s).flagSet ev = true := by
  induction n generalizing s with
  | zero => exact h
  | succ n ih =>
    unfold forcedLoop
    have h1 := flagSet_forcedOnce s ev pl h
    split <;> simp_all

@[simp] theorem flagSet_workForced (s : State) (ev : Event) (pl : Plane) (h : s.flagSet ev = true) :
    ((workForced pl s)).flagSet ev = true := by
  unfold workForced
  simp only
  repeat' split
  all_goals simp (maxDischargeDepth := 40) [h]

@[simp] theorem flagSet_owedInSafe (s : State) (ev : Event) (h : s.flagSet ev = true) :
    ((owedInSafe s)).flagSet ev = true := by
  unfold owedInSafe
  split <;> simp (maxDischargeDepth := 40) [h]

@[simp] theorem flagSet_endDrive (s : State) (ev : Event) (pl : Plane) (h : s.flagSet ev = true) :
    ((endDrive pl s)).flagSet ev = true := by
  unfold endDrive
  simp only
  repeat' split
  all_goals simp (maxDischargeDepth := 40) [h]

@[simp] theorem flagSet_restDriver (s : State) (ev : Event) (pl : Plane) (h : s.flagSet ev = true) :
    ((restDriver pl s)).flagSet ev = true := by
  simp (maxDischargeDepth := 40) [h, restDriver]

@[simp] theorem flagSet_recordMatch (s : State) (ev : Event) (l : FlightLeg) (h : s.flagSet ev = true) :
    ((recordMatch l s)).flagSet ev = true := by
  simp (maxDischargeDepth := 40) [h, recordMatch]

@[simp] theorem flagSet_failSafeHead (s : State) (ev : Event) (pl : Plane) (b : BankId) (h : s.flagSet ev = true) :
    ((failSafeHead pl b s)).flagSet ev = true := by
  unfold failSafeHead
  repeat' split
  all_goals simp (maxDischargeDepth := 40) [h]

@[simp] theorem flagSet_endMatched (s : State) (ev : Event) (pl : Plane) (l : FlightLeg) (h : s.flagSet ev = true) :
    ((endMatched pl l s)).flagSet ev = true := by
  unfold endMatched
  repeat' split
  all_goals simp (maxDischargeDepth := 40) [h]

@[simp] theorem flagSet_endMismatched (s : State) (ev : Event) (pl : Plane) (l : FlightLeg) (h : s.flagSet ev = true) :
    ((endMismatched pl l s)).flagSet ev = true := by
  unfold endMismatched
  repeat' split
  all_goals simp (maxDischargeDepth := 40) [h]

@[simp] theorem flagSet_openWindow (s : State) (ev : Event) (tag : Byte) (n : Nat) (pl : Plane) (h : s.flagSet ev = true) :
    ((openWindow tag n pl s)).flagSet ev = true := by
  unfold openWindow
  simp only
  split <;> simp (maxDischargeDepth := 40) [h]

@[simp] theorem flagSet_noteOverrun (s : State) (ev : Event) (pl : Plane) (h : s.flagSet ev = true) :
    (noteOverrun pl s).flagSet ev = true := by
  unfold noteOverrun
  simp only
  split
  · split
    · exact flagSet_raise _ _ _ h
    · exact h
  · exact h

@[simp] theorem flagSet_closeWindow (s : State) (ev : Event) (pl : Plane) (h : s.flagSet ev = true) :
    ((closeWindow pl s)).flagSet ev = true := by
  simp (maxDischargeDepth := 40) [h, closeWindow]

@[simp] theorem flagSet_shutWindow (s : State) (ev : Event) (tag : Byte) (pl : Plane) (h : s.flagSet ev = true) :
    ((shutWindow tag pl s)).flagSet ev = true := by
  unfold shutWindow
  simp only
  split <;> simp (maxDischargeDepth := 40) [h]

@[simp] theorem flagSet_faultSeq (s : State) (ev : Event) (st : Station) (pl : Option Plane) (why : SeqFaultReason) (h : s.flagSet ev = true) :
    ((faultSeq st pl why s)).flagSet ev = true := by
  simp (maxDischargeDepth := 40) [h, faultSeq]

@[simp] theorem flagSet_takeAccepted (s : State) (ev : Event) (st : Station) (pl : Plane) (o n : Option Slot) (h : s.flagSet ev = true) :
    ((takeAccepted st pl o n s)).flagSet ev = true := by
  simp (maxDischargeDepth := 40) [h, takeAccepted]

theorem flagSet_acceptMake (s s' : State) (ev : Event) (st : Station) (org : ChangeOrigin) (r : RouteId) (p : Slot)
    (h : s.flagSet ev = true) (hs : acceptMake s st org r = .ok (p, s')) : s'.flagSet ev = true := by
  unfold acceptMake at hs
  split at hs
  · cases hs
  · split at hs
    · cases hs
    · cases hs; simp (maxDischargeDepth := 40) [h]

theorem flagSet_acceptSwap (s s' : State) (ev : Event) (st : Station) (org : ChangeOrigin) (o : Slot) (r : RouteId)
    (p : Slot) (h : s.flagSet ev = true) (hs : acceptSwap s st org o r = .ok (p, s')) : s'.flagSet ev = true := by
  unfold acceptSwap at hs
  split at hs
  · cases hs
  · split at hs
    · cases hs
    · split at hs
      · cases hs
      · cases hs; simp (maxDischargeDepth := 40) [h]

@[simp] theorem flagSet_askMake (s : State) (ev : Event) (st : Station) (pl : Plane) (r : RouteId) (h : s.flagSet ev = true) :
    ((askMake st pl r s).2).flagSet ev = true := by
  unfold askMake
  split
  · rename_i hs; exact flagSet_takeAccepted _ ev _ _ _ _ (flagSet_acceptMake s _ ev st _ r _ h hs)
  · exact h

@[simp] theorem flagSet_askSwap (s : State) (ev : Event) (st : Station) (pl : Plane) (r : RouteId) (h : s.flagSet ev = true) :
    ((askSwap st pl r s).2).flagSet ev = true := by
  unfold askSwap
  split
  · exact h
  · split
    · rename_i hs; exact flagSet_takeAccepted _ ev _ _ _ _ (flagSet_acceptSwap s _ ev st _ _ r _ h hs)
    · exact h

@[simp] theorem flagSet_askBreak (s : State) (ev : Event) (st : Station) (pl : Plane) (o : Slot) (h : s.flagSet ev = true) :
    (((askBreak st pl o s).2)).flagSet ev = true := by
  simp (maxDischargeDepth := 40) [h, askBreak]

@[simp] theorem flagSet_evalRoute (s : State) (ev : Event) (st : Station) (pl : Plane) (r : RouteId) (h : s.flagSet ev = true) :
    (((evalRoute st pl r s).2)).flagSet ev = true := by
  unfold evalRoute
  repeat' split
  all_goals simp (maxDischargeDepth := 40) [h]

@[simp] theorem flagSet_evalClear (s : State) (ev : Event) (st : Station) (pl : Plane) (h : s.flagSet ev = true) :
    (((evalClear st pl s).2)).flagSet ev = true := by
  unfold evalClear
  repeat' split
  all_goals simp (maxDischargeDepth := 40) [h]

@[simp] theorem flagSet_evalPlane (s : State) (ev : Event) (st : Station) (pl : Plane) (h : s.flagSet ev = true) :
    (((evalPlane st pl s).2)).flagSet ev = true := by
  unfold evalPlane
  simp only
  repeat' split
  all_goals simp (maxDischargeDepth := 40) [h]

theorem flagSet_writeOutcome (st : Station) (ev : Event) (pl : Plane) (y : PlaneOutcome × State)
    (h : y.2.flagSet ev = true) : (writeOutcome st pl y).2.flagSet ev = true := by
  obtain ⟨o, s⟩ := y
  cases o <;> simp_all [writeOutcome]

@[simp] theorem flagSet_evalJump (s : State) (ev : Event) (st : Station) (n : StepId) (h : s.flagSet ev = true) :
    (((evalJump st n s).2)).flagSet ev = true := by
  unfold evalJump
  simp only
  repeat' split
  all_goals simp (maxDischargeDepth := 40) [h]

@[simp] theorem flagSet_settleSeq (s : State) (ev : Event) (st : Station) (h : s.flagSet ev = true) :
    ((settleSeq st s)).flagSet ev = true := by
  unfold settleSeq
  simp only
  repeat' split
  all_goals simp (maxDischargeDepth := 40) [h]

@[simp] theorem flagSet_arriveAt (s : State) (ev : Event) (st : Station) (n : StepId) (lb : Bool) (h : s.flagSet ev = true) :
    ((arriveAt st n lb s)).flagSet ev = true := by
  unfold arriveAt
  simp only
  split <;> simp (maxDischargeDepth := 40) [h]

@[simp] theorem flagSet_settleUnlessFaulted (st : Station) (ev : Event) (y : Bool × State) (h : y.2.flagSet ev = true) :
    (settleUnlessFaulted st y).flagSet ev = true := by
  obtain ⟨b, s⟩ := y
  cases b
  · exact flagSet_settleSeq s ev st h
  · exact h

@[simp] theorem flagSet_arriveA (s : State) (ev : Event) (st : Station) (n : StepId) (lb : Bool) (h : s.flagSet ev = true) :
    ((arriveA st n lb s).2).flagSet ev = true := by
  have h0 := flagSet_arriveAt s ev st n lb h
  unfold arriveA
  simp only
  split
  · exact flagSet_settleUnlessFaulted st ev _ (flagSet_evalJump _ ev st _ h0)
  · have h1 := flagSet_writeOutcome st ev .a (evalPlane st .a (arriveAt st n lb s)) (flagSet_evalPlane _ ev st .a h0)
    split <;> simp_all

@[simp] theorem flagSet_retryPlane (s : State) (ev : Event) (st : Station) (pl : Plane) (h : s.flagSet ev = true) :
    ((retryPlane st pl s).2).flagSet ev = true := by
  unfold retryPlane
  simp only
  split
  · rename_i call r _ _
    have hy : ∀ y : PlaneOutcome × State, y.2.flagSet ev = true →
        (match y with
         | (.applied, s1) => (false, s1.setRun st { s1.run st with stalled := (s1.run st).stalled.set pl none })
         | (.faulted why, s1) => (true, faultSeq st (some pl) why s1)
         | (_, s1) => (false, s1) : Bool × State).2.flagSet ev = true := by
      rintro ⟨o, s1⟩ hy
      cases o <;> simp_all
    cases call
    · exact hy _ (flagSet_askMake s ev st pl r h)
    · exact hy _ (flagSet_askSwap s ev st pl r h)
  · exact h

@[simp] theorem flagSet_afterRetry (s : State) (ev : Event) (st : Station) (h : s.flagSet ev = true) :
    ((afterRetry st s)).flagSet ev = true := by
  unfold afterRetry
  simp only
  repeat' split
  all_goals simp (maxDischargeDepth := 40) [h]

@[simp] theorem flagSet_retryA (s : State) (ev : Event) (st : Station) (h : s.flagSet ev = true) :
    ((retryA st s).2).flagSet ev = true := by
  unfold retryA
  have h1 := flagSet_retryPlane s ev st .a h
  split <;> simp_all

@[simp] theorem flagSet_finishTurn (st : Station) (ev : Event) (y : TurnRest × State) (h : y.2.flagSet ev = true) :
    (finishTurn st y).flagSet ev = true := by
  obtain ⟨r, s⟩ := y
  cases r
  · exact h
  · exact flagSet_settleUnlessFaulted st ev _ (flagSet_writeOutcome st ev .b _ (flagSet_evalPlane s ev st .b h))
  · have h1 := flagSet_retryPlane s ev st .b h
    unfold finishTurn
    simp only
    split <;> simp_all

@[simp] theorem flagSet_arrive (s : State) (ev : Event) (st : Station) (n : StepId) (lb : Bool) (h : s.flagSet ev = true) :
    (arrive st n lb s).flagSet ev = true :=
  flagSet_finishTurn st ev _ (flagSet_arriveA s ev st n lb h)

@[simp] theorem flagSet_endStepA (s : State) (ev : Event) (st : Station) (h : s.flagSet ev = true) :
    ((endStepA st s).2).flagSet ev = true := by
  unfold endStepA
  repeat' split
  all_goals simp (maxDischargeDepth := 40) [h]

@[simp] theorem flagSet_endStep (s : State) (ev : Event) (st : Station) (h : s.flagSet ev = true) :
    (endStep st s).flagSet ev = true :=
  flagSet_finishTurn st ev _ (flagSet_endStepA s ev st h)

@[simp] theorem flagSet_takeCadenceA (s : State) (ev : Event) (d : Nat) (st : Station) (h : s.flagSet ev = true) :
    ((takeCadenceA d st s).2).flagSet ev = true := by
  unfold takeCadenceA
  simp only
  repeat' split
  all_goals simp (maxDischargeDepth := 40) [h]

@[simp] theorem flagSet_takeCadence (s : State) (ev : Event) (d : Nat) (st : Station) (h : s.flagSet ev = true) :
    (takeCadence d st s).flagSet ev = true :=
  flagSet_finishTurn st ev _ (flagSet_takeCadenceA s ev d st h)

@[simp] theorem flagSet_startSeq (s : State) (ev : Event) (st : Station) (h : s.flagSet ev = true) :
    ((startSeq st s)).flagSet ev = true := by
  simp (maxDischargeDepth := 40) [h, startSeq]

@[simp] theorem flagSet_resumeSeq (s : State) (ev : Event) (st : Station) (h : s.flagSet ev = true) :
    ((resumeSeq st s)).flagSet ev = true := by
  unfold resumeSeq
  simp only
  repeat' split
  all_goals simp (maxDischargeDepth := 40) [h]

@[simp] theorem flagSet_stopSeq (s : State) (ev : Event) (st : Station) (h : s.flagSet ev = true) :
    ((stopSeq st s)).flagSet ev = true := by
  simp (maxDischargeDepth := 40) [h, stopSeq]

@[simp] theorem flagSet_startVisit (s : State) (ev : Event) (b : BankId) (h : s.flagSet ev = true) :
    ((startVisit b s)).flagSet ev = true := by
  simp (maxDischargeDepth := 40) [h, startVisit]

@[simp] theorem flagSet_endCycle (s : State) (ev : Event) (h : s.flagSet ev = true) :
    ((endCycle s)).flagSet ev = true := by
  unfold endCycle
  simp only
  repeat' split
  all_goals simp (maxDischargeDepth := 40) [h]

@[simp] theorem flagSet_seekVisit (s : State) (ev : Event) (n : Nat) (h : s.flagSet ev = true) :
    ((seekVisit n s)).flagSet ev = true := by
  unfold seekVisit
  split <;> simp (maxDischargeDepth := 40) [h]

@[simp] theorem flagSet_startCycle (s : State) (ev : Event) (h : s.flagSet ev = true) :
    ((startCycle s)).flagSet ev = true := by
  simp (maxDischargeDepth := 40) [h, startCycle]

@[simp] theorem flagSet_checkCoil (s : State) (ev : Event) (b : BankId) (x : Sample) (h : s.flagSet ev = true) :
    ((checkCoil b x s)).flagSet ev = true := by
  unfold checkCoil
  split <;> simp (maxDischargeDepth := 40) [h]

@[simp] theorem flagSet_checkDrift (s : State) (ev : Event) (b : BankId) (r : BankRecord) (x : Sample) (h : s.flagSet ev = true) :
    ((checkDrift b r x s)).flagSet ev = true := by
  unfold checkDrift
  repeat' split
  all_goals simp (maxDischargeDepth := 40) [h]

@[simp] theorem flagSet_checkStray (s : State) (ev : Event) (b : BankId) (r : BankRecord) (x : Sample) (h : s.flagSet ev = true) :
    ((checkStray b r x s)).flagSet ev = true := by
  unfold checkStray
  repeat' split
  all_goals simp (maxDischargeDepth := 40) [h]

@[simp] theorem flagSet_keepSample (s : State) (ev : Event) (b : BankId) (x : Sample) (h : s.flagSet ev = true) :
    ((keepSample b x s)).flagSet ev = true := by
  simp (maxDischargeDepth := 40) [h, keepSample]

@[simp] theorem flagSet_judgeVisit (s : State) (ev : Event) (b : BankId) (x : Sample) (h : s.flagSet ev = true) :
    ((judgeVisit b x s)).flagSet ev = true := by
  unfold judgeVisit
  split <;> simp (maxDischargeDepth := 40) [h]

@[simp] theorem flagSet_endVisit (s : State) (ev : Event) (h : s.flagSet ev = true) :
    ((endVisit s)).flagSet ev = true := by
  unfold endVisit
  simp only
  repeat' split
  all_goals simp (maxDischargeDepth := 40) [h]

/-- Outside TEARDOWN what the drivers do after an event keeps every flag. -/
theorem flagSet_react (s : State) (ev : Event) (hs : s.safe.state ≠ .teardown) (h : s.flagSet ev = true) :
    (react s).flagSet ev = true := by
  unfold react
  split
  · exact flagSet_chooseBoth s ev h
  · rename_i hx; exact absurd hx hs
  · exact h
  · exact h

end Sys2Proof.Machine
end

