-- ==== Sys2Proof/Laws/Cancel.lean ====
section
/-! SUPPORT. What the cancellation of an entry does (R35, R55, R95), and what safe entry does before the cancellations
(R97, R140): one lemma for each. -/

namespace Sys2Proof.Machine

/-- `w` differs from `s` only in what a change of the Path Set may write: banks, paths, queue, drivers, sequencers and
events. -/
def PathWork (s w : State) : Prop :=
  w =
    { s with
      banks := w.banks, paths := w.paths, queue := w.queue, drivers := w.drivers, seqs := w.seqs, events := w.events }

theorem PathWork.trans {s v w : State} (h : PathWork s v) (g : PathWork v w) : PathWork s w := by
  unfold PathWork at *
  rw [g, h]

theorem pathWork_setPath (s : State) (p : Slot) (x : PathRecord) : PathWork s (s.setPath p x) := rfl
theorem pathWork_setDriver (s : State) (p : Plane) (x : Driver) : PathWork s (s.setDriver p x) := rfl
theorem pathWork_setQueue (s : State) (x : List Entry) : PathWork s (s.setQueue x) := rfl
theorem pathWork_setRun (s : State) (st : Station) (x : SeqRun) : PathWork s (s.setRun st x) := rfl
theorem pathWork_raise (s : State) (e : Event) : PathWork s (s.raise e) := rfl

theorem pathWork_mapBanks (s : State) (f : BankId → BankRecord → BankRecord) : PathWork s (s.mapBanks f) := by
  unfold PathWork State.mapBanks
  simp only

theorem pathWork_freeSlot (p : Slot) (s : State) : PathWork s (freeSlot p s) :=
  (pathWork_mapBanks s _).trans ((pathWork_setPath _ p _).trans
    ((pathWork_setRun _ .s1 _).trans ((pathWork_setRun _ .s2 _).trans (pathWork_raise _ _))))

theorem pathWork_undoAcceptance (e : Entry) (s : State) : PathWork s (undoAcceptance e s) := by
  unfold undoAcceptance
  split
  · exact (pathWork_mapBanks s _).trans (pathWork_freeSlot _ _)
  · exact pathWork_setPath s _ _
  · exact (pathWork_mapBanks s _).trans ((pathWork_freeSlot _ _).trans (pathWork_setPath _ _ _))
  · rfl

theorem pathWork_removeEntry (e : Entry) (s : State) : PathWork s (removeEntry e s) := by
  unfold removeEntry
  dsimp only
  split
  · exact (pathWork_setDriver s _ _).trans (pathWork_setQueue _ _)
  · exact pathWork_setQueue s _

theorem pathWork_notifyEnded (e : Entry) (c : Bool) (s : State) : PathWork s (notifyEnded e c s) := by
  unfold notifyEnded
  split
  · exact pathWork_setRun s _ _
  · rfl

/-! ## What each part of a cancellation leaves -/

theorem removeFirst_eq_erase (e : Entry) (q : List Entry) : removeFirst e q = q.erase e := by
  induction q with
  | nil => rfl
  | cons x xs ih =>
    unfold removeFirst
    rw [List.erase_cons, ih]
    by_cases h : x = e <;> simp [h]

theorem queue_freeSlot (p : Slot) (s : State) : (freeSlot p s).queue = s.queue := by
  simp [freeSlot]

theorem drivers_freeSlot (p : Slot) (s : State) : (freeSlot p s).drivers = s.drivers := by
  simp [freeSlot]

theorem queue_undoAcceptance (e : Entry) (s : State) : (undoAcceptance e s).queue = s.queue := by
  unfold undoAcceptance
  split <;> simp [queue_freeSlot, returnBanks]

theorem queue_removeEntry (e : Entry) (s : State) : (removeEntry e s).queue = s.queue.erase e := by
  unfold removeEntry
  dsimp only
  split <;> exact removeFirst_eq_erase e s.queue

theorem queue_notifyEnded (e : Entry) (c : Bool) (s : State) : (notifyEnded e c s).queue = s.queue := by
  unfold notifyEnded
  split <;> rfl

theorem current_setRun (s : State) (st x : Station) (r : SeqRun) (pl : Plane) :
    ((s.setRun st r).run x).current.get pl = if x = st then r.current.get pl else (s.run x).current.get pl := by
  unfold State.run
  rw [seq_setRun]
  split <;> rfl

theorem current_dropCurrent (r : SeqRun) (p : Slot) (pl : Plane) :
    (r.dropCurrent p).current.get pl = if r.current.get pl = some p then none else r.current.get pl := by
  cases pl <;> rfl

theorem seqs_freeSlot (p : Slot) (s : State) :
    (freeSlot p s).seqs =
      ⟨{ s.seqs.s1 with run := s.seqs.s1.run.dropCurrent p }, { s.seqs.s2 with run := s.seqs.s2.run.dropCurrent p }⟩ := by
  unfold freeSlot
  simp only [seqs_raise, State.setRun, State.seq, seqs_setPath, seqs_mapBanks, ByStation.get, ByStation.set]

/-- R38, R95: no sequencer keeps a slot that has gone FREE as a current path. -/
theorem current_freeSlot (p : Slot) (s : State) (st : Station) (pl : Plane) :
    ((freeSlot p s).run st).current.get pl =
      if (s.run st).current.get pl = some p then none else (s.run st).current.get pl := by
  unfold State.run State.seq
  rw [seqs_freeSlot]
  cases st <;> exact current_dropCurrent _ p pl

theorem current_removeEntry (e : Entry) (s : State) (st : Station) (pl : Plane) :
    ((removeEntry e s).run st).current.get pl = (s.run st).current.get pl := by
  unfold removeEntry
  dsimp only
  split <;> rfl

theorem current_endChange (r : SeqRun) (e : Entry) (pl : Plane) : (r.endChange e).current.get pl = r.current.get pl := by
  unfold SeqRun.endChange
  dsimp only
  split
  · split <;> rfl
  · rfl

/-- R95: a cancelled entry that is no SWAP leaves the current paths. -/
theorem current_notifyEnded (e : Entry) (s : State) (h : e.kind ≠ .swapChange) (st : Station) (pl : Plane) :
    ((notifyEnded e true s).run st).current.get pl = (s.run st).current.get pl := by
  unfold notifyEnded
  split
  · rename_i x _
    rw [current_setRun]
    split
    · rename_i hx
      subst hx
      show (SeqRun.regainOld _ e s).current.get pl = _
      unfold SeqRun.regainOld
      split
      · rename_i hk _
        exact absurd hk h
      · exact current_endChange _ e pl
    · rfl
  · rfl

/-- R95: a cancelled SWAP gives its sequencer the old slot back where the field is none. -/
theorem current_notifyEnded_swap (e : Entry) (o : Slot) (s : State) (hk : e.kind = .swapChange) (ho : e.old = some o)
    (hs : (s.path o).state = .live ∨ (s.path o).state = .settling ∨ (s.path o).state = .failed) (st : Station)
    (pl : Plane) :
    ((notifyEnded e true s).run st).current.get pl =
      if (s.run st).current.get pl = none then (if e.origin = .sequencer st ∧ pl = e.plane then some o else none)
      else (s.run st).current.get pl := by
  unfold notifyEnded
  split
  · rename_i x hx
    rw [current_setRun]
    split
    · rename_i hst
      subst hst
      show (SeqRun.regainOld _ e s).current.get pl = _
      unfold SeqRun.regainOld
      rw [hk, ho]
      dsimp only
      have hc := current_endChange (s.run st) e
      unfold State.run at hc
      by_cases hn : (s.run st).current.get e.plane = none
      · have hn' : (((s.seq st).run.endChange e).current.get e.plane) = none := (hc e.plane).trans hn
        rw [if_pos ⟨hn', hs⟩]
        dsimp only
        rw [ByPlane.get_set]
        by_cases hp : pl = e.plane
        · subst hp
          rw [if_pos rfl, if_pos hn, if_pos ⟨hx, rfl⟩]
        · rw [if_neg hp, hc pl]
          show (s.run st).current.get pl = _
          by_cases h0 : (s.run st).current.get pl = none
          · rw [if_pos h0, if_neg fun h => hp h.2, h0]
          · rw [if_neg h0]
      · have hn' : ¬ (((s.seq st).run.endChange e).current.get e.plane) = none := fun h => hn ((hc e.plane).symm.trans h)
        rw [if_neg fun h => hn' h.1, hc pl]
        show (s.run st).current.get pl = _
        by_cases h0 : (s.run st).current.get pl = none
        · rw [if_pos h0, if_neg fun h : _ ∧ pl = e.plane => hn (h.2 ▸ h0), h0]
        · rw [if_neg h0]
    · rename_i hst
      by_cases h0 : (s.run st).current.get pl = none
      · rw [if_pos h0, if_neg fun h => hst (by rw [hx] at h; exact (ChangeOrigin.sequencer.inj h.1).symm), h0]
      · rw [if_neg h0]
  · rename_i hno
    by_cases h0 : (s.run st).current.get pl = none
    · rw [if_pos h0, if_neg fun h => hno st h.1, h0]
    · rw [if_neg h0]

theorem restoredPath_eq (s : State) (o : Slot) (r : RouteId) (k : PriorState) (hr : (s.path o).route = some r)
    (hk : (s.path o).prior = some k) : restoredPath s o = restoredTo k (s.route r) (s.path o) := by
  have h : s.slotRoute o = some (s.route r) := by
    unfold State.slotRoute
    rw [hr]
    rfl
  unfold restoredPath restoredTo State.extraSettleTicks State.slotLegs
  cases k <;> simp only [hk, h, Config.ticksPer100us]

theorem state_restoredTo (k : PriorState) (r : RouteRecord) (x : PathRecord) :
    (restoredTo k r x).state = .live ∨ (restoredTo k r x).state = .settling ∨ (restoredTo k r x).state = .failed := by
  cases k
  · exact Or.inr (Or.inl rfl)
  · exact Or.inl rfl
  · exact Or.inr (Or.inr rfl)

/-! ## What the end of the cancellation leaves alone -/

theorem rest_removeEntry (e : Entry) (s : State) :
    (removeEntry e s).banks = s.banks ∧ (removeEntry e s).paths = s.paths ∧ (removeEntry e s).events = s.events := by
  unfold removeEntry
  dsimp only
  split <;> exact ⟨rfl, rfl, rfl⟩

theorem rest_notifyEnded (e : Entry) (c : Bool) (s : State) :
    (notifyEnded e c s).banks = s.banks ∧ (notifyEnded e c s).paths = s.paths ∧
      (notifyEnded e c s).events = s.events ∧ (notifyEnded e c s).drivers = s.drivers := by
  unfold notifyEnded
  split <;> exact ⟨rfl, rfl, rfl, rfl⟩

theorem headOf_of_queue {s t : State} (h : t.queue = s.queue) (pl : Plane) : t.headOf pl = s.headOf pl := by
  unfold State.headOf
  rw [h]

/-- R60: the removal of the head gives up the held leg and the wait. -/
theorem driver_removeEntry (e : Entry) (s : State) (h : s.headOf e.plane = some e) :
    ((removeEntry e s).driver e.plane).held = none ∧ ((removeEntry e s).driver e.plane).waiting = none := by
  unfold removeEntry
  rw [if_pos h]
  have hd := driver_setDriver s e.plane e.plane { s.driver e.plane with held := none, waiting := none }
  rw [if_pos rfl] at hd
  exact ⟨congrArg Driver.held hd, congrArg Driver.waiting hd⟩

/-- The banks, paths and events of a cancellation are those the undoing of the acceptance leaves. -/
theorem rest_cancelEntry (e : Entry) (s : State) :
    (cancelEntry e s).banks = (undoAcceptance e s).banks ∧ (cancelEntry e s).paths = (undoAcceptance e s).paths ∧
      (cancelEntry e s).events = (undoAcceptance e s).events := by
  obtain ⟨a1, a2, a3⟩ := rest_removeEntry e (undoAcceptance e s)
  obtain ⟨b1, b2, b3, _⟩ := rest_notifyEnded e true (removeEntry e (undoAcceptance e s))
  exact ⟨b1.trans a1, b2.trans a2, b3.trans a3⟩

theorem pathWork_cancelEntry (e : Entry) (s : State) : PathWork s (cancelEntry e s) :=
  (pathWork_undoAcceptance e s).trans ((pathWork_removeEntry e _).trans (pathWork_notifyEnded e true _))

theorem queue_cancelEntry (e : Entry) (s : State) : (cancelEntry e s).queue = s.queue.erase e := by
  unfold cancelEntry
  rw [queue_notifyEnded, queue_removeEntry, queue_undoAcceptance]

theorem flagSet_pathFreed_freeSlot (p : Slot) (s : State) : (freeSlot p s).flagSet .pathFreed = true := by
  unfold freeSlot State.flagSet State.raise
  simp [Event.mask, Event.bit]

theorem flagSet_of_events {s t : State} (h : t.events = s.events) (e : Event) : t.flagSet e = s.flagSet e := by
  unfold State.flagSet
  rw [h]

theorem current_of_seqs {s t : State} (h : t.seqs = s.seqs) (st : Station) (pl : Plane) :
    (t.run st).current.get pl = (s.run st).current.get pl := by
  unfold State.run State.seq
  rw [h]

/-! ## The cancellation of an entry (R35, R95) -/

/-- R35: a cancelled MAKE. -/
theorem makeCancelled_cancelEntry (e : Entry) (s : State) (n : Slot) (hk : e.kind = .makeChange) (hn : e.new = some n) :
    MakeCancelled n s (cancelEntry e s) := by
  have hu : undoAcceptance e s =
      freeSlot n (s.mapBanks fun _ k => if k.holder = some n then releasedBank k else k) := by
    unfold undoAcceptance
    rw [hk, hn]
  obtain ⟨hb, hp, he⟩ := rest_cancelEntry e s
  refine ⟨?_, fun q hq => ?_, ?_, fun b => ?_, fun st pl => ?_⟩
  · rw [path_of_paths _ _ hp, hu, path_freeSlot, if_pos rfl]
  · rw [path_of_paths _ _ hp, hu, path_freeSlot, if_neg hq]
    exact path_of_paths _ _ (paths_mapBanks s _) q
  · rw [flagSet_of_events he, hu, flagSet_pathFreed_freeSlot]
  · rw [bank_of_banks _ _ hb, hu, bank_freeSlot, bank_mapBanks]
    by_cases h : (s.bank b).holder = some n
    · simp [h, releasedBank]
    · simp [h]
  · unfold cancelEntry
    rw [current_notifyEnded _ _ (by rw [hk]; decide), current_removeEntry, hu, current_freeSlot,
      current_of_seqs (seqs_mapBanks s _)]

/-- R35: a cancelled BREAK. -/
theorem breakCancelled_cancelEntry (e : Entry) (s : State) (o : Slot) (r : RouteId) (k : PriorState)
    (hk : e.kind = .breakChange) (ho : e.old = some o) (hr : (s.path o).route = some r)
    (hp : (s.path o).prior = some k) : BreakCancelled o (s.route r) k s (cancelEntry e s) := by
  have hu : undoAcceptance e s = s.setPath o (restoredTo k (s.route r) (s.path o)) := by
    unfold undoAcceptance
    rw [hk, ho]
    exact congrArg (s.setPath o) (restoredPath_eq s o r k hr hp)
  obtain ⟨hb, hq, he⟩ := rest_cancelEntry e s
  refine ⟨?_, fun q hn => ?_, ?_, ?_, fun st pl => ?_⟩
  · rw [path_of_paths _ _ hq, hu, path_setPath, if_pos rfl]
  · rw [path_of_paths _ _ hq, hu, path_setPath, if_neg hn]
  · rw [hb, hu, banks_setPath]
  · rw [he, hu, events_setPath]
  · unfold cancelEntry
    rw [current_notifyEnded _ _ (by rw [hk]; decide), current_removeEntry, hu]
    rfl

/-- R35, R95: a cancelled SWAP. -/
theorem swapCancelled_cancelEntry (e : Entry) (s : State) (o n : Slot) (r : RouteId) (k : PriorState)
    (hk : e.kind = .swapChange) (ho : e.old = some o) (hn : e.new = some n) (hne : o ≠ n)
    (hr : (s.path o).route = some r) (hp : (s.path o).prior = some k) :
    SwapCancelled e o n (s.route r) k s (cancelEntry e s) := by
  let v := freeSlot n (returnBanks o n s)
  have hv : ∀ q, v.path q = if q = n then PathRecord.free else s.path q := fun q => by
    rw [path_freeSlot]
    split
    · rfl
    · exact path_of_paths _ _ (paths_mapBanks s _) q
  have hvo : v.path o = s.path o := by rw [hv, if_neg hne]
  have hvr : v.route r = s.route r := by
    have : v.routes = s.routes := by
      show (freeSlot n (returnBanks o n s)).routes = _
      simp [freeSlot, returnBanks]
    unfold State.route
    rw [this]
  have hu : undoAcceptance e s = v.setPath o (restoredTo k (s.route r) (s.path o)) := by
    unfold undoAcceptance
    rw [hk, ho, hn]
    have := restoredPath_eq v o r k (by rw [hvo, hr]) (by rw [hvo, hp])
    rw [hvr, hvo] at this
    exact congrArg (v.setPath o) this
  have hl : s.slotLegs o = (s.route r).legs := by
    unfold State.slotLegs State.slotRoute
    rw [hr]
    rfl
  obtain ⟨hb, hq, he⟩ := rest_cancelEntry e s
  refine ⟨?_, ?_, fun q h1 h2 => ?_, ?_, fun b => ?_, fun st pl => ?_⟩
  · rw [path_of_paths _ _ hq, hu, path_setPath, if_neg (Ne.symm hne), hv, if_pos rfl]
  · rw [path_of_paths _ _ hq, hu, path_setPath, if_pos rfl]
  · rw [path_of_paths _ _ hq, hu, path_setPath, if_neg h1, hv, if_neg h2]
  · rw [flagSet_of_events he, hu, flagSet_of_events (events_setPath _ _ _), flagSet_pathFreed_freeSlot]
  · rw [bank_of_banks _ _ hb, hu, bank_of_banks _ _ (banks_setPath _ _ _), bank_freeSlot]
    unfold returnBanks
    rw [bank_mapBanks, hl]
    have ha : ((s.route r).legs.any fun l => decide (l.bank = b)) = decide (b ∈ (s.route r).legs.map RouteLeg.bank) := by
      rw [Bool.eq_iff_iff]
      simp
    dsimp only
    rw [ha]
    by_cases h : (s.bank b).holder = some n
    · by_cases h2 : b ∈ (s.route r).legs.map RouteLeg.bank <;> simp only [h, h2, decide_true, decide_false, if_true]
      · exact if_neg fun h3 => hne (Option.some.inj h3)
      · exact if_neg nofun
    · rw [if_neg h, if_neg h, if_neg h]
  · have hs : ((removeEntry e (undoAcceptance e s)).path o).state = (restoredTo k (s.route r) (s.path o)).state := by
      rw [path_of_paths _ _ (rest_removeEntry e _).2.1, hu, path_setPath, if_pos rfl]
    have hc : ((removeEntry e (undoAcceptance e s)).run st).current.get pl =
        if (s.run st).current.get pl = some n then none else (s.run st).current.get pl := by
      rw [current_removeEntry, hu]
      rw [current_of_seqs (seqs_setPath v o _), current_freeSlot]
      unfold returnBanks
      rw [current_of_seqs (seqs_mapBanks s _)]
    unfold cancelEntry
    rw [current_notifyEnded_swap e o _ hk ho (by rw [hs]; exact state_restoredTo _ _ _), hc]
    by_cases h : (s.run st).current.get pl = some n
    · rw [if_pos h, if_pos rfl, if_pos (Or.inl h)]
    · by_cases h0 : (s.run st).current.get pl = none
      · rw [if_neg h, if_pos h0, if_pos (Or.inr h0)]
      · rw [if_neg h, if_neg h0, if_neg (not_or.2 ⟨h, h0⟩)]

/-! ## The notice at the end of an entry (R55, R84, R95) -/

theorem isFor_iff (c : PendingChange) (e : Entry) : c.isFor e = true ↔ RecordOf e c := by
  unfold PendingChange.isFor RecordOf
  cases e.new <;> cases e.old <;> simp

theorem isFor_eq (e : Entry) : (fun c : PendingChange => c.isFor e) = fun c => decide (RecordOf e c) := by
  funext c
  rw [Bool.eq_iff_iff, isFor_iff, decide_eq_true_iff]

/-- R84: the notice in one run state. -/
theorem endChange_eq (r : SeqRun) (e : Entry) :
    r.endChange e =
      { r with
        changes := r.changes.filter fun c => decide (¬ RecordOf e c)
        state := if r.state = .waiting ∧ r.changes ≠ [] ∧ ∀ c ∈ r.changes, RecordOf e c then .dwelling else r.state
        dwell :=
          if r.state = .waiting ∧ r.changes ≠ [] ∧ ∀ c ∈ r.changes, RecordOf e c then r.copyDwell else r.dwell } := by
  have hf : (r.changes.filter fun c => !c.isFor e) = r.changes.filter fun c => decide (¬ RecordOf e c) := by
    congr 1
    funext c
    rw [congrFun (isFor_eq e) c, decide_not]
  have he : (r.changes.filter fun c => decide (¬ RecordOf e c)) = [] ↔ ∀ c ∈ r.changes, RecordOf e c := by
    rw [List.filter_eq_nil_iff]
    exact ⟨fun h c hc => Decidable.byContradiction fun hr => h c hc (decide_eq_true hr),
      fun h c hc hr => of_decide_eq_true hr (h c hc)⟩
  unfold SeqRun.endChange
  rw [hf]
  by_cases ha : (r.changes.any fun c => c.isFor e) = true
  · rw [if_pos ha]
    have hne : r.changes ≠ [] := fun h => by simp [h] at ha
    dsimp only
    by_cases hw : r.state = .waiting ∧ r.changes ≠ [] ∧ ∀ c ∈ r.changes, RecordOf e c
    · rw [if_pos (by rw [he.2 hw.2.2, hw.1]; rfl), if_pos hw, if_pos hw]
    · rw [if_neg hw, if_neg hw, if_neg]
      intro hc
      rw [Bool.and_eq_true, List.isEmpty_iff, decide_eq_true_iff] at hc
      exact hw ⟨hc.2, hne, he.1 hc.1⟩
  · rw [if_neg ha]
    have hn : ∀ c ∈ r.changes, ¬ RecordOf e c := fun c hc hr =>
      ha (List.any_eq_true.2 ⟨c, hc, (isFor_iff c e).2 hr⟩)
    have hw : ¬ (r.state = .waiting ∧ r.changes ≠ [] ∧ ∀ c ∈ r.changes, RecordOf e c) := fun ⟨_, hne, h⟩ => by
      obtain ⟨c, hc⟩ := List.exists_mem_of_ne_nil _ hne
      exact hn c hc (h c hc)
    rw [if_neg hw, if_neg hw, List.filter_eq_self.2 fun c hc => decide_eq_true (hn c hc)]

/-- From `s`, the sequencers have changed in `t` in their current paths alone. -/
def CurrentOnly (s t : State) : Prop :=
  ∀ st, t.seq st = { cfg := (s.seq st).cfg, run := { s.run st with current := (t.run st).current } }

theorem currentOnly_of_seqs {s t : State} (h : t.seqs = s.seqs) : CurrentOnly s t := by
  intro st
  unfold State.run State.seq
  rw [h]

theorem CurrentOnly.trans {s v w : State} (h : CurrentOnly s v) (g : CurrentOnly v w) : CurrentOnly s w := by
  intro st
  have h1 := h st
  have h2 : v.run st = (v.seq st).run := rfl
  rw [g st, h2, h1]

theorem currentOnly_freeSlot (p : Slot) (s : State) : CurrentOnly s (freeSlot p s) := by
  intro st
  unfold State.run State.seq
  rw [seqs_freeSlot]
  cases st <;> rfl

theorem currentOnly_mapBanks (f : BankId → BankRecord → BankRecord) (s : State) : CurrentOnly s (s.mapBanks f) :=
  currentOnly_of_seqs (seqs_mapBanks s f)

theorem currentOnly_undoAcceptance (e : Entry) (s : State) : CurrentOnly s (undoAcceptance e s) := by
  unfold undoAcceptance
  split
  · exact (currentOnly_mapBanks _ s).trans (currentOnly_freeSlot _ _)
  · exact currentOnly_of_seqs rfl
  · rename_i o n _ _ _
    have h : CurrentOnly s (freeSlot n (returnBanks o n s)) :=
      (currentOnly_mapBanks _ s).trans (currentOnly_freeSlot n (returnBanks o n s))
    exact h.trans (currentOnly_of_seqs (seqs_setPath _ o _))
  · exact currentOnly_of_seqs rfl

theorem seqs_removeEntry (e : Entry) (s : State) : (removeEntry e s).seqs = s.seqs := by
  unfold removeEntry
  dsimp only
  split <;> rfl

theorem regainOld_eq (r : SeqRun) (e : Entry) (s : State) :
    r.regainOld e s = { r with current := (r.regainOld e s).current } := by
  unfold SeqRun.regainOld
  split
  · dsimp only
    split <;> rfl
  · rfl

theorem noticeTaken_notifyEnded (e : Entry) (c : Bool) (s : State) : NoticeTaken e s (notifyEnded e c s) := by
  intro st
  by_cases ho : e.origin = .sequencer st
  · have h : notifyEnded e c s =
        s.setRun st (if c then ((s.run st).endChange e).regainOld e s else (s.run st).endChange e) := by
      unfold notifyEnded
      rw [ho]
      rfl
    have hr : ∃ cur, (if c then ((s.run st).endChange e).regainOld e s else (s.run st).endChange e) =
        { (s.run st).endChange e with current := cur } := by
      split
      · exact ⟨_, regainOld_eq _ e s⟩
      · exact ⟨_, rfl⟩
    obtain ⟨cur, hr⟩ := hr
    unfold State.run at h hr ⊢
    unfold EndsWaiting
    rw [h, hr, seq_setRun, if_pos rfl, endChange_eq, if_pos ho]
    simp only [ho, true_and]
    rfl
  · have hw : ¬ EndsWaiting e st s := fun h => ho h.1
    have hs : (notifyEnded e c s).seq st = s.seq st := by
      unfold notifyEnded
      split
      · rename_i x hx
        rw [seq_setRun, if_neg]
        rintro rfl
        exact ho hx
      · rfl
    have hr : (notifyEnded e c s).run st = s.run st := congrArg Sequencer.run hs
    rw [hs, hr, if_neg ho, if_neg hw, if_neg hw]
    rfl

theorem NoticeTaken.before {e : Entry} {s v w : State} (h : CurrentOnly s v) (g : NoticeTaken e v w) :
    NoticeTaken e s w := by
  intro st
  have hc : (v.seq st).cfg = (s.seq st).cfg := by rw [h st]
  have hr : v.run st = { s.run st with current := (v.run st).current } := congrArg Sequencer.run (h st)
  have hw : EndsWaiting e st v ↔ EndsWaiting e st s := by
    unfold EndsWaiting
    rw [hr]
  have hd : (v.run st).copyDwell = (s.run st).copyDwell := by rw [hr]; rfl
  rw [g st, hc, hd]
  simp only [hw]
  rw [hr]

theorem NoticeTaken.after {e : Entry} {s v w : State} (h : NoticeTaken e s v) (g : w.seqs = v.seqs) :
    NoticeTaken e s w := by
  intro st
  have hs : w.seq st = v.seq st := congrArg (fun x => x.get st) g
  have hr : w.run st = v.run st := congrArg Sequencer.run hs
  rw [hs, hr]
  exact h st

theorem noticeTaken_cancelEntry (e : Entry) (s : State) : NoticeTaken e s (cancelEntry e s) :=
  (noticeTaken_notifyEnded e true _).before
    ((currentOnly_undoAcceptance e s).trans (currentOnly_of_seqs (seqs_removeEntry e _)))

theorem currentOnly_freeOpt (p : Option Slot) (s : State) : CurrentOnly s (freeOpt p s) := by
  cases p
  · exact currentOnly_of_seqs rfl
  · exact currentOnly_freeSlot _ s

theorem seqs_settleFormed (p : Slot) (s : State) : (settleFormed p s).seqs = s.seqs := by
  unfold settleFormed startSettling
  dsimp only
  split
  · split <;> rfl
  · rfl

theorem seqs_applyCloseOwed (p : Slot) (s : State) : (applyCloseOwed p s).seqs = s.seqs := by
  unfold applyCloseOwed
  dsimp only
  split <;> rfl

theorem seqs_failSlot (p : Slot) (why : FailReason) (s : State) : (failSlot p why s).seqs = s.seqs := by
  unfold failSlot
  dsimp only
  split <;> rfl

theorem currentOnly_failPaths (e : Entry) (s : State) : CurrentOnly s (failPaths e s) := by
  unfold failPaths
  split
  · exact currentOnly_of_seqs (seqs_failSlot _ _ s)
  · exact currentOnly_of_seqs (seqs_failSlot _ _ s)
  · split
    · exact (currentOnly_freeOpt _ s).trans (currentOnly_of_seqs (seqs_failSlot _ _ _))
    · split
      · exact currentOnly_of_seqs ((seqs_failSlot _ _ _).trans (seqs_failSlot _ _ s))
      · exact currentOnly_of_seqs (seqs_failSlot _ _ s)
  · exact currentOnly_of_seqs rfl

/-- R55, R84: the notice of a completed entry. -/
theorem noticeTaken_completeEntry (e : Entry) (s : State) : NoticeTaken e s (completeEntry e s) := by
  have hf := currentOnly_freeOpt e.old s
  unfold completeEntry
  dsimp only
  split
  · exact (noticeTaken_notifyEnded e false _).before (hf.trans (currentOnly_of_seqs (seqs_removeEntry e _)))
  · rename_i p _
    exact ((noticeTaken_notifyEnded e false _).before
      (hf.trans (currentOnly_of_seqs ((seqs_removeEntry e _).trans (seqs_settleFormed p _))))).after
      (seqs_applyCloseOwed p _)

/-- R55, R84: the notice of a failed entry. -/
theorem noticeTaken_failEntry (e : Entry) (why : EntryFailure) (b : Option BankId) (s : State) :
    NoticeTaken e s (failEntry e why b s) := by
  have hf : CurrentOnly s (failPaths e (clearHeld e.plane s)) :=
    (currentOnly_of_seqs rfl).trans (currentOnly_failPaths e (clearHeld e.plane s))
  have hn : ∀ x, NoticeTaken e s (notifyEnded e false (removeEntry e (recordFailure e why b x
      (failPaths e (clearHeld e.plane s))))) := fun x => by
    have h : CurrentOnly s (removeEntry e (recordFailure e why b x (failPaths e (clearHeld e.plane s)))) :=
      hf.trans (currentOnly_of_seqs ((seqs_removeEntry e _).trans rfl))
    exact (noticeTaken_notifyEnded e false _).before h
  unfold failEntry
  dsimp only
  split
  · exact (hn _).after (seqs_applyCloseOwed _ _)
  · exact hn _

/-- R95: a notice that is not of a cancellation leaves the current paths. -/
theorem currentsKept_notifyEnded (e : Entry) (s : State) : CurrentsKept s (notifyEnded e false s) := by
  intro st pl
  unfold notifyEnded
  split
  · rw [current_setRun]
    split
    · rename_i h
      subst h
      exact current_endChange _ e pl
    · rfl
  · rfl

theorem currentsKept_of_seqs {s t : State} (h : t.seqs = s.seqs) : CurrentsKept s t := fun st pl => current_of_seqs h st pl

theorem CurrentsKept.trans {s v w : State} (h : CurrentsKept s v) (g : CurrentsKept v w) : CurrentsKept s w :=
  fun st pl => (g st pl).trans (h st pl)

theorem CurrentsDrop.kept {p : Slot} {s v w : State} (h : CurrentsDrop p s v) (g : CurrentsKept v w) :
    CurrentsDrop p s w := fun st pl => (g st pl).trans (h st pl)

theorem CurrentsKept.drop {p : Slot} {s v w : State} (h : CurrentsKept s v) (g : CurrentsDrop p v w) :
    CurrentsDrop p s w := by
  intro st pl
  rw [g st pl, h st pl]

/-- R95: the current paths at the completion of an entry. -/
theorem currents_completeEntry (e : Entry) (s : State) :
    (e.old = none → CurrentsKept s (completeEntry e s)) ∧
    ∀ o, e.old = some o → CurrentsDrop o s (completeEntry e s) := by
  have h : CurrentsKept (freeOpt e.old s) (completeEntry e s) := by
    unfold completeEntry
    dsimp only
    split
    · exact (currentsKept_of_seqs (seqs_removeEntry e _)).trans (currentsKept_notifyEnded e _)
    · rename_i p _
      exact ((currentsKept_of_seqs ((seqs_removeEntry e _).trans (seqs_settleFormed p _))).trans
        (currentsKept_notifyEnded e _)).trans (currentsKept_of_seqs (seqs_applyCloseOwed p _))
  constructor
  · intro ho
    rw [ho] at h
    exact h
  · intro o ho
    rw [ho] at h
    exact CurrentsDrop.kept (fun st pl => current_freeSlot o s st pl) h

/-- R95: the current paths at the failure of an entry. -/
theorem currents_failEntry (e : Entry) (why : EntryFailure) (b : Option BankId) (s : State) :
    (∀ o, e.kind = .swapChange → e.failingPart = .makePart → e.old = some o → e.new ≠ none →
      CurrentsDrop o s (failEntry e why b s)) ∧
    (¬ (e.kind = .swapChange ∧ e.failingPart = .makePart ∧ e.old ≠ none ∧ e.new ≠ none) →
      CurrentsKept s (failEntry e why b s)) := by
  have h : CurrentsKept (failPaths e (clearHeld e.plane s)) (failEntry e why b s) := by
    have hn : ∀ x, CurrentsKept (failPaths e (clearHeld e.plane s))
        (notifyEnded e false (removeEntry e (recordFailure e why b x (failPaths e (clearHeld e.plane s))))) := fun x => by
      have h1 : (removeEntry e (recordFailure e why b x (failPaths e (clearHeld e.plane s)))).seqs =
          (failPaths e (clearHeld e.plane s)).seqs := (seqs_removeEntry e _).trans rfl
      exact (currentsKept_of_seqs h1).trans (currentsKept_notifyEnded e _)
    unfold failEntry
    dsimp only
    split
    · exact (hn _).trans (currentsKept_of_seqs (seqs_applyCloseOwed _ _))
    · exact hn _
  have hc : CurrentsKept s (clearHeld e.plane s) := currentsKept_of_seqs rfl
  constructor
  · intro o hk hp ho hn
    obtain ⟨n, hn⟩ := Option.ne_none_iff_exists'.1 hn
    have hf : CurrentsDrop o s (failPaths e (clearHeld e.plane s)) := by
      have hd : CurrentsDrop o s (freeSlot o (clearHeld e.plane s)) :=
        hc.drop fun st pl => current_freeSlot o _ st pl
      unfold failPaths
      rw [hk, ho, hn]
      dsimp only
      rw [hp]
      exact hd.kept (currentsKept_of_seqs (seqs_failSlot n _ _))
    exact hf.kept h
  · intro hx
    refine (hc.trans ?_).trans h
    unfold failPaths
    split
    · exact currentsKept_of_seqs (seqs_failSlot _ _ _)
    · exact currentsKept_of_seqs (seqs_failSlot _ _ _)
    · rename_i hk hn
      split
      · rename_i hp
        cases ho : e.old with
        | none => exact currentsKept_of_seqs (seqs_failSlot _ _ _)
        | some o => exact absurd ⟨hk, hp, by rw [ho]; exact Option.some_ne_none o, by rw [hn]; exact Option.some_ne_none _⟩ hx
      · split
        · exact currentsKept_of_seqs ((seqs_failSlot _ _ _).trans (seqs_failSlot _ _ _))
        · exact currentsKept_of_seqs (seqs_failSlot _ _ _)
    · exact currentsKept_of_seqs rfl

/-- R35, R55, R95: what the cancellation of an entry does. -/
theorem cancelled_cancelEntry (e : Entry) (s : State) : Cancelled e s (cancelEntry e s) := by
  refine ⟨pathWork_cancelEntry e s, queue_cancelEntry e s, noticeTaken_cancelEntry e s, fun h => ?_,
    fun n hk _ hn => makeCancelled_cancelEntry e s n hk hn,
    fun o r k hk ho _ hr hp => breakCancelled_cancelEntry e s o r k hk ho hr hp,
    fun o n r k hk ho hn hne hr hp => swapCancelled_cancelEntry e s o n r k hk ho hn hne hr hp⟩
  have hd := driver_removeEntry e (undoAcceptance e s)
    ((headOf_of_queue (queue_undoAcceptance e s) e.plane).trans h)
  have hn : (cancelEntry e s).driver e.plane = (removeEntry e (undoAcceptance e s)).driver e.plane :=
    congrArg (fun d => d.get e.plane) (rest_notifyEnded e true _).2.2.2
  rwa [hn]

/-! ## Safe entry (R97, R140) -/

theorem safeEntry_eq (r : SeqRun) : r.safeEntry = safeEntered r := by
  unfold SeqRun.safeEntry safeEntered
  cases h : r.state <;> simp

/-- R140: safe entry, as far as the cancellations, is `entering`. -/
theorem enterGrace_eq (s : State) :
    enterGrace s =
      eachPlane failIdleHead (cancelAll (s.queue.filter fun e => !e.active) (entering s.safe.causes s)) := by
  unfold enterGrace
  dsimp only
  rw [safeEntry_eq, safeEntry_eq]
  rfl

/-- R139, R140: what a cause does in NORMAL. -/
theorem addCause_normal (c : SafeCause) (s : State) (h : s.isNormal = true) :
    addCause c s =
      eachPlane failIdleHead
        (cancelAll (s.queue.filter fun e => !e.active) (entering (causeInsert c s.safe.causes) s)) := by
  unfold addCause
  rw [if_pos h, enterGrace_eq]
  rfl

end Sys2Proof.Machine
end

