-- ==== Sys2Proof/Laws/Choice.lean ====
section
/-! SUPPORT. The drivers' choice (R57 to R62, R70) and the forced work (R72, R73): when a driver chooses, what it takes,
when its plane is done, and what the clearing of NODE_RESET in SAFE leaves (R147). -/

namespace Sys2Proof.Machine

/-- The first index of a range that passes a test. -/
theorem find_finRange {n : Nat} (f : Fin n → Bool) (b : Fin n) :
    (List.finRange n).find? f = some b ↔ f b = true ∧ ∀ x, x < b → f x = false := by
  rw [List.find?_eq_some_iff_getElem]
  simp
  intro _
  constructor
  · rintro ⟨i, h, rfl, h2⟩ x hx
    exact h2 x.1 hx
  · intro h
    exact ⟨b.1, b.2, rfl, fun j hj => h ⟨j, by omega⟩ hj⟩

/-- The same for a test that decides a proposition. -/
theorem find_finRange_iff {n : Nat} (f : Fin n → Bool) (P : Fin n → Prop) (hf : ∀ x, f x = true ↔ P x) (b : Fin n) :
    (List.finRange n).find? f = some b ↔ P b ∧ ∀ x, x < b → ¬ P x := by
  rw [find_finRange, hf]
  refine and_congr Iff.rfl (forall_congr' fun x => forall_congr' fun _ => ?_)
  rw [← hf, Bool.not_eq_true]

theorem find_finRange_none {n : Nat} (f : Fin n → Bool) (P : Fin n → Prop) (hf : ∀ x, f x = true ↔ P x) :
    (List.finRange n).find? f = none ↔ ∀ x, ¬ P x := by
  rw [List.find?_eq_none]
  simp only [List.mem_finRange, true_implies]
  exact forall_congr' fun x => not_congr (hf x)

/-! ## Choosing (R57) -/

theorem canChoose_iff (s : State) (pl : Plane) : canChoose s pl = true ↔ MayChoose s pl := by
  unfold canChoose MayChoose State.isNormal
  simp [and_assoc]

theorem homeDue_iff (s : State) (pl : Plane) (b : BankId) :
    ((s.bank b).fitted && decide ((s.bank b).plane = pl) && (s.bank b).homeOwed &&
      !(s.driver pl).passed.getLsbD b.1) = true ↔ HomeDue s pl b := by
  unfold HomeDue
  simp only [Bool.and_eq_true, decide_eq_true_iff, Bool.not_eq_true', and_assoc]

theorem nextHome_eq_none (s : State) (pl : Plane) : nextHome s pl = none ↔ ∀ b, ¬ HomeDue s pl b :=
  find_finRange_none _ _ (homeDue_iff s pl)

theorem nextHome_eq_some (s : State) (pl : Plane) (b : BankId) :
    nextHome s pl = some b ↔ HomeDue s pl b ∧ ∀ x, x < b → ¬ HomeDue s pl x :=
  find_finRange_iff _ _ (homeDue_iff s pl) b

/-- A driver that may not choose leaves the state as it is. -/
theorem choosePlane_idle (s : State) (pl : Plane) (h : ¬ MayChoose s pl) : choosePlane pl s = s := by
  have hf : chooseFuel s = (chooseFuel s - 1) + 1 := by unfold chooseFuel; omega
  unfold choosePlane
  rw [hf, chooseLoop, if_neg fun hc => h ((canChoose_iff s pl).1 hc)]

/-- A driver that may choose makes one choice, and goes on where that ended without a drive. -/
theorem choosePlane_once (s : State) (pl : Plane) (h : MayChoose s pl) :
    choosePlane pl s =
      match chooseOnce pl s with
      | (true, s') => chooseLoop pl (chooseFuel s - 1) s'
      | (false, s') => s' := by
  have hf : chooseFuel s = (chooseFuel s - 1) + 1 := by unfold chooseFuel; omega
  unfold choosePlane
  rw [hf, chooseLoop, if_pos ((canChoose_iff s pl).2 h)]
  rfl

/-- R57, steps 1 and 3. -/
theorem chooseOnce_head (s : State) (pl : Plane) (e : Entry) (h : TakesHead s pl e) :
    chooseOnce pl s = takeEntry pl e s := by
  obtain ⟨_, h2, h3⟩ := h
  unfold chooseOnce
  rw [h2]
  cases hn : nextHome s pl with
  | none => rfl
  | some b =>
    rcases h3 with h3 | h3
    · exact if_pos h3
    · exact absurd ((nextHome_eq_some s pl b).1 hn).1 (h3 b)

/-- R57, step 2. -/
theorem chooseOnce_home (s : State) (pl : Plane) (b : BankId) (h : TakesHome s pl b) :
    chooseOnce pl s = takeHome pl b s := by
  obtain ⟨_, h2, h3, h4⟩ := h
  unfold chooseOnce
  rw [(nextHome_eq_some s pl b).2 ⟨h2, h3⟩]
  cases hn : s.headOf pl with
  | none => rfl
  | some e => exact if_neg (by rw [h4 e hn]; simp)

/-- R57, step 4. -/
theorem chooseOnce_nothing (s : State) (pl : Plane) (h : s.headOf pl = none) (hb : ∀ b, ¬ HomeDue s pl b) :
    chooseOnce pl s = (false, s) := by
  unfold chooseOnce
  rw [h, (nextHome_eq_none s pl).2 hb]

/-- R48. -/
theorem legFits_iff (s : State) (b : BankId) :
    legFits s b = true ↔
      (s.tracker (s.bank b).plane).isOpen = true ∧ (s.tracker (s.bank b).plane).closingHeld = false ∧
      10 * ((s.bank b).operate + (s.bank b).settle) ≤ (s.tracker (s.bank b).plane).budget := by
  unfold legFits
  simp [and_assoc]

/-- R59: a leg that must be driven goes to the checks. -/
theorem takeLeg_driven (s : State) (pl : Plane) (e : Entry) (l : PlanLeg) (h : MustBeDriven s l) :
    takeLeg pl e l s = checkLeg pl e l s := by
  unfold takeLeg
  rcases h with h | ⟨h1, h2⟩
  · rw [if_neg h]
  · have : ¬ s.breakSkipped l.bank = true := by unfold State.breakSkipped; rw [h2]; simp
    rw [if_neg h1, if_neg this]
    exact ite_self _

/-- What the drivers do after an event in NORMAL, GRACE and SAFE (R57, R71, R143). -/
theorem react_cases (s : State) :
    (s.safe.state = .grace ∨ s.safe.state = .safe → react s = s) ∧
    (s.safe.state = .normal →
      react s = choosePlane .b (choosePlane .a s) ∨ react s = choosePlane .b (choosePlane .a s.redraw) ∨
        react s = choosePlane .a (choosePlane .b s.redraw)) ∧
    (s.safe.state = .teardown → react s = settleTeardown s) := by
  refine ⟨?_, ?_, ?_⟩
  · rintro (h | h) <;> · unfold react; rw [h]
  · intro h
    unfold react
    rw [h]
    dsimp only
    unfold chooseBoth eachPlane
    split
    · split
      · exact .inr (.inr rfl)
      · exact .inr (.inl rfl)
    · exact .inl rfl
  · intro h
    unfold react
    rw [h]

/-! ## Misses (R128, R130) -/

theorem faultValid_of_none (s : State) (b : BankId) (k : FaultKind) (h : s.faultsOf b = 0) :
    s.faultValid b k = false := by
  unfold State.faultValid
  rw [h]
  cases k <;> rfl

/-! ## Forced work (R72, R73) -/

theorem usedOn_iff (s : State) (pl : Plane) (p : Slot) : (s.slotUsed p && s.slotOnPlane p pl) = true ↔ UsedOn s pl p := by
  unfold UsedOn State.slotUsed
  simp only [Bool.and_eq_true, decide_eq_true_iff]

theorem forcedHomeDue_iff (s : State) (pl : Plane) (b : BankId) : forcedHomeDue s pl b = true ↔ ForcedHomeDue s pl b := by
  unfold forcedHomeDue ForcedHomeDue State.breakSkipped
  by_cases h : (s.bank b).position = some .term <;> simp [h, and_assoc]

theorem forcedPath_eq_none (s : State) (pl : Plane) : forcedPath s pl = none ↔ ∀ p, ¬ UsedOn s pl p :=
  find_finRange_none _ _ (usedOn_iff s pl)

theorem forcedPath_eq_some (s : State) (pl : Plane) (p : Slot) :
    forcedPath s pl = some p ↔ UsedOn s pl p ∧ ∀ q, q < p → ¬ UsedOn s pl q :=
  find_finRange_iff _ _ (usedOn_iff s pl) p

theorem forcedHome_eq_none (s : State) (pl : Plane) : forcedHome s pl = none ↔ ∀ b, ¬ ForcedHomeDue s pl b :=
  find_finRange_none _ _ (forcedHomeDue_iff s pl)

theorem forcedHome_eq_some (s : State) (pl : Plane) (b : BankId) :
    forcedHome s pl = some b ↔ ForcedHomeDue s pl b ∧ ∀ x, x < b → ¬ ForcedHomeDue s pl x :=
  find_finRange_iff _ _ (forcedHomeDue_iff s pl) b

/-- R72. -/
theorem planeDone_iff (s : State) (pl : Plane) : planeDone s pl = true ↔ PlaneDone s pl := by
  unfold planeDone PlaneDone
  simp only [Bool.and_eq_true, decide_eq_true_iff, forcedPath_eq_none, forcedHome_eq_none, and_assoc]

/-- R71, R72: what a driver with no leg in flight and no pause does in TEARDOWN. -/
theorem workForced_once (s : State) (pl : Plane) (hl : (s.driver pl).leg = none) (hp : (s.driver pl).pause = none) :
    workForced pl s =
      match forcedOnce pl (s.setDriver pl { s.driver pl with forced := true }) with
      | (true, s') => forcedLoop pl 64 s'
      | (false, s') => s' := by
  have h1 : ((s.setDriver pl { s.driver pl with forced := true }).driver pl).pause.isSome = false := by
    rw [driver_setDriver, if_pos rfl]
    simp [hp]
  unfold workForced
  rw [if_neg (by simp [hl])]
  dsimp only
  rw [if_neg (by rw [h1]; simp)]
  rfl

/-! ## A leg starts (R63) -/

theorem bank_startLeg (pl : Plane) (l : FlightLeg) (s : State) (b : BankId) :
    (startLeg pl l s).bank b = if b = l.bank then { s.bank l.bank with hotDeferrals := 0 } else s.bank b := by
  have : (startLeg pl l s).banks = (s.setBank l.bank { s.bank l.bank with hotDeferrals := 0 }).banks := by
    unfold startLeg takePass
    dsimp only
    split
    · rfl
    · split <;> rfl
  rw [bank_of_banks _ _ this, bank_setBank]

/-! ## SAFE reached, and the clearing of NODE_RESET (R142, R147) -/

theorem resetOwes_iff (s : State) (b : BankId) : clearedOwes s b = true ↔ ResetOwes s b := by
  unfold clearedOwes ResetOwes State.breakSkipped
  simp

theorem anyOwes_iff (s : State) : allBanks.any (clearedOwes s) = true ↔ ∃ b, ResetOwes s b := by
  rw [List.any_eq_true]
  exact ⟨fun ⟨b, _, h⟩ => ⟨b, (resetOwes_iff s b).1 h⟩,
    fun ⟨b, h⟩ => ⟨b, List.mem_finRange b, (resetOwes_iff s b).2 h⟩⟩

theorem causeErase_reset (c : BitVec 5) : causeErase .reset c = c &&& ~~~16#5 := by
  unfold causeErase
  congr 1

/-- R147, steps 1 to 5. -/
theorem clearWorking_eq (s : State) :
    clearWorking s =
      { clearedWorking s s.safe.state with
        banks := (clearWorking s).banks, safe := { s.safe with causes := s.safe.causes &&& ~~~16#5 } } := by
  have h : clearWorking s =
      { clearedWorking s s.safe.state with
        banks := (s.mapBanks fun b r => if clearedOwes s b then { r with homeOwed := true } else r).banks
        safe := { s.safe with causes := s.safe.causes &&& ~~~16#5 } } := by
    rw [← causeErase_reset]
    unfold clearWorking clearedWorking removeCause State.setRun State.setSup State.setRing State.setSafe State.mapBanks
    dsimp only
    congr 1
  rw [h]

theorem bank_clearWorking (s : State) (b : BankId) :
    (clearWorking s).bank b = if ResetOwes s b then { s.bank b with homeOwed := true } else s.bank b := by
  have h : (clearWorking s).bank b =
      if clearedOwes s b = true then { s.bank b with homeOwed := true } else s.bank b := vector_get_ofFn _ b
  rw [h]
  by_cases ho : ResetOwes s b
  · rw [if_pos ho, if_pos ((resetOwes_iff s b).2 ho)]
  · rw [if_neg ho, if_neg fun x => ho ((resetOwes_iff s b).1 x)]

theorem banks_clearWorking (s : State) (h : ∀ b, ¬ ResetOwes s b) : (clearWorking s).banks = s.banks := by
  ext i hi
  exact (bank_clearWorking s ⟨i, hi⟩).trans (if_neg (h ⟨i, hi⟩))

/-- R147: the last step. -/
theorem finishReset_eq (s : State) :
    finishReset s =
      if s.safe.causes = 0 then react (s.setSafe { s.safe with state := .normal, resetPending := false })
      else s.setSafe { s.safe with resetPending := false } := rfl

/-- R147: the clearing, where no bank comes to owe a home by it. -/
theorem clearing_done (s : State) (hs : s.safe.state = .safe) (h : ∀ b, ¬ ResetOwes s b) :
    clearing s =
      if s.safe.causes &&& ~~~16#5 = 0 then react (clearedWorking s .normal) else clearedWorking s .safe := by
  have hb := banks_clearWorking s h
  have hw : clearWorking s =
      { clearedWorking s .safe with safe := { s.safe with causes := s.safe.causes &&& ~~~16#5 } } := by
    rw [clearWorking_eq, hb, hs]
    rfl
  unfold clearing
  dsimp only
  rw [if_neg fun x => (anyOwes_iff s).1 x |>.elim h, hw, finishReset_eq]
  split
  · rfl
  · unfold clearedWorking State.setSafe
    dsimp only
    rw [hs]

/-- R147: the clearing, where some bank comes to owe a home by it. -/
theorem clearing_owing (s : State) (h : ∃ b, ResetOwes s b) :
    ∃ t, ClearedOwing s t ∧ clearing s = workForced .b (workForced .a t) := by
  have hb := bank_clearWorking s
  have hw := clearWorking_eq s
  unfold clearing
  dsimp only
  rw [if_pos ((anyOwes_iff s).2 h)]
  refine ⟨_, ⟨?_, ?_⟩, rfl⟩
  · generalize clearWorking s = w at hw ⊢
    rw [hw]
    rfl
  · intro b
    rw [← hb b]
    rfl

end Sys2Proof.Machine
end

