-- ==== Sys2Proof/Laws/Cursors.lean ====
section
/-! SUPPORT. That a cursor stays within its region (R78, R88) through the operations of the Path Set, the Change Queue,
the drivers, the Supervision Unit and the Safe Controller. One lemma per operation. -/

namespace Sys2Proof.Machine

theorem cursors_of_seqs {s t : State} (ht : t.seqs = s.seqs) (h : CursorsHold s) : CursorsHold t := by
  unfold CursorsHold; rw [ht]; exact h

theorem cursors_congr {s t : State} (ht : t.seqs = s.seqs) : CursorsHold t = CursorsHold s := by
  unfold CursorsHold; rw [ht]

theorem cursors_iff (s : State) : CursorsHold s ↔ ∀ st, CursorHolds (s.seq st) := by
  constructor
  · rintro ⟨h1, h2⟩ st; cases st <;> assumption
  · intro h; exact ⟨h .s1, h .s2⟩

/-- The run state keeps its place: the same cursor, copy and taken jump, and IDLE if it was. -/
def KeepsPlace (r r' : SeqRun) : Prop :=
  r'.cursor = r.cursor ∧ r'.copy = r.copy ∧ r'.jumpTaken = r.jumpTaken ∧ (r.state = .idle → r'.state = .idle)

theorem cursors_setRun (s : State) (st : Station) (r : SeqRun) (h : CursorsHold s)
    (hr : CursorHolds ⟨(s.seq st).cfg, r⟩) : CursorsHold (s.setRun st r) := by
  obtain ⟨h1, h2⟩ := h
  cases st
  · exact ⟨hr, h2⟩
  · exact ⟨h1, hr⟩

theorem cursorHolds_keeps {q : Sequencer} {r : SeqRun} (h : CursorHolds q) (hr : KeepsPlace q.run r) :
    CursorHolds ⟨q.cfg, r⟩ := by
  obtain ⟨ha, hb⟩ := h
  obtain ⟨h1, h2, h3, h4⟩ := hr
  refine ⟨ha, fun hs => ?_⟩
  have := hb (fun hi => hs (h4 hi))
  simpa [h1, h2, h3] using this

theorem cursorHolds_idle {q : Sequencer} {r : SeqRun} (h : CursorHolds q) (hr : r.state = .idle) :
    CursorHolds ⟨q.cfg, r⟩ := ⟨h.1, fun hs => absurd hr hs⟩

theorem cursors_keeps (s : State) (st : Station) (r : SeqRun) (h : CursorsHold s)
    (hr : KeepsPlace (s.seq st).run r) : CursorsHold (s.setRun st r) :=
  cursors_setRun s st r h (cursorHolds_keeps ((cursors_iff s).1 h st) hr)

theorem keeps_drop (r : SeqRun) (p : Slot) : KeepsPlace r (r.dropCurrent p) := by
  unfold SeqRun.dropCurrent; exact ⟨rfl, rfl, rfl, id⟩

theorem keeps_endChange (r : SeqRun) (e : Entry) : KeepsPlace r (r.endChange e) := by
  unfold SeqRun.endChange
  split
  · simp only
    split
    · rename_i h
      refine ⟨rfl, rfl, rfl, fun hi => ?_⟩
      simp [hi] at h
    · exact ⟨rfl, rfl, rfl, id⟩
  · exact ⟨rfl, rfl, rfl, id⟩

theorem keeps_trans {a b c : SeqRun} (h : KeepsPlace a b) (h' : KeepsPlace b c) : KeepsPlace a c :=
  ⟨h'.1.trans h.1, h'.2.1.trans h.2.1, h'.2.2.1.trans h.2.2.1, fun hi => h'.2.2.2 (h.2.2.2 hi)⟩

theorem keeps_regainOld (r : SeqRun) (e : Entry) (s : State) : KeepsPlace r (r.regainOld e s) := by
  unfold SeqRun.regainOld
  split
  · simp only
    split
    · exact ⟨rfl, rfl, rfl, id⟩
    · exact ⟨rfl, rfl, rfl, id⟩
  · exact ⟨rfl, rfl, rfl, id⟩

theorem keeps_convert (r : SeqRun) (e : Entry) : KeepsPlace r (r.convertChange e) := by
  exact ⟨rfl, rfl, rfl, id⟩

theorem idle_safeEntry (r : SeqRun) : r.safeEntry.state = .idle := by
  unfold SeqRun.safeEntry
  simp only
  split <;> rfl

@[simp] theorem cursors_raise (s : State) (e : Event) : CursorsHold (s.raise e) = CursorsHold s := cursors_congr rfl

@[simp] theorem cursors_setBank (s : State) (b : BankId) (x : BankRecord) : CursorsHold (s.setBank b x) = CursorsHold s := cursors_congr rfl

@[simp] theorem cursors_recordPosition (s : State) (b : BankId) (x : Position) : CursorsHold (s.recordPosition b x) = CursorsHold s := cursors_congr rfl

@[simp] theorem cursors_setHolder (s : State) (b : BankId) (x : Option Slot) : CursorsHold (s.setHolder b x) = CursorsHold s := cursors_congr rfl

@[simp] theorem cursors_setHomeOwed (s : State) (b : BankId) (x : Bool) : CursorsHold (s.setHomeOwed b x) = CursorsHold s := cursors_congr rfl

@[simp] theorem cursors_setPath (s : State) (p : Slot) (x : PathRecord) : CursorsHold (s.setPath p x) = CursorsHold s := cursors_congr rfl

@[simp] theorem cursors_setTracker (s : State) (p : Plane) (x : Tracker) : CursorsHold (s.setTracker p x) = CursorsHold s := cursors_congr rfl

@[simp] theorem cursors_setDriver (s : State) (p : Plane) (x : Driver) : CursorsHold (s.setDriver p x) = CursorsHold s := cursors_congr rfl

@[simp] theorem cursors_setQueue (s : State) (x : List Entry) : CursorsHold (s.setQueue x) = CursorsHold s := cursors_congr rfl

@[simp] theorem cursors_setSup (s : State) (x : Supervision) : CursorsHold (s.setSup x) = CursorsHold s := cursors_congr rfl

@[simp] theorem cursors_setSafe (s : State) (x : SafeController) : CursorsHold (s.setSafe x) = CursorsHold s := cursors_congr rfl

@[simp] theorem cursors_setCounter (s : State) (b : BankId) (k : FaultKind) (n : Nat) : CursorsHold (s.setCounter b k n) = CursorsHold s := cursors_congr rfl

@[simp] theorem cursors_setFaults (s : State) (b : BankId) (x : KindSet) : CursorsHold (s.setFaults b x) = CursorsHold s := cursors_congr rfl

@[simp] theorem cursors_redraw (s : State) : CursorsHold (s.redraw) = CursorsHold s := cursors_congr rfl

@[simp] theorem cursors_mapBanks (s : State) (f : BankId → BankRecord → BankRecord) :
    CursorsHold (s.mapBanks f) = CursorsHold s := by
  unfold CursorsHold State.mapBanks
  rfl

theorem cursors_foldl {α : Type} (f : State → α → State)
    (hf : ∀ s a, CursorsHold s → CursorsHold (f s a)) (as : List α) (s : State) (h : CursorsHold s) :
    CursorsHold (as.foldl f s) := by
  induction as generalizing s with
  | nil => exact h
  | cons a as ih => exact ih _ (hf s a h)

theorem cursors_eachPlane (f : Plane → State → State)
    (hf : ∀ p s, CursorsHold s → CursorsHold (f p s)) (s : State) (h : CursorsHold s) :
    CursorsHold (eachPlane f s) := by
  have h0 : CursorsHold s.redraw := h
  unfold eachPlane
  split
  · exact hf _ _ (hf _ _ h0)
  · exact hf _ _ (hf _ _ h0)

@[simp] theorem cursors_freeSlot (s : State) (p : Slot) (h : CursorsHold s) :
    CursorsHold (freeSlot p s) := by
  unfold freeSlot
  simp only [cursors_raise]
  apply cursors_keeps
  · apply cursors_keeps
    · simpa using h
    · exact keeps_drop _ _
  · exact keeps_drop _ _

@[simp] theorem cursors_placeMake (s : State) (st : Station) (org : ChangeOrigin) (r : RouteId) (p : Slot) (h : CursorsHold s) :
    CursorsHold (placeMake s st org r p) := by
  simp (maxDischargeDepth := 40) [h, placeMake]

@[simp] theorem cursors_placeSwap (s : State) (st : Station) (org : ChangeOrigin) (o : Slot) (r : RouteId) (p : Slot) (h : CursorsHold s) :
    CursorsHold (placeSwap s st org o r p) := by
  simp (maxDischargeDepth := 40) [h, placeSwap]

@[simp] theorem cursors_acceptBreak (s : State) (p : Slot) (org : ChangeOrigin) (x : Option PriorState) (h : CursorsHold s) :
    CursorsHold (acceptBreak p org x s) := by
  simp (maxDischargeDepth := 40) [h, acceptBreak]

@[simp] theorem cursors_goLive (s : State) (p : Slot) (h : CursorsHold s) :
    CursorsHold (goLive p s) := by
  simp (maxDischargeDepth := 40) [h, goLive]

@[simp] theorem cursors_startSettling (s : State) (p : Slot) (h : CursorsHold s) :
    CursorsHold (startSettling p s) := by
  unfold startSettling
  split <;> simp (maxDischargeDepth := 40) [h]

@[simp] theorem cursors_failSlot (s : State) (p : Slot) (why : FailReason) (h : CursorsHold s) :
    CursorsHold (failSlot p why s) := by
  unfold failSlot
  simp only
  split <;> simp (maxDischargeDepth := 40) [h]

@[simp] theorem cursors_notifyEnded (s : State) (e : Entry) (c : Bool) (h : CursorsHold s) :
    CursorsHold (notifyEnded e c s) := by
  unfold notifyEnded
  split
  · simp only
    apply cursors_keeps _ _ _ h
    split
    · exact keeps_trans (keeps_endChange _ _) (keeps_regainOld _ _ _)
    · exact keeps_endChange _ _
  · exact h

@[simp] theorem cursors_clearHeld (s : State) (pl : Plane) (h : CursorsHold s) :
    CursorsHold (clearHeld pl s) := by
  simp (maxDischargeDepth := 40) [h, clearHeld]

@[simp] theorem cursors_removeEntry (s : State) (e : Entry) (h : CursorsHold s) :
    CursorsHold (removeEntry e s) := by
  unfold removeEntry
  split <;> simp (maxDischargeDepth := 40) [h]

@[simp] theorem cursors_applyCloseOwed (s : State) (p : Slot) (h : CursorsHold s) :
    CursorsHold (applyCloseOwed p s) := by
  unfold applyCloseOwed
  simp only
  split <;> simp (maxDischargeDepth := 40) [h]

@[simp] theorem cursors_settleFormed (s : State) (p : Slot) (h : CursorsHold s) :
    CursorsHold (settleFormed p s) := by
  unfold settleFormed
  simp only
  split <;> simp (maxDischargeDepth := 40) [h]

@[simp] theorem cursors_freeOpt (s : State) (p : Option Slot) (h : CursorsHold s) :
    CursorsHold (freeOpt p s) := by
  unfold freeOpt
  split <;> simp (maxDischargeDepth := 40) [h]

@[simp] theorem cursors_completeEntry (s : State) (e : Entry) (h : CursorsHold s) :
    CursorsHold (completeEntry e s) := by
  unfold completeEntry
  split <;> simp (maxDischargeDepth := 40) [h]

@[simp] theorem cursors_failPaths (s : State) (e : Entry) (h : CursorsHold s) :
    CursorsHold (failPaths e s) := by
  unfold failPaths
  repeat' split
  all_goals simp (maxDischargeDepth := 40) [h]

@[simp] theorem cursors_recordFailure (s : State) (e : Entry) (why : EntryFailure) (b : Option BankId)
    (r : Option RouteId) (h : CursorsHold s) : CursorsHold (recordFailure e why b r s) := h

@[simp] theorem cursors_failEntry (s : State) (e : Entry) (why : EntryFailure) (b : Option BankId) (h : CursorsHold s) :
    CursorsHold (failEntry e why b s) := by
  unfold failEntry
  split <;> simp (maxDischargeDepth := 40) [h]

@[simp] theorem cursors_returnBanks (s : State) (o n : Slot) (h : CursorsHold s) :
    CursorsHold (returnBanks o n s) := by
  simp (maxDischargeDepth := 40) [h, returnBanks]

@[simp] theorem cursors_undoAcceptance (s : State) (e : Entry) (h : CursorsHold s) :
    CursorsHold (undoAcceptance e s) := by
  unfold undoAcceptance
  split <;> simp (maxDischargeDepth := 40) [h]

@[simp] theorem cursors_cancelEntry (s : State) (e : Entry) (h : CursorsHold s) :
    CursorsHold (cancelEntry e s) := by
  simp (maxDischargeDepth := 40) [h, cancelEntry]

@[simp] theorem cursors_cancelAll (s : State) (es : List Entry) (h : CursorsHold s) :
    CursorsHold (cancelAll es s) :=
  cursors_foldl _ (fun s e => cursors_cancelEntry s e) es s h

@[simp] theorem cursors_convertSwap (s : State) (e : Entry) (o n : Slot) (h : CursorsHold s) :
    CursorsHold (convertSwap e o n s) := by
  unfold convertSwap
  simp only [cursors_setQueue]
  repeat' split
  all_goals first
    | (simp (maxDischargeDepth := 40) [h]; done)
    | (simp (maxDischargeDepth := 40) [cursors_keeps _ _ _ h (keeps_convert _ _)])

@[simp] theorem cursors_failIdleHead (s : State) (pl : Plane) (h : CursorsHold s) :
    CursorsHold (failIdleHead pl s) := by
  unfold failIdleHead
  repeat' split
  all_goals simp (maxDischargeDepth := 40) [h]

@[simp] theorem cursors_enterGrace (s : State) (h : CursorsHold s) : CursorsHold (enterGrace s) := by
  unfold enterGrace
  apply cursors_eachPlane _ (fun p s => cursors_failIdleHead s p)
  apply cursors_cancelAll
  apply cursors_setRun
  · apply cursors_setRun
    · simpa using h
    · exact cursorHolds_idle ((cursors_iff _).1 (by simpa using h) .s1) (idle_safeEntry _)
  · refine cursorHolds_idle ((cursors_iff _).1 ?_ .s2) (idle_safeEntry _)
    apply cursors_setRun
    · simpa using h
    · exact cursorHolds_idle ((cursors_iff _).1 (by simpa using h) .s1) (idle_safeEntry _)

@[simp] theorem cursors_addCause (s : State) (c : SafeCause) (h : CursorsHold s) :
    CursorsHold (addCause c s) := by
  unfold addCause
  split <;> simp (maxDischargeDepth := 40) [h]

@[simp] theorem cursors_removeCause (s : State) (c : SafeCause) (h : CursorsHold s) :
    CursorsHold (removeCause c s) := by
  simp (maxDischargeDepth := 40) [h, removeCause]

@[simp] theorem cursors_failHolder (s : State) (b : BankId) (k : FaultKind) (h : CursorsHold s) :
    CursorsHold (failHolder b k s) := by
  unfold failHolder
  simp only
  repeat' split
  all_goals simp (maxDischargeDepth := 40) [h]

@[simp] theorem cursors_becomeValid (s : State) (b : BankId) (k : FaultKind) (h : CursorsHold s) :
    CursorsHold (becomeValid b k s) := by
  unfold becomeValid
  simp only
  split <;> simp (maxDischargeDepth := 40) [h]

@[simp] theorem cursors_takePass (s : State) (b : BankId) (k : FaultKind) (h : CursorsHold s) :
    CursorsHold (takePass b k s) := by
  unfold takePass
  split <;> simp (maxDischargeDepth := 40) [h]

@[simp] theorem cursors_takeMiss (s : State) (b : BankId) (k : FaultKind) (h : CursorsHold s) :
    CursorsHold (takeMiss b k s) := by
  unfold takeMiss
  simp only
  repeat' split
  all_goals simp (maxDischargeDepth := 40) [h]

@[simp] theorem cursors_reportWorn (s : State) (b : BankId) (h : CursorsHold s) :
    CursorsHold (reportWorn b s) := by
  unfold reportWorn
  split <;> simp (maxDischargeDepth := 40) [h]

@[simp] theorem cursors_updateEntry (s : State) (e e' : Entry) (h : CursorsHold s) :
    CursorsHold (updateEntry e e' s) := by
  simp (maxDischargeDepth := 40) [h, updateEntry]

@[simp] theorem cursors_addLegDone (s : State) (p : Slot) (h : CursorsHold s) :
    CursorsHold (addLegDone p s) := by
  simp (maxDischargeDepth := 40) [h, addLegDone]

@[simp] theorem cursors_afterLeg (s : State) (e : Entry) (h : CursorsHold s) :
    CursorsHold (afterLeg e s) := by
  unfold afterLeg
  repeat' split
  all_goals simp (maxDischargeDepth := 40) [h]

@[simp] theorem cursors_endLeg (s : State) (e : Entry) (l : PlanLeg) (h : CursorsHold s) :
    CursorsHold (endLeg e l s) := by
  unfold endLeg
  split <;> simp (maxDischargeDepth := 40) [h]

@[simp] theorem cursors_deferHot (s : State) (b : BankId) (h : CursorsHold s) :
    CursorsHold (deferHot b s) := by
  simp (maxDischargeDepth := 40) [h, deferHot]

@[simp] theorem cursors_holdLeg (s : State) (pl : Plane) (l : PlanLeg) (w : WaitReason) (h : CursorsHold s) :
    CursorsHold (holdLeg pl l w s) := by
  simp (maxDischargeDepth := 40) [h, holdLeg]

@[simp] theorem cursors_passHome (s : State) (pl : Plane) (b : BankId) (h : CursorsHold s) :
    CursorsHold (passHome pl b s) := by
  simp (maxDischargeDepth := 40) [h, passHome]

@[simp] theorem cursors_startLeg (s : State) (pl : Plane) (l : FlightLeg) (h : CursorsHold s) :
    CursorsHold (startLeg pl l s) := by
  unfold startLeg
  split <;> simp (maxDischargeDepth := 40) [h]

@[simp] theorem cursors_startEntryLeg (s : State) (pl : Plane) (e : Entry) (l : PlanLeg) (h : CursorsHold s) :
    CursorsHold (startEntryLeg pl e l s) := by
  unfold startEntryLeg
  split <;> simp (maxDischargeDepth := 40) [h]

@[simp] theorem cursors_meetHot (s : State) (pl : Plane) (e : Entry) (l : PlanLeg) (h : CursorsHold s) :
    CursorsHold (meetHot pl e l s).2 := by
  unfold meetHot
  simp only
  repeat' split
  all_goals simp (maxDischargeDepth := 40) [h]

@[simp] theorem cursors_checkLeg (s : State) (pl : Plane) (e : Entry) (l : PlanLeg) (h : CursorsHold s) :
    CursorsHold (checkLeg pl e l s).2 := by
  unfold checkLeg
  repeat' split
  all_goals simp (maxDischargeDepth := 40) [h]

@[simp] theorem cursors_takeLeg (s : State) (pl : Plane) (e : Entry) (l : PlanLeg) (h : CursorsHold s) :
    CursorsHold (takeLeg pl e l s).2 := by
  unfold takeLeg
  repeat' split
  all_goals simp (maxDischargeDepth := 40) [h]

@[simp] theorem cursors_takeEntry (s : State) (pl : Plane) (e : Entry) (h : CursorsHold s) :
    CursorsHold (takeEntry pl e s).2 := by
  unfold takeEntry
  split <;> simp (maxDischargeDepth := 40) [h]

@[simp] theorem cursors_takeHome (s : State) (pl : Plane) (b : BankId) (h : CursorsHold s) :
    CursorsHold (takeHome pl b s).2 := by
  unfold takeHome
  repeat' split
  all_goals simp (maxDischargeDepth := 40) [h]

@[simp] theorem cursors_chooseOnce (s : State) (pl : Plane) (h : CursorsHold s) :
    CursorsHold (chooseOnce pl s).2 := by
  unfold chooseOnce
  repeat' split
  all_goals simp (maxDischargeDepth := 40) [h]

@[simp] theorem cursors_chooseLoop (s : State) (pl : Plane) (n : Nat) (h : CursorsHold s) :
    CursorsHold (chooseLoop pl n s) := by
  induction n generalizing s with
  | zero => exact h
  | succ n ih =>
    unfold chooseLoop
    split
    · have h1 := cursors_chooseOnce s pl h
      split <;> simp_all
    · exact h

@[simp] theorem cursors_choosePlane (s : State) (pl : Plane) (h : CursorsHold s) :
    CursorsHold (choosePlane pl s) := by
  simp (maxDischargeDepth := 40) [h, choosePlane]

@[simp] theorem cursors_chooseBoth (s : State) (h : CursorsHold s) : CursorsHold (chooseBoth s) := by
  unfold chooseBoth
  split
  · exact cursors_eachPlane _ (fun p s => cursors_choosePlane s p) s h
  · simp (maxDischargeDepth := 40) [h]

@[simp] theorem cursors_closeForced (s : State) (p : Slot) (h : CursorsHold s) :
    CursorsHold (closeForced p s) := by
  unfold closeForced
  simp only
  split <;> simp (maxDischargeDepth := 40) [h]

@[simp] theorem cursors_endForcedBreak (s : State) (p : Slot) (b : BankId) (h : CursorsHold s) :
    CursorsHold (endForcedBreak p b s) := by
  unfold endForcedBreak
  simp only
  repeat' split
  all_goals simp (maxDischargeDepth := 40) [h]

@[simp] theorem cursors_takeForcedBreak (s : State) (pl : Plane) (p : Slot) (b : BankId) (h : CursorsHold s) :
    CursorsHold (takeForcedBreak pl p b s).2 := by
  unfold takeForcedBreak
  repeat' split
  all_goals simp (maxDischargeDepth := 40) [h]

@[simp] theorem cursors_forcedOnce (s : State) (pl : Plane) (h : CursorsHold s) :
    CursorsHold (forcedOnce pl s).2 := by
  unfold forcedOnce
  simp only
  repeat' split
  all_goals simp (maxDischargeDepth := 40) [h]

@[simp] theorem cursors_forcedLoop (s : State) (pl : Plane) (n : Nat) (h : CursorsHold s) :
    CursorsHold (forcedLoop pl n s) := by
  induction n generalizing s with
  | zero => exact h
  | succ n ih =>
    unfold forcedLoop
    have h1 := cursors_forcedOnce s pl h
    split <;> simp_all

@[simp] theorem cursors_workForced (s : State) (pl : Plane) (h : CursorsHold s) :
    CursorsHold (workForced pl s) := by
  unfold workForced
  simp only
  repeat' split
  all_goals simp (maxDischargeDepth := 40) [h]

@[simp] theorem cursors_owedInSafe (s : State) (h : CursorsHold s) :
    CursorsHold (owedInSafe s) := by
  unfold owedInSafe
  split <;> simp (maxDischargeDepth := 40) [h]

@[simp] theorem cursors_endDrive (s : State) (pl : Plane) (h : CursorsHold s) :
    CursorsHold (endDrive pl s) := by
  unfold endDrive
  simp only
  repeat' split
  all_goals simp (maxDischargeDepth := 40) [h]

@[simp] theorem cursors_restDriver (s : State) (pl : Plane) (h : CursorsHold s) :
    CursorsHold (restDriver pl s) := by
  simp (maxDischargeDepth := 40) [h, restDriver]

@[simp] theorem cursors_recordMatch (s : State) (l : FlightLeg) (h : CursorsHold s) :
    CursorsHold (recordMatch l s) := by
  simp (maxDischargeDepth := 40) [h, recordMatch]

@[simp] theorem cursors_failSafeHead (s : State) (pl : Plane) (b : BankId) (h : CursorsHold s) :
    CursorsHold (failSafeHead pl b s) := by
  unfold failSafeHead
  repeat' split
  all_goals simp (maxDischargeDepth := 40) [h]

@[simp] theorem cursors_endMatched (s : State) (pl : Plane) (l : FlightLeg) (h : CursorsHold s) :
    CursorsHold (endMatched pl l s) := by
  unfold endMatched
  repeat' split
  all_goals simp (maxDischargeDepth := 40) [h]

@[simp] theorem cursors_endMismatched (s : State) (pl : Plane) (l : FlightLeg) (h : CursorsHold s) :
    CursorsHold (endMismatched pl l s) := by
  unfold endMismatched
  repeat' split
  all_goals simp (maxDischargeDepth := 40) [h]

@[simp] theorem cursors_openWindow (s : State) (tag : Byte) (n : Nat) (pl : Plane) (h : CursorsHold s) :
    CursorsHold (openWindow tag n pl s) := by
  unfold openWindow
  simp only
  split <;> simp (maxDischargeDepth := 40) [h]

@[simp] theorem cursors_noteOverrun (s : State) (pl : Plane) (h : CursorsHold s) :
    CursorsHold (noteOverrun pl s) := by
  unfold noteOverrun
  simp only
  split
  · split <;> exact h
  · exact h

@[simp] theorem cursors_closeWindow (s : State) (pl : Plane) (h : CursorsHold s) :
    CursorsHold (closeWindow pl s) := by
  simp (maxDischargeDepth := 40) [h, closeWindow]

@[simp] theorem cursors_shutWindow (s : State) (tag : Byte) (pl : Plane) (h : CursorsHold s) :
    CursorsHold (shutWindow tag pl s) := by
  unfold shutWindow
  simp only
  split <;> simp (maxDischargeDepth := 40) [h]

@[simp] theorem cursors_finishReset (s : State) (h : CursorsHold s) : CursorsHold (finishReset s) := by
  unfold finishReset
  simp only
  split <;> simp (maxDischargeDepth := 40) [h]

theorem cursorHolds_resetRun {q : Sequencer} (h : CursorHolds q) : CursorHolds ⟨q.cfg, SeqRun.reset⟩ :=
  cursorHolds_idle h rfl

@[simp] theorem cursors_clearWorking (s : State) (h : CursorsHold s) : CursorsHold (clearWorking s) := by
  unfold clearWorking
  apply cursors_removeCause
  obtain ⟨h1, h2⟩ := h
  exact ⟨⟨h1.1, fun hs => absurd rfl hs⟩, ⟨h2.1, fun hs => absurd rfl hs⟩⟩

@[simp] theorem cursors_clearing (s : State) (h : CursorsHold s) : CursorsHold (clearing s) := by
  unfold clearing
  simp only
  split <;> simp (maxDischargeDepth := 40) [h]

@[simp] theorem cursors_reachSafe (s : State) (h : CursorsHold s) : CursorsHold (reachSafe s) := by
  unfold reachSafe
  simp only
  split
  · exact cursors_clearing _ h
  · split
    · exact cursors_finishReset _ h
    · exact h

@[simp] theorem cursors_settleTeardown (s : State) (h : CursorsHold s) : CursorsHold (settleTeardown s) := by
  unfold settleTeardown
  simp only
  split <;> simp (maxDischargeDepth := 40) [h]

@[simp] theorem cursors_react (s : State) (h : CursorsHold s) : CursorsHold (react s) := by
  unfold react
  split <;> simp (maxDischargeDepth := 40) [h]

@[simp] theorem cursors_takeReadback (s : State) (pl : Plane) (h : CursorsHold s) : CursorsHold (takeReadback pl s) := by
  unfold takeReadback
  simp only
  repeat' split
  all_goals simp (maxDischargeDepth := 40) [h]

@[simp] theorem cursors_endPause (s : State) (pl : Plane) (h : CursorsHold s) : CursorsHold (endPause pl s) := by
  unfold endPause
  split
  · exact h
  · rename_i x _
    simp only
    split
    · rename_i p _
      split
      · have h := cursors_takeForcedBreak (s.setDriver pl { s.driver pl with pause := none }) pl p x.leg.bank h
        split <;> simp_all
      · simp [h]
    · split <;> simp [h]
    · split <;> simp [h]
    · split <;> simp [h]

@[simp] theorem cursors_startVisit (s : State) (b : BankId) (h : CursorsHold s) :
    CursorsHold (startVisit b s) := by
  simp (maxDischargeDepth := 40) [h, startVisit]

@[simp] theorem cursors_endCycle (s : State) (h : CursorsHold s) :
    CursorsHold (endCycle s) := by
  unfold endCycle
  simp only
  repeat' split
  all_goals simp (maxDischargeDepth := 40) [h]

@[simp] theorem cursors_seekVisit (s : State) (n : Nat) (h : CursorsHold s) :
    CursorsHold (seekVisit n s) := by
  unfold seekVisit
  split <;> simp (maxDischargeDepth := 40) [h]

@[simp] theorem cursors_startCycle (s : State) (h : CursorsHold s) :
    CursorsHold (startCycle s) := by
  simp (maxDischargeDepth := 40) [h, startCycle]

@[simp] theorem cursors_checkCoil (s : State) (b : BankId) (x : Sample) (h : CursorsHold s) :
    CursorsHold (checkCoil b x s) := by
  unfold checkCoil
  split <;> simp (maxDischargeDepth := 40) [h]

@[simp] theorem cursors_checkDrift (s : State) (b : BankId) (r : BankRecord) (x : Sample) (h : CursorsHold s) :
    CursorsHold (checkDrift b r x s) := by
  unfold checkDrift
  repeat' split
  all_goals simp (maxDischargeDepth := 40) [h]

@[simp] theorem cursors_checkStray (s : State) (b : BankId) (r : BankRecord) (x : Sample) (h : CursorsHold s) :
    CursorsHold (checkStray b r x s) := by
  unfold checkStray
  repeat' split
  all_goals simp (maxDischargeDepth := 40) [h]

@[simp] theorem cursors_keepSample (s : State) (b : BankId) (x : Sample) (h : CursorsHold s) :
    CursorsHold (keepSample b x s) := by
  simp (maxDischargeDepth := 40) [h, keepSample]

@[simp] theorem cursors_judgeVisit (s : State) (b : BankId) (x : Sample) (h : CursorsHold s) :
    CursorsHold (judgeVisit b x s) := by
  unfold judgeVisit
  split <;> simp (maxDischargeDepth := 40) [h]

@[simp] theorem cursors_endVisit (s : State) (h : CursorsHold s) :
    CursorsHold (endVisit s) := by
  unfold endVisit
  simp only
  repeat' split
  all_goals simp (maxDischargeDepth := 40) [h]

@[simp] theorem cursors_retimeVisits (s : State) (h : CursorsHold s) : CursorsHold (retimeVisits s) := by
  unfold retimeVisits
  repeat' split
  all_goals simp [h]

end Sys2Proof.Machine
end

