-- ==== Sys2Proof/Laws/CursorSequencer.lean ====
section
/-! SUPPORT. That a cursor stays within its region (R88) through the operations of the List Sequencers: evaluation,
arrival, retries, the end of a step, CADENCE frames, and SEQ_RUN, SEQ_RESUME and SEQ_STOP. -/

namespace Sys2Proof.Machine

/-- R88 for one sequencer whatever its state: admitted settings, and the cursor and a taken jump within the region. -/
def Steady (q : Sequencer) : Prop :=
  SettingsAdmitted q.cfg ∧ InRegion q.cfg q.run.cursor ∧
    ∀ t, q.run.copy.kind = .jump t → q.run.jumpTaken = true → InRegion q.cfg t

/-- Both cursors hold, and the sequencer of the station is steady. -/
def OnStep (st : Station) (s : State) : Prop := CursorsHold s ∧ Steady (s.seq st)

/-- The run states agree in cursor, copy and taken jump. -/
def SamePlace (r r' : SeqRun) : Prop := r'.cursor = r.cursor ∧ r'.copy = r.copy ∧ r'.jumpTaken = r.jumpTaken

theorem holds_of_steady {q : Sequencer} (h : Steady q) : CursorHolds q := ⟨h.1, fun _ => h.2⟩

theorem steady_same {q : Sequencer} {r : SeqRun} (h : Steady q) (hr : SamePlace q.run r) : Steady ⟨q.cfg, r⟩ := by
  obtain ⟨h1, h2, h3⟩ := h
  obtain ⟨a, b, c⟩ := hr
  exact ⟨h1, by simpa [a] using h2, by simpa [b, c] using h3⟩

theorem onStep_congr {st : Station} {s t : State} (ht : t.seqs = s.seqs) (h : OnStep st s) : OnStep st t := by
  obtain ⟨h1, h2⟩ := h
  refine ⟨cursors_of_seqs ht h1, ?_⟩
  have : t.seq st = s.seq st := by unfold State.seq; rw [ht]
  rw [this]; exact h2

theorem onStep_setRun {st : Station} {s : State} (r : SeqRun) (h : CursorsHold s) (hr : Steady ⟨(s.seq st).cfg, r⟩) :
    OnStep st (s.setRun st r) := by
  refine ⟨cursors_setRun s st r h (holds_of_steady hr), ?_⟩
  cases st <;> exact hr

theorem onStep_same {st : Station} {s : State} (r : SeqRun) (h : OnStep st s) (hr : SamePlace (s.seq st).run r) :
    OnStep st (s.setRun st r) := onStep_setRun r h.1 (steady_same h.2 hr)

theorem onStep_faultSeq {st : Station} {s : State} (pl : Option Plane) (why : SeqFaultReason) (h : OnStep st s) :
    OnStep st (faultSeq st pl why s) := by
  unfold faultSeq
  exact onStep_congr (s := s.setRun st _) rfl (onStep_same _ h ⟨rfl, rfl, rfl⟩)

theorem onStep_takeAccepted {st : Station} {s : State} (pl : Plane) (o n : Option Slot) (h : OnStep st s) :
    OnStep st (takeAccepted st pl o n s) := by
  unfold takeAccepted
  exact onStep_same _ h ⟨rfl, rfl, rfl⟩

theorem seqs_acceptMake {s s' : State} {st org r p} (h : acceptMake s st org r = .ok (p, s')) : s'.seqs = s.seqs := by
  unfold acceptMake at h
  split at h
  · cases h
  · split at h
    · cases h
    · cases h; simp [placeMake]

theorem seqs_acceptSwap {s s' : State} {st org o r p} (h : acceptSwap s st org o r = .ok (p, s')) : s'.seqs = s.seqs := by
  unfold acceptSwap at h
  split at h
  · cases h
  · split at h
    · cases h
    · split at h
      · cases h
      · cases h; simp [placeSwap]

theorem onStep_askMake {st : Station} {s : State} (pl : Plane) (r : RouteId) (h : OnStep st s) :
    OnStep st (askMake st pl r s).2 := by
  unfold askMake
  split
  · rename_i hs; exact onStep_takeAccepted _ _ _ (onStep_congr (seqs_acceptMake hs) h)
  · exact h

theorem onStep_askSwap {st : Station} {s : State} (pl : Plane) (r : RouteId) (h : OnStep st s) :
    OnStep st (askSwap st pl r s).2 := by
  unfold askSwap
  split
  · exact h
  · split
    · rename_i hs; exact onStep_takeAccepted _ _ _ (onStep_congr (seqs_acceptSwap hs) h)
    · exact h

theorem onStep_askBreak {st : Station} {s : State} (pl : Plane) (o : Slot) (h : OnStep st s) :
    OnStep st (askBreak st pl o s).2 := by
  unfold askBreak
  exact onStep_takeAccepted _ _ _ (onStep_congr rfl h)

theorem onStep_evalPlane {st : Station} {s : State} (pl : Plane) (h : OnStep st s) :
    OnStep st (evalPlane st pl s).2 := by
  unfold evalPlane evalClear evalRoute
  simp only
  repeat' split
  all_goals first
    | exact h
    | exact onStep_askMake _ _ h
    | exact onStep_askSwap _ _ h
    | exact onStep_askBreak _ _ h

theorem onStep_writeOutcome {st : Station} (pl : Plane) (y : PlaneOutcome × State) (h : OnStep st y.2) :
    OnStep st (writeOutcome st pl y).2 := by
  obtain ⟨o, s⟩ := y
  cases o
  · exact h
  · exact h
  · exact onStep_same _ h ⟨rfl, rfl, rfl⟩
  · exact onStep_faultSeq _ _ h

theorem seq_setRun_other {st q : Station} (hq : q ≠ st) (s : State) (r : SeqRun) : (s.setRun q r).seq st = s.seq st := by
  cases q <;> cases st <;> first | rfl | exact absurd rfl hq

theorem inRegion_of {c : SeqSettings} {n : StepId} (h : c.inRegion n = true) : InRegion c n := by
  simpa [SeqSettings.inRegion, InRegion] using h

theorem onStep_evalJump {st : Station} {s : State} (t : StepId) (hk : (s.run st).copy.kind = .jump t)
    (h : OnStep st s) : OnStep st (evalJump st t s).2 := by
  unfold evalJump
  simp only
  repeat' split
  · rename_i _ hr
    refine onStep_setRun _ h.1 ⟨h.2.1, h.2.2.1, fun u hu _ => ?_⟩
    have hu' : (s.run st).copy.kind = .jump u := hu
    rw [hk] at hu'
    cases hu'
    exact inRegion_of hr
  · exact onStep_faultSeq _ _ h
  · exact h

theorem onStep_settleSeq {st : Station} {s : State} (h : OnStep st s) : OnStep st (settleSeq st s) := by
  unfold settleSeq
  simp only
  split
  · exact onStep_congr (s := s.setRun st _) rfl (onStep_same _ h ⟨rfl, rfl, rfl⟩)
  · split <;> exact onStep_same _ h ⟨rfl, rfl, rfl⟩

theorem onStep_settleUnlessFaulted {st : Station} (y : Bool × State) (h : OnStep st y.2) :
    OnStep st (settleUnlessFaulted st y) := by
  obtain ⟨b, s⟩ := y
  cases b
  · exact onStep_settleSeq h
  · exact h

theorem onStep_arriveAt {st : Station} {s : State} (n : StepId) (lb : Bool) (h : CursorsHold s)
    (hn : InRegion (s.seq st).cfg n) : OnStep st (arriveAt st n lb s) := by
  have hc := ((cursors_iff s).1 h st).1
  unfold arriveAt
  simp only
  split
  · refine onStep_congr (s := s.setRun st _) rfl (onStep_setRun _ h ⟨hc, hn, fun t _ hj => ?_⟩)
    cases hj
  · refine onStep_setRun _ h ⟨hc, hn, fun t _ hj => ?_⟩
    cases hj

theorem onStep_arriveA {st : Station} {s : State} (n : StepId) (lb : Bool) (h : CursorsHold s)
    (hn : InRegion (s.seq st).cfg n) : OnStep st (arriveA st n lb s).2 := by
  have h1 := onStep_arriveAt n lb h hn
  unfold arriveA
  simp only
  split
  · rename_i t hk
    exact onStep_settleUnlessFaulted _ (onStep_evalJump t hk h1)
  · have h2 := onStep_writeOutcome .a (evalPlane st .a (arriveAt st n lb s)) (onStep_evalPlane .a h1)
    split
    · rename_i s1 hs; rw [hs] at h2; exact h2
    · rename_i s1 hs; rw [hs] at h2; exact h2

theorem onStep_retryPlane {st : Station} {s : State} (pl : Plane) (h : OnStep st s) : OnStep st (retryPlane st pl s).2 := by
  unfold retryPlane
  simp only
  split
  · rename_i call r _ _
    have hy : ∀ y : PlaneOutcome × State, OnStep st y.2 →
        OnStep st (match y with
         | (.applied, s1) => (false, s1.setRun st { s1.run st with stalled := (s1.run st).stalled.set pl none })
         | (.faulted why, s1) => (true, faultSeq st (some pl) why s1)
         | (_, s1) => (false, s1) : Bool × State).2 := by
      rintro ⟨o, s1⟩ hy
      cases o
      · exact hy
      · exact onStep_same _ hy ⟨rfl, rfl, rfl⟩
      · exact hy
      · exact onStep_faultSeq _ _ hy
    cases call
    · exact hy _ (onStep_askMake pl r h)
    · exact hy _ (onStep_askSwap pl r h)
  · exact h

theorem onStep_afterRetry {st : Station} {s : State} (h : OnStep st s) : OnStep st (afterRetry st s) := by
  unfold afterRetry
  simp only
  split
  · exact h
  · split <;> exact onStep_same _ h ⟨rfl, rfl, rfl⟩

theorem onStep_retryA {st : Station} {s : State} (h : OnStep st s) : OnStep st (retryA st s).2 := by
  unfold retryA
  have h1 := onStep_retryPlane .a h
  split
  · rename_i s1 hs; rw [hs] at h1; exact h1
  · rename_i s1 hs; rw [hs] at h1; exact h1

/-- Plane B keeps both cursors in place; of a turn that is over nothing is asked but that it holds. -/
theorem onStep_finishTurn {st : Station} (y : TurnRest × State) (h : OnStep st y.2) : OnStep st (finishTurn st y) := by
  obtain ⟨r, s⟩ := y
  cases r
  · exact h
  · exact onStep_settleUnlessFaulted _ (onStep_writeOutcome .b _ (onStep_evalPlane .b h))
  · have h1 := onStep_retryPlane .b h
    unfold finishTurn
    simp only
    split
    · rename_i s1 hs; rw [hs] at h1; exact h1
    · rename_i s1 hs; rw [hs] at h1; exact onStep_afterRetry h1

theorem onStep_arrive {st : Station} {s : State} (n : StepId) (lb : Bool) (h : CursorsHold s)
    (hn : InRegion (s.seq st).cfg n) : OnStep st (arrive st n lb s) :=
  onStep_finishTurn _ (onStep_arriveA n lb h hn)

theorem nextIndex_region {c : SeqSettings} {r : SeqRun} (h : Steady ⟨c, r⟩) :
    InRegion c (nextIndex c r).1 ∧ SamePlace r (nextIndex c r).2.2 := by
  obtain ⟨⟨hs, hstop, hd, hg⟩, hc, hj⟩ := h
  have hadv : ∀ r1 : SeqRun, SamePlace r r1 →
      InRegion c (if r.cursor = c.regionLast then (c.regionFirst, NextTest.advance true, r1)
        else (r.cursor + 1, NextTest.advance false, r1) : StepId × NextTest × SeqRun).1 ∧
      SamePlace r (if r.cursor = c.regionLast then (c.regionFirst, NextTest.advance true, r1)
        else (r.cursor + 1, NextTest.advance false, r1) : StepId × NextTest × SeqRun).2.2 := by
    intro r1 h1
    have hc' : InRegion c r.cursor := hc
    split
    · refine ⟨⟨le_refl _, ?_⟩, h1⟩
      exact le_trans hc'.1 hc'.2
    · rename_i hne
      refine ⟨?_, h1⟩
      obtain ⟨ha, hb⟩ := hc'
      have hlt : r.cursor < c.regionLast := lt_of_le_of_ne hb hne
      constructor
      · show c.regionFirst ≤ r.cursor + 1
        rw [Fin.le_def] at *
        rw [Fin.val_add_one_of_lt (lt_of_lt_of_le hlt (Fin.le_last _))]
        omega
      · show r.cursor + 1 ≤ c.regionLast
        rw [Fin.le_def, Fin.val_add_one_of_lt (lt_of_lt_of_le hlt (Fin.le_last _))]
        exact hlt
  unfold nextIndex
  simp only
  split
  · rename_i t hk ht
    exact ⟨hj t hk ht, rfl, rfl, rfl⟩
  · split
    · exact ⟨hd, rfl, rfl, rfl⟩
    · split
      · rename_i a b hgr
        split
        · exact ⟨(hg a b hgr).1, rfl, rfl, rfl⟩
        · apply hadv
          split <;> exact ⟨rfl, rfl, rfl⟩
      · apply hadv
        split <;> exact ⟨rfl, rfl, rfl⟩

theorem seq_setRun_self (s : State) (st : Station) (r : SeqRun) : (s.setRun st r).seq st = ⟨(s.seq st).cfg, r⟩ := by
  cases st <;> rfl

theorem onStep_endStepA {st : Station} {s : State} (h : OnStep st s) : OnStep st (endStepA st s).2 := by
  have hn := nextIndex_region (c := s.seqCfg st) (r := s.run st) h.2
  unfold endStepA
  generalize nextIndex (s.seqCfg st) (s.run st) = x at hn
  obtain ⟨n, test, r⟩ := x
  obtain ⟨hreg, hsame⟩ := hn
  simp only
  have h1 : OnStep st (s.setRun st r) := onStep_same _ h hsame
  have h2 : OnStep st (if test = NextTest.advance true then (s.setRun st r).raise (wrapEvent st) else s.setRun st r) := by
    split
    · exact onStep_congr (s := s.setRun st r) rfl h1
    · exact h1
  have hcfg : ((if test = NextTest.advance true then (s.setRun st r).raise (wrapEvent st) else s.setRun st r).seq st).cfg = s.seqCfg st := by
    split <;> cases st <;> rfl
  generalize (if test = NextTest.advance true then (s.setRun st r).raise (wrapEvent st) else s.setRun st r) = s2 at h2 hcfg
  have hreg2 : InRegion (s2.seq st).cfg n := by rw [hcfg]; exact hreg
  split
  · exact onStep_congr (s := s2.setRun st _) rfl (onStep_setRun _ h2.1 ⟨h2.2.1, hreg2, h2.2.2.2⟩)
  · split
    · exact onStep_setRun _ h2.1 ⟨h2.2.1, hreg2, h2.2.2.2⟩
    · exact onStep_arriveA _ _ h2.1 hreg2

theorem onStep_endStep {st : Station} {s : State} (h : OnStep st s) : OnStep st (endStep st s) :=
  onStep_finishTurn _ (onStep_endStepA h)

theorem onStep_of {st : Station} {s : State} (h : CursorsHold s) (hi : (s.run st).state ≠ .idle) : OnStep st s := by
  have := (cursors_iff s).1 h st
  exact ⟨h, this.1, this.2 hi⟩

/-- A turn taken up to plane A's answer: both cursors hold, and an unfinished turn is on its step. -/
def TurnHolds (st : Station) (y : TurnRest × State) : Prop := CursorsHold y.2 ∧ (y.1 ≠ .over → OnStep st y.2)

theorem cursors_finishTurn {st : Station} (y : TurnRest × State) (h : TurnHolds st y) : CursorsHold (finishTurn st y) := by
  obtain ⟨r, s⟩ := y
  cases r
  · exact h.1
  all_goals exact (onStep_finishTurn _ (h.2 (by simp))).1

theorem turnHolds_takeCadenceA (s : State) (d : Nat) (st : Station) (h : CursorsHold s) :
    TurnHolds st (takeCadenceA d st s) := by
  unfold takeCadenceA
  simp only
  split
  · rename_i hs
    have h1 : OnStep st (s.setRun st { s.run st with dwell := (s.run st).dwell - d }) :=
      onStep_same _ (onStep_of h (by rw [hs]; decide)) ⟨rfl, rfl, rfl⟩
    split
    · exact ⟨(onStep_endStepA h1).1, fun _ => onStep_endStepA h1⟩
    · exact ⟨h1.1, fun _ => h1⟩
  · rename_i hs
    have h1 := onStep_retryA (onStep_of h (by rw [hs]; decide))
    exact ⟨h1.1, fun _ => h1⟩
  all_goals exact ⟨h, fun hn => absurd rfl hn⟩

theorem cursors_takeCadence (s : State) (d : Nat) (st : Station) (h : CursorsHold s) : CursorsHold (takeCadence d st s) :=
  cursors_finishTurn _ (turnHolds_takeCadenceA s d st h)

/-! ## The other sequencer's turn -/

theorem seq_of_seqs {s t : State} (h : t.seqs = s.seqs) (st : Station) : t.seq st = s.seq st := by
  unfold State.seq; rw [h]

theorem seq_faultSeq_other {st q : Station} (hq : q ≠ st) (s : State) (pl : Option Plane) (why : SeqFaultReason) :
    (faultSeq q pl why s).seq st = s.seq st :=
  (seq_of_seqs rfl st).trans (seq_setRun_other hq s _)

theorem seq_takeAccepted_other {st q : Station} (hq : q ≠ st) (s : State) (pl : Plane) (o n : Option Slot) :
    (takeAccepted q pl o n s).seq st = s.seq st := seq_setRun_other hq s _

theorem seq_askMake_other {st q : Station} (hq : q ≠ st) (s : State) (pl : Plane) (r : RouteId) :
    (askMake q pl r s).2.seq st = s.seq st := by
  unfold askMake
  split
  · rename_i hs; exact (seq_takeAccepted_other hq _ _ _ _).trans (seq_of_seqs (seqs_acceptMake hs) st)
  · rfl

theorem seq_askSwap_other {st q : Station} (hq : q ≠ st) (s : State) (pl : Plane) (r : RouteId) :
    (askSwap q pl r s).2.seq st = s.seq st := by
  unfold askSwap
  split
  · rfl
  · split
    · rename_i hs; exact (seq_takeAccepted_other hq _ _ _ _).trans (seq_of_seqs (seqs_acceptSwap hs) st)
    · rfl

theorem seq_evalPlane_other {st q : Station} (hq : q ≠ st) (s : State) (pl : Plane) :
    (evalPlane q pl s).2.seq st = s.seq st := by
  unfold evalPlane evalClear evalRoute
  simp only
  repeat' split
  all_goals first
    | rfl
    | exact seq_askMake_other hq _ _ _
    | exact seq_askSwap_other hq _ _ _
    | exact (seq_takeAccepted_other hq _ _ _ _).trans (seq_of_seqs rfl st)

theorem seq_writeOutcome_other {st q : Station} (hq : q ≠ st) (pl : Plane) (y : PlaneOutcome × State) :
    (writeOutcome q pl y).2.seq st = y.2.seq st := by
  obtain ⟨o, s⟩ := y
  cases o
  · rfl
  · rfl
  · exact seq_setRun_other hq _ _
  · exact seq_faultSeq_other hq _ _ _

theorem seq_evalJump_other {st q : Station} (hq : q ≠ st) (s : State) (t : StepId) :
    (evalJump q t s).2.seq st = s.seq st := by
  unfold evalJump
  simp only
  repeat' split
  · exact seq_setRun_other hq _ _
  · exact seq_faultSeq_other hq _ _ _
  · rfl

theorem seq_settleUnlessFaulted_other {st q : Station} (hq : q ≠ st) (y : Bool × State) :
    (settleUnlessFaulted q y).seq st = y.2.seq st := by
  obtain ⟨b, s⟩ := y
  cases b
  · unfold settleUnlessFaulted settleSeq
    simp only
    split
    · exact (seq_of_seqs rfl st).trans (seq_setRun_other hq s _)
    · split <;> exact seq_setRun_other hq _ _
  · rfl

theorem seq_arriveAt_other {st q : Station} (hq : q ≠ st) (s : State) (n : StepId) (lb : Bool) :
    (arriveAt q n lb s).seq st = s.seq st := by
  unfold arriveAt
  simp only
  split
  · exact (seq_of_seqs rfl st).trans (seq_setRun_other hq s _)
  · exact seq_setRun_other hq _ _

theorem seq_arriveA_other {st q : Station} (hq : q ≠ st) (s : State) (n : StepId) (lb : Bool) :
    (arriveA q n lb s).2.seq st = s.seq st := by
  have h0 := seq_arriveAt_other hq s n lb
  unfold arriveA
  simp only
  split
  · exact (seq_settleUnlessFaulted_other hq _).trans ((seq_evalJump_other hq _ _).trans h0)
  · have h1 := (seq_writeOutcome_other hq .a (evalPlane q .a (arriveAt q n lb s))).trans
      ((seq_evalPlane_other hq _ _).trans h0)
    split
    · rename_i s1 hs; rw [hs] at h1; exact h1
    · rename_i s1 hs; rw [hs] at h1; exact h1

theorem seq_retryPlane_other {st q : Station} (hq : q ≠ st) (s : State) (pl : Plane) :
    (retryPlane q pl s).2.seq st = s.seq st := by
  unfold retryPlane
  simp only
  split
  · rename_i call r _ _
    have hy : ∀ y : PlaneOutcome × State, y.2.seq st = s.seq st →
        (match y with
         | (.applied, s1) => (false, s1.setRun q { s1.run q with stalled := (s1.run q).stalled.set pl none })
         | (.faulted why, s1) => (true, faultSeq q (some pl) why s1)
         | (_, s1) => (false, s1) : Bool × State).2.seq st = s.seq st := by
      rintro ⟨o, s1⟩ hy
      cases o
      · exact hy
      · exact (seq_setRun_other hq _ _).trans hy
      · exact hy
      · exact (seq_faultSeq_other hq _ _ _).trans hy
    cases call
    · exact hy _ (seq_askMake_other hq s pl r)
    · exact hy _ (seq_askSwap_other hq s pl r)
  · rfl

theorem seq_afterRetry_other {st q : Station} (hq : q ≠ st) (s : State) : (afterRetry q s).seq st = s.seq st := by
  unfold afterRetry
  simp only
  split
  · rfl
  · split <;> exact seq_setRun_other hq _ _

theorem seq_finishTurn_other {st q : Station} (hq : q ≠ st) (y : TurnRest × State) :
    (finishTurn q y).seq st = y.2.seq st := by
  obtain ⟨r, s⟩ := y
  cases r
  · rfl
  · exact (seq_settleUnlessFaulted_other hq _).trans
      ((seq_writeOutcome_other hq _ _).trans (seq_evalPlane_other hq _ _))
  · have h1 := seq_retryPlane_other hq s .b
    unfold finishTurn
    simp only
    split
    · rename_i s1 hs; rw [hs] at h1; exact h1
    · rename_i s1 hs; rw [hs] at h1; exact (seq_afterRetry_other hq _).trans h1

theorem seq_takeCadenceA_other {st q : Station} (hq : q ≠ st) (s : State) (d : Nat) :
    (takeCadenceA d q s).2.seq st = s.seq st := by
  unfold takeCadenceA
  simp only
  split
  · have h0 := seq_setRun_other hq s { s.run q with dwell := (s.run q).dwell - d }
    split
    · unfold endStepA
      simp only
      have hw : ∀ (b : Prop) [Decidable b] (u : State) (e : Event), u.seq st = s.seq st →
          (if b then u.raise e else u).seq st = s.seq st := by
        intro b _ u e hu
        split
        · exact (seq_of_seqs rfl st).trans hu
        · exact hu
      split
      · exact (seq_of_seqs rfl st).trans ((seq_setRun_other hq _ _).trans (hw _ _ _ ((seq_setRun_other hq _ _).trans h0)))
      · split
        · exact (seq_setRun_other hq _ _).trans (hw _ _ _ ((seq_setRun_other hq _ _).trans h0))
        · exact (seq_arriveA_other hq _ _ _).trans (hw _ _ _ ((seq_setRun_other hq _ _).trans h0))
    · exact h0
  · unfold retryA
    have h1 := seq_retryPlane_other hq s .a
    split
    · rename_i s1 hs; rw [hs] at h1; exact h1
    · rename_i s1 hs; rw [hs] at h1; exact h1
  all_goals rfl

/-- A turn still holds at a state with both cursors in place and this sequencer as it stood. -/
theorem turnHolds_other {st : Station} {r : TurnRest} {s t : State} (h : TurnHolds st (r, s)) (ht : CursorsHold t)
    (hs : t.seq st = s.seq st) : TurnHolds st (r, t) :=
  ⟨ht, fun hr => ⟨ht, by rw [hs]; exact (h.2 hr).2⟩⟩

/-- R88 at every point of a CADENCE frame, whichever order the calls come in (log 3). -/
theorem cursors_cadencePoints (s : State) (d : Nat) (x : Arb) (h : CursorsHold s) :
    ∀ u ∈ cadencePoints d x s, CursorsHold u := by
  unfold cadencePoints
  simp only
  generalize hp : (if x.seq2First = true then Station.s2 else Station.s1) = p
  generalize hq : (if x.seq2First = true then Station.s1 else Station.s2) = q
  have hne : q ≠ p := by
    subst hp hq
    cases x.seq2First <;> simp
  have hpA := turnHolds_takeCadenceA s d p h
  generalize takeCadenceA d p s = pA at hpA ⊢
  obtain ⟨rp, sp⟩ := pA
  cases x.weave
  · have hpB := cursors_finishTurn _ hpA
    have hr := cursors_react _ hpB
    have hqA := turnHolds_takeCadenceA _ d q hr
    have hqB := cursors_finishTurn _ hqA
    intro u hu
    simp only [List.mem_cons, List.mem_nil_iff, or_false] at hu
    rcases hu with rfl | rfl | rfl | rfl | rfl | rfl | rfl
    exacts [h, hpA.1, hpB, hr, hqA.1, hqB, cursors_react _ hqB]
  · have hqA := turnHolds_takeCadenceA sp d q hpA.1
    have hqB := cursors_finishTurn _ hqA
    have hpB := cursors_finishTurn _ (turnHolds_other hpA hqB
      ((seq_finishTurn_other hne _).trans (seq_takeCadenceA_other hne sp d)))
    intro u hu
    simp only [List.mem_cons, List.mem_nil_iff, or_false] at hu
    rcases hu with rfl | rfl | rfl | rfl | rfl | rfl
    exacts [h, hpA.1, hqA.1, hqB, hpB, cursors_react _ hpB]
  · have hqA := turnHolds_takeCadenceA sp d q hpA.1
    have hpA' := turnHolds_other hpA hqA.1 (seq_takeCadenceA_other hne sp d)
    have hpB := cursors_finishTurn _ hpA'
    have hqB := cursors_finishTurn _ (turnHolds_other (r := (takeCadenceA d q sp).1) (s := (takeCadenceA d q sp).2) hqA hpB
      (seq_finishTurn_other hne.symm _))
    intro u hu
    simp only [List.mem_cons, List.mem_nil_iff, or_false] at hu
    rcases hu with rfl | rfl | rfl | rfl | rfl | rfl
    exacts [h, hpA.1, hqA.1, hpB, hqB, cursors_react _ hqB]

theorem seqCfg_setRun (s : State) (st : Station) (r : SeqRun) : ((s.setRun st r).seq st).cfg = (s.seq st).cfg := by
  cases st <;> rfl

theorem onStep_started (s : State) (st : Station) (h : CursorsHold s) :
    OnStep st (s.setRun st ((s.run st).started (s.seq st).cfg)) := by
  have hc := ((cursors_iff s).1 h st).1
  refine onStep_setRun _ h ?_
  generalize (s.seq st).cfg = c at hc
  generalize s.run st = r
  refine ⟨hc, ?_, fun t _ hj => ?_⟩
  · exact hc.1
  · have : (r.started c).jumpTaken = false := rfl
    rw [this] at hj; cases hj

theorem cursors_startSeq (s : State) (st : Station) (h : CursorsHold s) : CursorsHold (startSeq st s) := by
  have hc := ((cursors_iff s).1 h st).1
  have h1 := onStep_started s st h
  have e : (s.setRun st ((s.run st).started (s.seq st).cfg)).seq st = ⟨(s.seq st).cfg, (s.run st).started (s.seq st).cfg⟩ :=
    seq_setRun_self _ _ _
  unfold startSeq
  simp only [State.seqCfg]
  generalize (s.setRun st ((s.run st).started (s.seq st).cfg)) = u at h1 e
  refine (onStep_arrive _ _ h1.1 ?_).1
  rw [e]
  exact hc.1

theorem cursors_same {st : Station} {s : State} (h : OnStep st s) (r : SeqRun) (hr : SamePlace (s.run st) r) :
    CursorsHold (s.setRun st r) := (onStep_same r h hr).1

theorem cursors_resumeSeq (s : State) (st : Station) (h : CursorsHold s) (hi : (s.run st).state ≠ .idle) :
    CursorsHold (resumeSeq st s) := by
  have h1 := onStep_of h hi
  unfold resumeSeq
  simp only
  split
  · have hr : InRegion (s.seq st).cfg (s.run st).cursor := h1.2.2.1
    have h2 : OnStep st (s.setRun st { s.run st with heldPhase := none, heldByLoopback := false }) :=
      onStep_same _ h1 ⟨rfl, rfl, rfl⟩
    have e : ((s.setRun st { s.run st with heldPhase := none, heldByLoopback := false }).seq st).cfg = (s.seq st).cfg :=
      seqCfg_setRun _ _ _
    generalize (s.setRun st { s.run st with heldPhase := none, heldByLoopback := false }) = u at h2 e
    refine (onStep_arrive _ _ h2.1 ?_).1
    rw [e]; exact hr
  · split <;> exact cursors_same h1 _ ⟨rfl, rfl, rfl⟩
  · exact cursors_same h1 _ ⟨rfl, rfl, rfl⟩
  · exact cursors_same h1 _ ⟨rfl, rfl, rfl⟩
  · exact h

theorem cursors_stopSeq (s : State) (st : Station) (h : CursorsHold s) : CursorsHold (stopSeq st s) := by
  unfold stopSeq
  have h1 := cursors_cancelAll s (stoppable st s) h
  exact cursors_setRun _ _ _ h1 (cursorHolds_idle ((cursors_iff _).1 h1 st) rfl)

end Sys2Proof.Machine
end

