-- ==== Sys2Proof/Laws/CursorRequests.lean ====
section
/-! SUPPORT. That every request of the table keeps every cursor within its region (R79, R88). -/

namespace Sys2Proof.Machine

theorem cursors_settleRequest (x : Reply × State) (h : CursorsHold x.2) : CursorsHold (settleRequest x).2 := by
  obtain ⟨r, s⟩ := x
  simp only [settleRequest]
  split
  · exact cursors_react s h
  · exact h

theorem cursors_withStation (sf : Byte) (s : State) (f : Station → Reply × State) (h : CursorsHold s)
    (hf : ∀ st, CursorsHold (f st).2) : CursorsHold (withStation sf s f).2 := by
  unfold withStation; split
  · exact hf _
  · exact h

theorem cursors_withNoParams (sf : Byte) (ps : List Byte) (s : State) (f : Station → Reply × State) (h : CursorsHold s)
    (hf : ∀ st, CursorsHold (f st).2) : CursorsHold (withNoParams sf ps s f).2 := by
  unfold withNoParams
  apply cursors_withStation _ _ _ h
  intro st; split
  · exact h
  · exact hf st

theorem cursors_withoutParams (ps : List Byte) (s : State) (f : Reply × State) (h : CursorsHold s)
    (hf : CursorsHold f.2) : CursorsHold (withoutParams ps s f).2 := by
  unfold withoutParams; split
  · exact h
  · exact hf

theorem cursors_reportSeq (st : Station) (s : State) (h : CursorsHold s) : CursorsHold (reportSeq st s).2 :=
  cursors_settleRequest _ h

theorem stepOptOf_cases (n : Nat) (h : isStepOrNone n = true) :
    (n = 0xFFFF ∧ stepOptOf n = none) ∨ (n ≤ 511 ∧ stepOptOf n = some (Fin.ofNat 512 n)) := by
  unfold isStepOrNone isStep at h
  unfold stepOptOf
  rw [Bool.or_eq_true, decide_eq_true_iff, decide_eq_true_iff] at h
  rcases h with h | h
  · right
    refine ⟨h, ?_⟩
    rw [if_neg (by omega)]
  · left; exact ⟨h, by rw [if_pos h]⟩

theorem val_ofNat_step {n : Nat} (h : n ≤ 511) : (Fin.ofNat 512 n).1 = n := Nat.mod_eq_of_lt (by omega)

/-- R79: `seqParamsFault` on the length and the seven step values. -/
def seqValuesFault (l a b c d e f g : Nat) : Option Nat :=
  if l ≠ 15 then some 0
  else if !isStep a then some 1
  else if !isStep b then some 2
  else if !isStep c then some 3
  else if !isStepOrNone d then some 4
  else if !isStepOrNone e then some 5
  else if !isStepOrNone f then some 6
  else if !isStep g then some 8
  else if b < a then some 2
  else if !(decide (a ≤ c) && decide (c ≤ b)) then some 3
  else if decide (d ≠ 0xFFFF) && !(decide (a ≤ d) && decide (d ≤ b)) then some 4
  else if decide (e = 0xFFFF) != decide (f = 0xFFFF) then some 6
  else if decide (e ≠ 0xFFFF) &&
      (!(decide (a ≤ e) && decide (e ≤ b)) || !(decide (a ≤ f) && decide (f ≤ b)) || decide (f < e)) then some 6
  else if !(decide (a ≤ g) && decide (g ≤ b)) then some 8
  else none

theorem seqParamsFault_eq (ps : List Byte) : seqParamsFault ps =
    seqValuesFault ps.length (val2 ps 0) (val2 ps 2) (val2 ps 4) (val2 ps 6) (val2 ps 8) (val2 ps 10) (val2 ps 13) := rfl

theorem ite_some_eq_none {p : Prop} [Decidable p] {n : Nat} {x : Option Nat} :
    (if p then some n else x) = none ↔ ¬ p ∧ x = none := by
  by_cases hp : p <;> simp [hp]

/-- R79: settings that pass the checks are admitted. -/
theorem settingsAdmitted_of (ps : List Byte) (h : seqParamsFault ps = none) : SettingsAdmitted (seqSettingsOf ps) := by
  rw [seqParamsFault_eq] at h
  unfold seqValuesFault at h
  simp only [ite_some_eq_none] at h
  obtain ⟨_, h1, h2, h3, h4, h5, h6, h8, h9, h11, h12, h15, h13, h14, _⟩ := h
  have k : ∀ x : Bool, ¬ (!x) = true → x = true := by decide
  have h1 := k _ h1
  have h2 := k _ h2
  have h3 := k _ h3
  have h8 := k _ h8
  have h11 := k _ h11
  have h14 := k _ h14
  have g4 := stepOptOf_cases _ (k _ h4)
  have g5 := stepOptOf_cases _ (k _ h5)
  have g6 := stepOptOf_cases _ (k _ h6)
  unfold isStep at h1 h2 h3 h8
  rw [decide_eq_true_iff] at h1 h2 h3 h8
  rw [Bool.and_eq_true, decide_eq_true_iff, decide_eq_true_iff] at h11 h14
  unfold seqSettingsOf SettingsAdmitted InRegion
  simp only [Fin.le_def, val_ofNat_step h1, val_ofNat_step h2, val_ofNat_step h3, val_ofNat_step h8]
  refine ⟨h11, ?_, h14, ?_⟩
  · intro n hn
    rcases g4 with ⟨_, g⟩ | ⟨hle, g⟩
    · rw [g] at hn; cases hn
    · rw [g] at hn; cases hn
      rw [val_ofNat_step hle]
      have hne : val2 ps 6 ≠ 0xFFFF := by omega
      rw [Bool.and_eq_true, decide_eq_true_iff] at h12
      by_contra hc
      exact h12 ⟨hne, by
        rw [Bool.not_eq_true', Bool.and_eq_false_iff, decide_eq_false_iff_not, decide_eq_false_iff_not]
        omega⟩
  · intro x y hxy
    rcases g5 with ⟨e5, g⟩ | ⟨hle5, g⟩
    · rw [g] at hxy; cases hxy
    · rcases g6 with ⟨e6, g'⟩ | ⟨hle6, g'⟩
      · rw [g, g'] at hxy; cases hxy
      · rw [g, g'] at hxy; cases hxy
        rw [val_ofNat_step hle5, val_ofNat_step hle6]
        rw [Bool.and_eq_true, decide_eq_true_iff, Bool.or_eq_true, Bool.or_eq_true, decide_eq_true_iff] at h13
        have hne : val2 ps 8 ≠ 0xFFFF := by omega
        by_contra hc
        apply h13
        refine ⟨hne, ?_⟩
        rw [Bool.not_eq_true', Bool.not_eq_true', Bool.and_eq_false_iff, Bool.and_eq_false_iff]
        simp only [decide_eq_false_iff_not]
        omega

/-- A request keeps every cursor within its region. -/
def KeepsCursors (u : RequestUnit) : Prop := ∀ sf ps s, CursorsHold s → CursorsHold (u sf ps s).2

theorem cursors_clearPair (s : State) (b : BankId) (k : FaultKind) (h : CursorsHold s) : CursorsHold (clearPair b k s) := by
  unfold clearPair; simp (maxDischargeDepth := 40) [h]

theorem cursors_oweByClear (s : State) (b : BankId) (h : CursorsHold s) : CursorsHold (oweByClear b s) := by
  unfold oweByClear; simp (maxDischargeDepth := 40) [h]

theorem cursors_clearKindOn (s : State) (b : BankId) (k : FaultKind) (h : CursorsHold s) :
    CursorsHold (clearKindOn b k s).2 := by
  have h1 : CursorsHold (clearDrift b s).2 := by
    unfold clearDrift resyncBank
    split
    · split
      · exact h
      · dsimp only
        split
        · exact cursors_oweByClear _ _ (cursors_clearPair _ _ _ (by simpa using h))
        · exact cursors_clearPair _ _ _ (by simpa using h)
    · exact cursors_clearPair _ _ _ h
  have h2 : CursorsHold (clearCoil b s) := by
    unfold clearCoil
    dsimp only
    split
    · exact cursors_oweByClear _ _ (cursors_clearPair _ _ _ h)
    · exact cursors_clearPair _ _ _ h
  unfold clearKindOn
  split
  · exact h1
  · exact h2
  all_goals exact cursors_clearPair _ _ _ h

theorem cursors_clearNoting (x : BitVec 24 × State) (b : BankId) (k : FaultKind) (h : CursorsHold x.2) :
    CursorsHold (clearNoting b k x).2 := by
  have h1 := cursors_clearKindOn x.2 b k h
  unfold clearNoting
  split <;> (rename_i hs; rw [hs] at h1; exact h1)

theorem cursors_foldl_snd {α : Type} (f : BitVec 24 × State → α → BitVec 24 × State)
    (hf : ∀ x a, CursorsHold x.2 → CursorsHold (f x a).2) (as : List α) (x : BitVec 24 × State) (h : CursorsHold x.2) :
    CursorsHold (as.foldl f x).2 := by
  induction as generalizing x with
  | nil => exact h
  | cons a as ih => exact ih _ (hf x a h)

theorem cursors_clearFaultsOf (ps : List Byte) (s : State) (h : CursorsHold s) : CursorsHold (clearFaultsOf ps s).2 := by
  unfold clearFaultsOf
  dsimp only
  split
  · apply cursors_foldl_snd _ _ _ _ h
    intro x k hx
    unfold clearKindAll clearSummary
    have := cursors_foldl_snd (fun y b => clearNoting b k y) (fun x a hx => cursors_clearNoting x a k hx) allBanks x hx
    split
    · exact this
    · simpa using this
  · exact cursors_foldl_snd _ (fun x a hx => cursors_clearNoting x _ a hx) _ _ h

theorem keepsCursors_ident : KeepsCursors identUnit := fun _ _ _ h => cursors_withoutParams _ _ _ h h

theorem keepsCursors_getSettings : KeepsCursors getSettingsUnit := fun _ _ _ h => cursors_withoutParams _ _ _ h h

theorem keepsCursors_setSettings : KeepsCursors setSettingsUnit := by
  intro sf ps s h; unfold setSettingsUnit; split
  · exact h
  · exact cursors_retimeVisits _ h

theorem keepsCursors_loadBank : KeepsCursors loadBankUnit := by
  intro sf ps s h; unfold loadBankUnit; split
  · exact h
  · dsimp only; split
    · exact h
    · refine cursors_settleRequest _ ?_
      show CursorsHold (ite _ _ _)
      split <;> simp [h]

theorem keepsCursors_readBank : KeepsCursors readBankUnit := by intro sf ps s h; unfold readBankUnit; split <;> exact h

theorem keepsCursors_loadRoute : KeepsCursors loadRouteUnit := by
  intro sf ps s h; unfold loadRouteUnit
  split
  · exact h
  · split
    · exact h
    · dsimp only; split <;> exact h

theorem keepsCursors_readRoute : KeepsCursors readRouteUnit := by intro sf ps s h; unfold readRouteUnit; split <;> exact h

theorem keepsCursors_loadSteps : KeepsCursors loadStepsUnit := by
  intro sf ps s h; unfold loadStepsUnit
  dsimp only
  split
  · exact h
  · split
    · exact h
    · show CursorsHold (writeSteps _ _ _ s)
      have : ∀ n, (writeSteps ps (val2 ps 0) n s).seqs = s.seqs := by
        intro n
        induction n with
        | zero => rfl
        | succ n ih => exact ih
      exact cursors_of_seqs (this _) h

theorem keepsCursors_readSteps : KeepsCursors readStepsUnit := by intro sf ps s h; unfold readStepsUnit; dsimp only; split <;> exact h

theorem keepsCursors_openPath : KeepsCursors openPathUnit := by
  intro sf ps s h; unfold openPathUnit openChecked
  repeat' split
  all_goals first
    | exact h
    | (rename_i hs; exact cursors_settleRequest _ (cursors_of_seqs (seqs_acceptMake hs) h))

theorem keepsCursors_closePath : KeepsCursors closePathUnit := by
  intro sf ps s h; unfold closePathUnit closeChecked closeForming
  dsimp only
  repeat' split
  all_goals first
    | exact h
    | exact cursors_settleRequest _ (cursors_convertSwap _ _ _ _ h)
    | exact cursors_settleRequest _ (cursors_cancelEntry _ _ h)
    | exact cursors_settleRequest _ (cursors_acceptBreak _ _ _ _ h)

theorem keepsCursors_swapPath : KeepsCursors swapPathUnit := by
  intro sf ps s h; unfold swapPathUnit swapChecked
  repeat' split
  all_goals first
    | exact h
    | (rename_i hs; exact cursors_settleRequest _ (cursors_of_seqs (seqs_acceptSwap hs) h))

theorem keepsCursors_cancelChange : KeepsCursors cancelChangeUnit := by
  intro sf ps s h; unfold cancelChangeUnit cancelChecked
  dsimp only
  repeat' split
  all_goals first
    | exact h
    | exact cursors_settleRequest _ (cursors_cancelEntry _ _ h)

theorem keepsCursors_readPaths : KeepsCursors readPathsUnit := by intro sf ps s h; unfold readPathsUnit; dsimp only; split <;> exact h

theorem keepsCursors_readQueue : KeepsCursors readQueueUnit := by intro sf ps s h; unfold readQueueUnit; dsimp only; split <;> exact h

theorem keepsCursors_setSequencer : KeepsCursors setSequencerUnit := by
  intro sf ps s h; unfold setSequencerUnit
  apply cursors_withStation _ _ _ h
  intro st
  split
  · exact h
  · split
    · exact h
    · rename_i hs
      have := settingsAdmitted_of ps hs
      obtain ⟨h1, h2⟩ := h
      show CursorsHold (writeSeqSettings st _ s)
      cases st
      · exact ⟨⟨this, fun hi => absurd rfl hi⟩, h2⟩
      · exact ⟨h1, ⟨this, fun hi => absurd rfl hi⟩⟩

theorem keepsCursors_readSequencer : KeepsCursors readSequencerUnit := fun _ _ _ h => cursors_withNoParams _ _ _ _ h fun _ => h

theorem keepsCursors_seqRun : KeepsCursors seqRunUnit := by
  intro sf ps s h; apply cursors_withNoParams _ _ _ _ h
  intro st; split
  · exact h
  · split
    · exact h
    · exact cursors_reportSeq _ _ (cursors_startSeq _ _ h)

theorem keepsCursors_seqHold : KeepsCursors seqHoldUnit := by
  intro sf ps s h; apply cursors_withNoParams _ _ _ _ h
  intro st; split
  · rename_i x hx
    apply cursors_reportSeq
    refine cursors_same (onStep_of h ?_) _ ⟨rfl, rfl, rfl⟩
    intro hi; rw [hi] at hx; cases hx
  · exact h

theorem keepsCursors_seqResume : KeepsCursors seqResumeUnit := by
  intro sf ps s h; apply cursors_withNoParams _ _ _ _ h
  intro st; split
  · rename_i hx
    apply cursors_reportSeq
    refine cursors_resumeSeq _ _ h ?_
    rw [hx]; decide
  · exact h

theorem keepsCursors_seqStop : KeepsCursors seqStopUnit := by
  intro sf ps s h; apply cursors_withNoParams _ _ _ _ h
  intro st
  exact cursors_settleRequest _ (cursors_stopSeq _ _ h)

theorem keepsCursors_armDivert : KeepsCursors armDivertUnit := by
  intro sf ps s h; apply cursors_withNoParams _ _ _ _ h
  intro st
  exact cursors_reportSeq _ _ (cursors_keeps _ _ _ h ⟨rfl, rfl, rfl, id⟩)

theorem keepsCursors_claim : KeepsCursors claimUnit := by
  intro sf ps s h; unfold claimUnit; split
  · exact h
  · split
    · exact h
    · dsimp only [answer]; exact cursors_of_seqs (s := s) rfl h

theorem keepsCursors_release : KeepsCursors releaseUnit := by
  intro sf ps s h; unfold releaseUnit; split
  · exact h
  · split
    · exact h
    · dsimp only [answer]; exact cursors_of_seqs (s := s) rfl h

theorem keepsCursors_readClaims : KeepsCursors readClaimsUnit := fun _ _ _ h => cursors_withoutParams _ _ _ h h

theorem keepsCursors_readEvents : KeepsCursors readEventsUnit := fun _ _ _ h => cursors_withoutParams _ _ _ h h

theorem keepsCursors_clearEvents : KeepsCursors clearEventsUnit := by
  intro sf ps s h; unfold clearEventsUnit; split
  · exact h
  · show CursorsHold (clearFlags _ s)
    unfold clearFlags; dsimp only; split <;> exact h

theorem keepsCursors_readFaults : KeepsCursors readFaultsUnit := by
  intro sf ps s h; unfold readFaultsUnit; dsimp only
  split
  · exact h
  · split <;> exact h

theorem keepsCursors_clearFaults : KeepsCursors clearFaultsUnit := by
  intro sf ps s h; unfold clearFaultsUnit; split
  · exact h
  · dsimp only
    apply cursors_settleRequest
    show CursorsHold (ite _ _ _)
    have := cursors_clearFaultsOf ps s h
    split
    · simpa using this
    · exact this

theorem keepsCursors_safeEnter : KeepsCursors safeEnterUnit := fun _ _ _ h => cursors_withoutParams _ _ _ h
  (cursors_settleRequest _ (cursors_addCause _ _ h))

theorem keepsCursors_safeExit : KeepsCursors safeExitUnit := by
  intro sf ps s h; apply cursors_withoutParams _ _ _ h
  split
  · exact h
  · split
    · exact h
    · exact cursors_settleRequest _ h

theorem keepsCursors_nodeReset : KeepsCursors nodeResetUnit := by
  intro sf ps s h; apply cursors_withoutParams _ _ _ h
  dsimp only
  apply cursors_settleRequest
  show CursorsHold (ite _ _ _)
  have h1 : CursorsHold (addCause .reset (s.setSafe { s.safe with resetPending := true })) :=
    cursors_addCause _ _ h
  split
  · exact cursors_clearing _ h1
  · exact h1

theorem keepsCursors_forget : KeepsCursors forgetUnit := fun _ _ _ h => cursors_withoutParams _ _ _ h h

theorem keepsCursors_table : ∀ x ∈ requestTable, KeepsCursors x.2 := by
  unfold requestTable
  simp only [List.forall_mem_append, List.forall_mem_cons, List.not_mem_nil, false_imp_iff, implies_true, and_true]
  simp only [and_assoc]
  exact ⟨keepsCursors_ident, keepsCursors_getSettings, keepsCursors_setSettings, keepsCursors_loadBank, keepsCursors_readBank, keepsCursors_loadRoute, keepsCursors_readRoute, keepsCursors_loadSteps, keepsCursors_readSteps, keepsCursors_openPath, keepsCursors_closePath, keepsCursors_swapPath, keepsCursors_cancelChange, keepsCursors_readPaths, keepsCursors_readQueue,
    keepsCursors_setSequencer, keepsCursors_readSequencer, keepsCursors_seqRun, keepsCursors_seqHold, keepsCursors_seqResume, keepsCursors_seqStop, keepsCursors_armDivert, keepsCursors_claim, keepsCursors_release, keepsCursors_readClaims, keepsCursors_readEvents, keepsCursors_clearEvents, keepsCursors_readFaults, keepsCursors_clearFaults, keepsCursors_safeEnter, keepsCursors_safeExit, keepsCursors_nodeReset, keepsCursors_forget⟩

theorem keepsCursors_unitOf (code : Byte) : KeepsCursors (unitOf code) := by
  unfold unitOf
  cases hl : requestTable.lookup code with
  | none => intro _ _ _ h; exact h
  | some u =>
    have hm : ∃ c, (c, u) ∈ requestTable := by
      have : ∀ (l : List (Byte × RequestUnit)), l.lookup code = some u → ∃ c, (c, u) ∈ l := by
        intro l
        induction l with
        | nil => intro h; cases h
        | cons y ys ih =>
          intro h
          obtain ⟨a, b⟩ := y
          simp only [List.lookup] at h
          split at h
          · cases h; exact ⟨a, by simp⟩
          · obtain ⟨c, hc⟩ := ih h; exact ⟨c, by simp [hc]⟩
      exact this _ hl
    obtain ⟨c, hc⟩ := hm
    exact keepsCursors_table _ hc

end Sys2Proof.Machine
end

