-- ==== Sys2Proof/Laws/Fixed.lean ====
section
/-! SUPPORT. What the work of the drivers, the paths, the sequencers, the faults and the Safe Controller never writes:
the reset input, the ring record but for the bad-frame count, the settings, the bank lines, the Route Table, Step
Memory, the chamber inputs and outputs, the queue of commands, and the sequencers' settings. One lemma per shared
operation. -/

namespace Sys2Proof.Machine

/-- The part of the state that those operations never write. -/
def State.fixed (s : State) :
    (Bool × RingInterface × Settings × Vector BankLines 24 × Vector RouteRecord 128 × Vector StepRecord 512) ×
      ChamberLines × List Instr × SeqSettings × SeqSettings :=
  ((s.inReset, { s.ring with badFrames := 0 }, s.settings, s.lines, s.routes, s.steps), s.chamber, s.pending,
    s.seqs.s1.cfg, s.seqs.s2.cfg)

@[simp] theorem fixed_setBank (s : State) (b : BankId) (x : BankRecord) : (s.setBank b x).fixed = s.fixed := rfl

@[simp] theorem fixed_recordPosition (s : State) (b : BankId) (x : Position) : (s.recordPosition b x).fixed = s.fixed := rfl

@[simp] theorem fixed_setHolder (s : State) (b : BankId) (x : Option Slot) : (s.setHolder b x).fixed = s.fixed := rfl

@[simp] theorem fixed_setHomeOwed (s : State) (b : BankId) (x : Bool) : (s.setHomeOwed b x).fixed = s.fixed := rfl

@[simp] theorem fixed_setPath (s : State) (p : Slot) (x : PathRecord) : (s.setPath p x).fixed = s.fixed := rfl

@[simp] theorem fixed_setTracker (s : State) (p : Plane) (x : Tracker) : (s.setTracker p x).fixed = s.fixed := rfl

@[simp] theorem fixed_setDriver (s : State) (p : Plane) (x : Driver) : (s.setDriver p x).fixed = s.fixed := rfl

@[simp] theorem fixed_setQueue (s : State) (x : List Entry) : (s.setQueue x).fixed = s.fixed := rfl

@[simp] theorem fixed_setSup (s : State) (x : Supervision) : (s.setSup x).fixed = s.fixed := rfl

@[simp] theorem fixed_setSafe (s : State) (x : SafeController) : (s.setSafe x).fixed = s.fixed := rfl

@[simp] theorem fixed_setCounter (s : State) (b : BankId) (k : FaultKind) (n : Nat) : (s.setCounter b k n).fixed = s.fixed := rfl

@[simp] theorem fixed_setFaults (s : State) (b : BankId) (x : KindSet) : (s.setFaults b x).fixed = s.fixed := rfl

@[simp] theorem fixed_raise (s : State) (e : Event) : (s.raise e).fixed = s.fixed := rfl

@[simp] theorem fixed_redraw (s : State) : (s.redraw).fixed = s.fixed := rfl

@[simp] theorem fixed_mapBanks (s : State) (f : BankId → BankRecord → BankRecord) :
    (s.mapBanks f).fixed = s.fixed := by
  simp [State.fixed]

@[simp] theorem fixed_setRun (s : State) (st : Station) (r : SeqRun) : (s.setRun st r).fixed = s.fixed := by
  cases st <;> rfl

theorem fixed_foldl {α : Type} (f : State → α → State) (h : ∀ s x, (f s x).fixed = s.fixed) (xs : List α) (s : State) :
    (xs.foldl f s).fixed = s.fixed := by
  induction xs generalizing s with
  | nil => rfl
  | cons x xs ih => rw [List.foldl_cons, ih, h]

@[simp] theorem fixed_eachPlane (f : Plane → State → State) (h : ∀ p s, (f p s).fixed = s.fixed) (s : State) :
    (eachPlane f s).fixed = s.fixed := by
  unfold eachPlane
  split <;> simp [h]

@[simp] theorem fixed_freeSlot (s : State) (p : Slot) : (freeSlot p s).fixed = s.fixed := by
  simp [freeSlot]

@[simp] theorem fixed_placeMake (s : State) (st : Station) (org : ChangeOrigin) (r : RouteId) (p : Slot) : (placeMake s st org r p).fixed = s.fixed := by
  simp [placeMake]

@[simp] theorem fixed_placeSwap (s : State) (st : Station) (org : ChangeOrigin) (o : Slot) (r : RouteId) (p : Slot) : (placeSwap s st org o r p).fixed = s.fixed := by
  simp [placeSwap]

@[simp] theorem fixed_acceptBreak (s : State) (p : Slot) (org : ChangeOrigin) (x : Option PriorState) : (acceptBreak p org x s).fixed = s.fixed := by
  simp [acceptBreak]

@[simp] theorem fixed_goLive (s : State) (p : Slot) : (goLive p s).fixed = s.fixed := by
  simp [goLive]

@[simp] theorem fixed_startSettling (s : State) (p : Slot) : (startSettling p s).fixed = s.fixed := by
  unfold startSettling
  split <;> simp

@[simp] theorem fixed_failSlot (s : State) (p : Slot) (why : FailReason) : (failSlot p why s).fixed = s.fixed := by
  unfold failSlot
  simp only
  split <;> simp

@[simp] theorem fixed_notifyEnded (s : State) (e : Entry) (c : Bool) : (notifyEnded e c s).fixed = s.fixed := by
  unfold notifyEnded
  split <;> simp

@[simp] theorem fixed_clearHeld (s : State) (pl : Plane) : (clearHeld pl s).fixed = s.fixed := by
  simp [clearHeld]

@[simp] theorem fixed_removeEntry (s : State) (e : Entry) : (removeEntry e s).fixed = s.fixed := by
  unfold removeEntry
  split <;> simp

@[simp] theorem fixed_applyCloseOwed (s : State) (p : Slot) : (applyCloseOwed p s).fixed = s.fixed := by
  unfold applyCloseOwed
  simp only
  split <;> simp

@[simp] theorem fixed_settleFormed (s : State) (p : Slot) : (settleFormed p s).fixed = s.fixed := by
  unfold settleFormed
  simp only
  split <;> simp

@[simp] theorem fixed_freeOpt (s : State) (p : Option Slot) : (freeOpt p s).fixed = s.fixed := by
  unfold freeOpt
  split <;> simp

@[simp] theorem fixed_completeEntry (s : State) (e : Entry) : (completeEntry e s).fixed = s.fixed := by
  unfold completeEntry
  split <;> simp

@[simp] theorem fixed_failPaths (s : State) (e : Entry) : (failPaths e s).fixed = s.fixed := by
  unfold failPaths
  repeat' split
  all_goals simp

@[simp] theorem fixed_recordFailure (s : State) (e : Entry) (why : EntryFailure) (b : Option BankId) (r : Option RouteId) : (recordFailure e why b r s).fixed = s.fixed := by
  rfl

@[simp] theorem fixed_failEntry (s : State) (e : Entry) (why : EntryFailure) (b : Option BankId) : (failEntry e why b s).fixed = s.fixed := by
  unfold failEntry
  split <;> simp

@[simp] theorem fixed_returnBanks (s : State) (o n : Slot) : (returnBanks o n s).fixed = s.fixed := by
  simp [returnBanks]

@[simp] theorem fixed_undoAcceptance (s : State) (e : Entry) : (undoAcceptance e s).fixed = s.fixed := by
  unfold undoAcceptance
  split <;> simp

@[simp] theorem fixed_cancelEntry (s : State) (e : Entry) : (cancelEntry e s).fixed = s.fixed := by
  simp [cancelEntry]

@[simp] theorem fixed_cancelAll (s : State) (es : List Entry) : (cancelAll es s).fixed = s.fixed := by
  exact fixed_foldl _ (fun s e => fixed_cancelEntry s e) es s

@[simp] theorem fixed_convertSwap (s : State) (e : Entry) (o n : Slot) : (convertSwap e o n s).fixed = s.fixed := by
  unfold convertSwap
  simp only
  repeat' split
  all_goals simp

@[simp] theorem fixed_failIdleHead (s : State) (pl : Plane) : (failIdleHead pl s).fixed = s.fixed := by
  unfold failIdleHead
  repeat' split
  all_goals simp

@[simp] theorem fixed_enterGrace (s : State) : (enterGrace s).fixed = s.fixed := by
  simp [enterGrace]

@[simp] theorem fixed_addCause (s : State) (c : SafeCause) : (addCause c s).fixed = s.fixed := by
  unfold addCause
  split <;> simp

@[simp] theorem fixed_removeCause (s : State) (c : SafeCause) : (removeCause c s).fixed = s.fixed := by
  simp [removeCause]

@[simp] theorem fixed_failHolder (s : State) (b : BankId) (k : FaultKind) : (failHolder b k s).fixed = s.fixed := by
  unfold failHolder
  simp only
  repeat' split
  all_goals simp

@[simp] theorem fixed_becomeValid (s : State) (b : BankId) (k : FaultKind) : (becomeValid b k s).fixed = s.fixed := by
  unfold becomeValid
  simp only
  split <;> simp

@[simp] theorem fixed_takePass (s : State) (b : BankId) (k : FaultKind) : (takePass b k s).fixed = s.fixed := by
  unfold takePass
  split <;> simp

@[simp] theorem fixed_takeMiss (s : State) (b : BankId) (k : FaultKind) : (takeMiss b k s).fixed = s.fixed := by
  unfold takeMiss
  simp only
  repeat' split
  all_goals simp

@[simp] theorem fixed_reportWorn (s : State) (b : BankId) : (reportWorn b s).fixed = s.fixed := by
  unfold reportWorn
  split <;> simp

@[simp] theorem fixed_updateEntry (s : State) (e e' : Entry) : (updateEntry e e' s).fixed = s.fixed := by
  simp [updateEntry]

@[simp] theorem fixed_addLegDone (s : State) (p : Slot) : (addLegDone p s).fixed = s.fixed := by
  simp [addLegDone]

@[simp] theorem fixed_afterLeg (s : State) (e : Entry) : (afterLeg e s).fixed = s.fixed := by
  unfold afterLeg
  repeat' split
  all_goals simp

@[simp] theorem fixed_endLeg (s : State) (e : Entry) (l : PlanLeg) : (endLeg e l s).fixed = s.fixed := by
  unfold endLeg
  split <;> simp

@[simp] theorem fixed_deferHot (s : State) (b : BankId) : (deferHot b s).fixed = s.fixed := by
  simp [deferHot]

@[simp] theorem fixed_holdLeg (s : State) (pl : Plane) (l : PlanLeg) (w : WaitReason) : (holdLeg pl l w s).fixed = s.fixed := by
  simp [holdLeg]

@[simp] theorem fixed_passHome (s : State) (pl : Plane) (b : BankId) : (passHome pl b s).fixed = s.fixed := by
  simp [passHome]

@[simp] theorem fixed_startLeg (s : State) (pl : Plane) (l : FlightLeg) : (startLeg pl l s).fixed = s.fixed := by
  unfold startLeg
  split <;> simp

@[simp] theorem fixed_startEntryLeg (s : State) (pl : Plane) (e : Entry) (l : PlanLeg) : (startEntryLeg pl e l s).fixed = s.fixed := by
  unfold startEntryLeg
  split <;> simp

@[simp] theorem fixed_meetHot (s : State) (pl : Plane) (e : Entry) (l : PlanLeg) : ((meetHot pl e l s).2).fixed = s.fixed := by
  unfold meetHot
  simp only
  repeat' split
  all_goals simp

@[simp] theorem fixed_checkLeg (s : State) (pl : Plane) (e : Entry) (l : PlanLeg) : ((checkLeg pl e l s).2).fixed = s.fixed := by
  unfold checkLeg
  repeat' split
  all_goals simp

@[simp] theorem fixed_takeLeg (s : State) (pl : Plane) (e : Entry) (l : PlanLeg) : ((takeLeg pl e l s).2).fixed = s.fixed := by
  unfold takeLeg
  repeat' split
  all_goals simp

@[simp] theorem fixed_takeEntry (s : State) (pl : Plane) (e : Entry) : ((takeEntry pl e s).2).fixed = s.fixed := by
  unfold takeEntry
  split <;> simp

@[simp] theorem fixed_takeHome (s : State) (pl : Plane) (b : BankId) : ((takeHome pl b s).2).fixed = s.fixed := by
  unfold takeHome
  repeat' split
  all_goals simp

@[simp] theorem fixed_chooseOnce (s : State) (pl : Plane) : ((chooseOnce pl s).2).fixed = s.fixed := by
  unfold chooseOnce
  repeat' split
  all_goals simp

@[simp] theorem fixed_chooseLoop (s : State) (pl : Plane) (n : Nat) : (chooseLoop pl n s).fixed = s.fixed := by
  induction n generalizing s with
  | zero => rfl
  | succ n ih =>
    unfold chooseLoop
    split
    · have h := fixed_chooseOnce s pl
      split <;> simp_all
    · rfl

@[simp] theorem fixed_choosePlane (s : State) (pl : Plane) : (choosePlane pl s).fixed = s.fixed := by
  simp [choosePlane]

@[simp] theorem fixed_chooseBoth (s : State) : (chooseBoth s).fixed = s.fixed := by
  unfold chooseBoth
  split <;> simp

@[simp] theorem fixed_closeForced (s : State) (p : Slot) : (closeForced p s).fixed = s.fixed := by
  unfold closeForced
  simp only
  split <;> simp

@[simp] theorem fixed_endForcedBreak (s : State) (p : Slot) (b : BankId) : (endForcedBreak p b s).fixed = s.fixed := by
  unfold endForcedBreak
  simp only
  repeat' split
  all_goals simp

@[simp] theorem fixed_takeForcedBreak (s : State) (pl : Plane) (p : Slot) (b : BankId) : ((takeForcedBreak pl p b s).2).fixed = s.fixed := by
  unfold takeForcedBreak
  repeat' split
  all_goals simp

@[simp] theorem fixed_forcedOnce (s : State) (pl : Plane) : ((forcedOnce pl s).2).fixed = s.fixed := by
  unfold forcedOnce
  simp only
  repeat' split
  all_goals simp

@[simp] theorem fixed_forcedLoop (s : State) (pl : Plane) (n : Nat) : (forcedLoop pl n s).fixed = s.fixed := by
  induction n generalizing s with
  | zero => rfl
  | succ n ih =>
    unfold forcedLoop
    have h := fixed_forcedOnce s pl
    split <;> simp_all

@[simp] theorem fixed_workForced (s : State) (pl : Plane) : (workForced pl s).fixed = s.fixed := by
  unfold workForced
  simp only
  repeat' split
  all_goals simp

@[simp] theorem fixed_finishReset (s : State) : (finishReset s).fixed = s.fixed := by
  unfold finishReset
  simp only
  split <;> simp

@[simp] theorem fixed_clearWorking (s : State) : (clearWorking s).fixed = s.fixed := by
  unfold clearWorking
  rw [fixed_removeCause, fixed_setRun, fixed_setRun]
  simp [State.fixed]

@[simp] theorem fixed_clearing (s : State) : (clearing s).fixed = s.fixed := by
  unfold clearing
  split <;> simp

@[simp] theorem fixed_reachSafe (s : State) : (reachSafe s).fixed = s.fixed := by
  have h : ∀ d : ByPlane Driver, ({ s.setSafe { s.safe with state := .safe } with drivers := d } : State).fixed = s.fixed :=
    fun _ => rfl
  unfold reachSafe
  simp only
  split
  · rw [fixed_clearing]; exact h _
  · split
    · rw [fixed_finishReset]; exact h _
    · exact h _

@[simp] theorem fixed_settleTeardown (s : State) : (settleTeardown s).fixed = s.fixed := by
  unfold settleTeardown
  simp only
  split <;> simp

@[simp] theorem fixed_owedInSafe (s : State) : (owedInSafe s).fixed = s.fixed := by
  unfold owedInSafe
  split <;> simp

@[simp] theorem fixed_react (s : State) : (react s).fixed = s.fixed := by
  unfold react
  split <;> simp

@[simp] theorem fixed_endDrive (s : State) (pl : Plane) : (endDrive pl s).fixed = s.fixed := by
  unfold endDrive
  simp only
  repeat' split
  all_goals simp

@[simp] theorem fixed_restDriver (s : State) (pl : Plane) : (restDriver pl s).fixed = s.fixed := by
  simp [restDriver]

@[simp] theorem fixed_recordMatch (s : State) (l : FlightLeg) : (recordMatch l s).fixed = s.fixed := by
  simp [recordMatch]

@[simp] theorem fixed_failSafeHead (s : State) (pl : Plane) (b : BankId) : (failSafeHead pl b s).fixed = s.fixed := by
  unfold failSafeHead
  repeat' split
  all_goals simp

@[simp] theorem fixed_endMatched (s : State) (pl : Plane) (l : FlightLeg) : (endMatched pl l s).fixed = s.fixed := by
  unfold endMatched
  repeat' split
  all_goals simp

@[simp] theorem fixed_endMismatched (s : State) (pl : Plane) (l : FlightLeg) : (endMismatched pl l s).fixed = s.fixed := by
  unfold endMismatched
  repeat' split
  all_goals simp

@[simp] theorem fixed_takeReadback (s : State) (pl : Plane) : (takeReadback pl s).fixed = s.fixed := by
  unfold takeReadback
  simp only
  repeat' split
  all_goals simp

@[simp] theorem fixed_endPause (s : State) (pl : Plane) : (endPause pl s).fixed = s.fixed := by
  unfold endPause
  split
  · rfl
  · rename_i x _
    simp only
    split
    · rename_i p _
      split
      · have h := fixed_takeForcedBreak (s.setDriver pl { s.driver pl with pause := none }) pl p x.leg.bank
        split <;> simp_all
      · simp
    · split <;> simp
    · split <;> simp
    · split <;> simp

@[simp] theorem fixed_openWindow (s : State) (tag : Byte) (n : Nat) (pl : Plane) : (openWindow tag n pl s).fixed = s.fixed := by
  unfold openWindow
  simp only
  split <;> simp

@[simp] theorem fixed_noteOverrun (s : State) (pl : Plane) : (noteOverrun pl s).fixed = s.fixed := by
  unfold noteOverrun
  simp only
  split
  · split <;> rfl
  · rfl

@[simp] theorem fixed_closeWindow (s : State) (pl : Plane) : (closeWindow pl s).fixed = s.fixed := by
  simp [closeWindow]

@[simp] theorem fixed_shutWindow (s : State) (tag : Byte) (pl : Plane) : (shutWindow tag pl s).fixed = s.fixed := by
  unfold shutWindow
  simp only
  split <;> simp

@[simp] theorem fixed_faultSeq (s : State) (st : Station) (pl : Option Plane) (why : SeqFaultReason) : (faultSeq st pl why s).fixed = s.fixed := by
  simp [faultSeq]

@[simp] theorem fixed_takeAccepted (s : State) (st : Station) (pl : Plane) (o n : Option Slot) : (takeAccepted st pl o n s).fixed = s.fixed := by
  simp [takeAccepted]

theorem fixed_acceptMake (s s' : State) (st : Station) (org : ChangeOrigin) (r : RouteId) (p : Slot)
    (h : acceptMake s st org r = .ok (p, s')) : s'.fixed = s.fixed := by
  unfold acceptMake at h
  split at h
  · cases h
  · split at h
    · cases h
    · cases h; simp

theorem fixed_acceptSwap (s s' : State) (st : Station) (org : ChangeOrigin) (o : Slot) (r : RouteId) (p : Slot)
    (h : acceptSwap s st org o r = .ok (p, s')) : s'.fixed = s.fixed := by
  unfold acceptSwap at h
  split at h
  · cases h
  · split at h
    · cases h
    · split at h
      · cases h
      · cases h; simp

@[simp] theorem fixed_askMake (s : State) (st : Station) (pl : Plane) (r : RouteId) : ((askMake st pl r s).2).fixed = s.fixed := by
  unfold askMake
  split
  · rename_i h; rw [fixed_takeAccepted]; exact fixed_acceptMake s _ st _ r _ h
  · rfl

@[simp] theorem fixed_askSwap (s : State) (st : Station) (pl : Plane) (r : RouteId) : ((askSwap st pl r s).2).fixed = s.fixed := by
  unfold askSwap
  split
  · rfl
  · split
    · rename_i h; rw [fixed_takeAccepted]; exact fixed_acceptSwap s _ st _ _ r _ h
    · rfl

@[simp] theorem fixed_askBreak (s : State) (st : Station) (pl : Plane) (o : Slot) : ((askBreak st pl o s).2).fixed = s.fixed := by
  simp [askBreak]

@[simp] theorem fixed_evalRoute (s : State) (st : Station) (pl : Plane) (r : RouteId) : ((evalRoute st pl r s).2).fixed = s.fixed := by
  unfold evalRoute
  repeat' split
  all_goals simp

@[simp] theorem fixed_evalClear (s : State) (st : Station) (pl : Plane) : ((evalClear st pl s).2).fixed = s.fixed := by
  unfold evalClear
  repeat' split
  all_goals simp

@[simp] theorem fixed_evalPlane (s : State) (st : Station) (pl : Plane) : ((evalPlane st pl s).2).fixed = s.fixed := by
  unfold evalPlane
  simp only
  repeat' split
  all_goals simp

theorem fixed_writeOutcome (st : Station) (pl : Plane) (x : PlaneOutcome × State) :
    (writeOutcome st pl x).2.fixed = x.2.fixed := by
  obtain ⟨o, s⟩ := x
  cases o <;> simp [writeOutcome]

@[simp] theorem fixed_evalJump (s : State) (st : Station) (n : StepId) : ((evalJump st n s).2).fixed = s.fixed := by
  unfold evalJump
  simp only
  repeat' split
  all_goals simp

@[simp] theorem fixed_settleSeq (s : State) (st : Station) : (settleSeq st s).fixed = s.fixed := by
  unfold settleSeq
  simp only
  repeat' split
  all_goals simp

@[simp] theorem fixed_arriveAt (s : State) (st : Station) (n : StepId) (lb : Bool) : (arriveAt st n lb s).fixed = s.fixed := by
  unfold arriveAt
  simp only
  split <;> simp

@[simp] theorem fixed_settleUnlessFaulted (st : Station) (y : Bool × State) :
    (settleUnlessFaulted st y).fixed = y.2.fixed := by
  obtain ⟨b, s⟩ := y
  cases b <;> simp [settleUnlessFaulted]

@[simp] theorem fixed_arriveA (s : State) (st : Station) (n : StepId) (lb : Bool) : ((arriveA st n lb s).2).fixed = s.fixed := by
  unfold arriveA
  simp only
  split
  · simp
  · have h := fixed_writeOutcome st .a (evalPlane st .a (arriveAt st n lb s))
    rw [fixed_evalPlane, fixed_arriveAt] at h
    split <;> simp_all

@[simp] theorem fixed_retryPlane (s : State) (st : Station) (pl : Plane) : ((retryPlane st pl s).2).fixed = s.fixed := by
  unfold retryPlane
  simp only
  split
  · rename_i call x _ _
    have h : ∀ y : PlaneOutcome × State, y.2.fixed = s.fixed →
        (match y with
         | (.applied, s1) => (false, s1.setRun st { s1.run st with stalled := (s1.run st).stalled.set pl none })
         | (.faulted why, s1) => (true, faultSeq st (some pl) why s1)
         | (_, s1) => (false, s1) : Bool × State).2.fixed = s.fixed := by
      rintro ⟨o, s1⟩ hy
      cases o <;> simpa using hy
    cases call
    · exact h _ (fixed_askMake s st pl x)
    · exact h _ (fixed_askSwap s st pl x)
  · rfl

@[simp] theorem fixed_afterRetry (s : State) (st : Station) : (afterRetry st s).fixed = s.fixed := by
  unfold afterRetry
  simp only
  repeat' split
  all_goals simp

@[simp] theorem fixed_retryA (s : State) (st : Station) : ((retryA st s).2).fixed = s.fixed := by
  unfold retryA
  have h := fixed_retryPlane s st .a
  split <;> simp_all

@[simp] theorem fixed_finishTurn (st : Station) (y : TurnRest × State) : (finishTurn st y).fixed = y.2.fixed := by
  obtain ⟨r, s⟩ := y
  cases r
  · rfl
  · simp [finishTurn, fixed_writeOutcome]
  · have h := fixed_retryPlane s st .b
    unfold finishTurn
    simp only
    split <;> simp_all

@[simp] theorem fixed_arrive (s : State) (st : Station) (n : StepId) (lb : Bool) : (arrive st n lb s).fixed = s.fixed := by
  simp [arrive]

@[simp] theorem fixed_endStepA (s : State) (st : Station) : ((endStepA st s).2).fixed = s.fixed := by
  unfold endStepA
  repeat' split
  all_goals simp

@[simp] theorem fixed_endStep (s : State) (st : Station) : (endStep st s).fixed = s.fixed := by
  simp [endStep]

@[simp] theorem fixed_takeCadenceA (s : State) (d : Nat) (st : Station) : ((takeCadenceA d st s).2).fixed = s.fixed := by
  unfold takeCadenceA
  simp only
  repeat' split
  all_goals simp

@[simp] theorem fixed_takeCadence (s : State) (d : Nat) (st : Station) : (takeCadence d st s).fixed = s.fixed := by
  simp [takeCadence]

@[simp] theorem fixed_startSeq (s : State) (st : Station) : (startSeq st s).fixed = s.fixed := by
  simp [startSeq]

@[simp] theorem fixed_resumeSeq (s : State) (st : Station) : (resumeSeq st s).fixed = s.fixed := by
  unfold resumeSeq
  simp only
  repeat' split
  all_goals simp

@[simp] theorem fixed_stopSeq (s : State) (st : Station) : (stopSeq st s).fixed = s.fixed := by
  simp [stopSeq]

@[simp] theorem fixed_startVisit (s : State) (b : BankId) : (startVisit b s).fixed = s.fixed := by
  simp [startVisit]

@[simp] theorem fixed_endCycle (s : State) : (endCycle s).fixed = s.fixed := by
  unfold endCycle
  simp only
  repeat' split
  all_goals simp

@[simp] theorem fixed_seekVisit (s : State) (n : Nat) : (seekVisit n s).fixed = s.fixed := by
  unfold seekVisit
  split <;> simp

@[simp] theorem fixed_startCycle (s : State) : (startCycle s).fixed = s.fixed := by
  simp [startCycle]

@[simp] theorem fixed_checkCoil (s : State) (b : BankId) (x : Sample) : (checkCoil b x s).fixed = s.fixed := by
  unfold checkCoil
  split <;> simp

@[simp] theorem fixed_checkDrift (s : State) (b : BankId) (r : BankRecord) (x : Sample) : (checkDrift b r x s).fixed = s.fixed := by
  unfold checkDrift
  repeat' split
  all_goals simp

@[simp] theorem fixed_checkStray (s : State) (b : BankId) (r : BankRecord) (x : Sample) : (checkStray b r x s).fixed = s.fixed := by
  unfold checkStray
  repeat' split
  all_goals simp

@[simp] theorem fixed_keepSample (s : State) (b : BankId) (x : Sample) : (keepSample b x s).fixed = s.fixed := by
  simp [keepSample]

@[simp] theorem fixed_judgeVisit (s : State) (b : BankId) (x : Sample) : (judgeVisit b x s).fixed = s.fixed := by
  unfold judgeVisit
  split <;> simp

@[simp] theorem fixed_endVisit (s : State) : (endVisit s).fixed = s.fixed := by
  unfold endVisit
  simp only
  repeat' split
  all_goals simp

@[simp] theorem fixed_retimeVisits (s : State) : (retimeVisits s).fixed = s.fixed := by
  unfold retimeVisits
  repeat' split
  all_goals simp

/-- Every point of a CADENCE frame leaves it (R158). -/
theorem fixed_cadencePoints (s : State) (d : Nat) (x : Arb) : ∀ u ∈ cadencePoints d x s, u.fixed = s.fixed := by
  unfold cadencePoints
  cases x.weave <;> simp

end Sys2Proof.Machine
end

