-- ==== Sys2Proof/Laws/Windows.lean ====
section
/-! SUPPORT. The windows: the work of the drivers, the paths, the sequencers, the faults and the Safe Controller never
writes a Window Tracker; only a window frame, a budget end and the end of a drive do. One lemma per shared operation. -/

namespace Sys2Proof.Machine

theorem trackers_foldl {α : Type} (f : State → α → State) (h : ∀ s x, (f s x).trackers = s.trackers) (xs : List α) (s : State) :
    (xs.foldl f s).trackers = s.trackers := by
  induction xs generalizing s with
  | nil => rfl
  | cons x xs ih => rw [List.foldl_cons, ih, h]

@[simp] theorem trackers_eachPlane (f : Plane → State → State) (h : ∀ p s, (f p s).trackers = s.trackers) (s : State) :
    (eachPlane f s).trackers = s.trackers := by
  unfold eachPlane
  split <;> simp [h]

@[simp] theorem trackers_freeSlot (s : State) (p : Slot) : (freeSlot p s).trackers = s.trackers := by
  simp [freeSlot]

@[simp] theorem trackers_placeMake (s : State) (st : Station) (org : ChangeOrigin) (r : RouteId) (p : Slot) : (placeMake s st org r p).trackers = s.trackers := by
  simp [placeMake]

@[simp] theorem trackers_placeSwap (s : State) (st : Station) (org : ChangeOrigin) (o : Slot) (r : RouteId) (p : Slot) : (placeSwap s st org o r p).trackers = s.trackers := by
  simp [placeSwap]

@[simp] theorem trackers_acceptBreak (s : State) (p : Slot) (org : ChangeOrigin) (x : Option PriorState) : (acceptBreak p org x s).trackers = s.trackers := by
  simp [acceptBreak]

@[simp] theorem trackers_goLive (s : State) (p : Slot) : (goLive p s).trackers = s.trackers := by
  simp [goLive]

@[simp] theorem trackers_startSettling (s : State) (p : Slot) : (startSettling p s).trackers = s.trackers := by
  unfold startSettling
  split <;> simp

@[simp] theorem trackers_failSlot (s : State) (p : Slot) (why : FailReason) : (failSlot p why s).trackers = s.trackers := by
  unfold failSlot
  simp only
  split <;> simp

@[simp] theorem trackers_notifyEnded (s : State) (e : Entry) (c : Bool) : (notifyEnded e c s).trackers = s.trackers := by
  unfold notifyEnded
  split <;> simp

@[simp] theorem trackers_clearHeld (s : State) (pl : Plane) : (clearHeld pl s).trackers = s.trackers := by
  simp [clearHeld]

@[simp] theorem trackers_removeEntry (s : State) (e : Entry) : (removeEntry e s).trackers = s.trackers := by
  unfold removeEntry
  split <;> simp

@[simp] theorem trackers_applyCloseOwed (s : State) (p : Slot) : (applyCloseOwed p s).trackers = s.trackers := by
  unfold applyCloseOwed
  simp only
  split <;> simp

@[simp] theorem trackers_settleFormed (s : State) (p : Slot) : (settleFormed p s).trackers = s.trackers := by
  unfold settleFormed
  simp only
  split <;> simp

@[simp] theorem trackers_freeOpt (s : State) (p : Option Slot) : (freeOpt p s).trackers = s.trackers := by
  unfold freeOpt
  split <;> simp

@[simp] theorem trackers_completeEntry (s : State) (e : Entry) : (completeEntry e s).trackers = s.trackers := by
  unfold completeEntry
  split <;> simp

@[simp] theorem trackers_failPaths (s : State) (e : Entry) : (failPaths e s).trackers = s.trackers := by
  unfold failPaths
  repeat' split
  all_goals simp

@[simp] theorem trackers_recordFailure (s : State) (e : Entry) (why : EntryFailure) (b : Option BankId) (r : Option RouteId) : (recordFailure e why b r s).trackers = s.trackers := by
  rfl

@[simp] theorem trackers_failEntry (s : State) (e : Entry) (why : EntryFailure) (b : Option BankId) : (failEntry e why b s).trackers = s.trackers := by
  unfold failEntry
  split <;> simp

@[simp] theorem trackers_returnBanks (s : State) (o n : Slot) : (returnBanks o n s).trackers = s.trackers := by
  simp [returnBanks]

@[simp] theorem trackers_undoAcceptance (s : State) (e : Entry) : (undoAcceptance e s).trackers = s.trackers := by
  unfold undoAcceptance
  split <;> simp

@[simp] theorem trackers_cancelEntry (s : State) (e : Entry) : (cancelEntry e s).trackers = s.trackers := by
  simp [cancelEntry]

@[simp] theorem trackers_cancelAll (s : State) (es : List Entry) : (cancelAll es s).trackers = s.trackers := by
  exact trackers_foldl _ (fun s e => trackers_cancelEntry s e) es s

@[simp] theorem trackers_convertSwap (s : State) (e : Entry) (o n : Slot) : (convertSwap e o n s).trackers = s.trackers := by
  unfold convertSwap
  simp only
  repeat' split
  all_goals simp

@[simp] theorem trackers_failIdleHead (s : State) (pl : Plane) : (failIdleHead pl s).trackers = s.trackers := by
  unfold failIdleHead
  repeat' split
  all_goals simp

@[simp] theorem trackers_enterGrace (s : State) : (enterGrace s).trackers = s.trackers := by
  simp [enterGrace]

@[simp] theorem trackers_addCause (s : State) (c : SafeCause) : (addCause c s).trackers = s.trackers := by
  unfold addCause
  split <;> simp

@[simp] theorem trackers_removeCause (s : State) (c : SafeCause) : (removeCause c s).trackers = s.trackers := by
  simp [removeCause]

@[simp] theorem trackers_failHolder (s : State) (b : BankId) (k : FaultKind) : (failHolder b k s).trackers = s.trackers := by
  unfold failHolder
  simp only
  repeat' split
  all_goals simp

@[simp] theorem trackers_becomeValid (s : State) (b : BankId) (k : FaultKind) : (becomeValid b k s).trackers = s.trackers := by
  unfold becomeValid
  simp only
  split <;> simp

@[simp] theorem trackers_takePass (s : State) (b : BankId) (k : FaultKind) : (takePass b k s).trackers = s.trackers := by
  unfold takePass
  split <;> simp

@[simp] theorem trackers_takeMiss (s : State) (b : BankId) (k : FaultKind) : (takeMiss b k s).trackers = s.trackers := by
  unfold takeMiss
  simp only
  repeat' split
  all_goals simp

@[simp] theorem trackers_reportWorn (s : State) (b : BankId) : (reportWorn b s).trackers = s.trackers := by
  unfold reportWorn
  split <;> simp

@[simp] theorem trackers_updateEntry (s : State) (e e' : Entry) : (updateEntry e e' s).trackers = s.trackers := by
  simp [updateEntry]

@[simp] theorem trackers_addLegDone (s : State) (p : Slot) : (addLegDone p s).trackers = s.trackers := by
  simp [addLegDone]

@[simp] theorem trackers_afterLeg (s : State) (e : Entry) : (afterLeg e s).trackers = s.trackers := by
  unfold afterLeg
  repeat' split
  all_goals simp

@[simp] theorem trackers_endLeg (s : State) (e : Entry) (l : PlanLeg) : (endLeg e l s).trackers = s.trackers := by
  unfold endLeg
  split <;> simp

@[simp] theorem trackers_deferHot (s : State) (b : BankId) : (deferHot b s).trackers = s.trackers := by
  simp [deferHot]

@[simp] theorem trackers_holdLeg (s : State) (pl : Plane) (l : PlanLeg) (w : WaitReason) : (holdLeg pl l w s).trackers = s.trackers := by
  simp [holdLeg]

@[simp] theorem trackers_passHome (s : State) (pl : Plane) (b : BankId) : (passHome pl b s).trackers = s.trackers := by
  simp [passHome]

@[simp] theorem trackers_startLeg (s : State) (pl : Plane) (l : FlightLeg) : (startLeg pl l s).trackers = s.trackers := by
  unfold startLeg
  split <;> simp

@[simp] theorem trackers_startEntryLeg (s : State) (pl : Plane) (e : Entry) (l : PlanLeg) : (startEntryLeg pl e l s).trackers = s.trackers := by
  unfold startEntryLeg
  split <;> simp

@[simp] theorem trackers_meetHot (s : State) (pl : Plane) (e : Entry) (l : PlanLeg) : ((meetHot pl e l s).2).trackers = s.trackers := by
  unfold meetHot
  simp only
  repeat' split
  all_goals simp

@[simp] theorem trackers_checkLeg (s : State) (pl : Plane) (e : Entry) (l : PlanLeg) : ((checkLeg pl e l s).2).trackers = s.trackers := by
  unfold checkLeg
  repeat' split
  all_goals simp

@[simp] theorem trackers_takeLeg (s : State) (pl : Plane) (e : Entry) (l : PlanLeg) : ((takeLeg pl e l s).2).trackers = s.trackers := by
  unfold takeLeg
  repeat' split
  all_goals simp

@[simp] theorem trackers_takeEntry (s : State) (pl : Plane) (e : Entry) : ((takeEntry pl e s).2).trackers = s.trackers := by
  unfold takeEntry
  split <;> simp

@[simp] theorem trackers_takeHome (s : State) (pl : Plane) (b : BankId) : ((takeHome pl b s).2).trackers = s.trackers := by
  unfold takeHome
  repeat' split
  all_goals simp

@[simp] theorem trackers_chooseOnce (s : State) (pl : Plane) : ((chooseOnce pl s).2).trackers = s.trackers := by
  unfold chooseOnce
  repeat' split
  all_goals simp

@[simp] theorem trackers_chooseLoop (s : State) (pl : Plane) (n : Nat) : (chooseLoop pl n s).trackers = s.trackers := by
  induction n generalizing s with
  | zero => rfl
  | succ n ih =>
    unfold chooseLoop
    split
    · have h := trackers_chooseOnce s pl
      split <;> simp_all
    · rfl

@[simp] theorem trackers_choosePlane (s : State) (pl : Plane) : (choosePlane pl s).trackers = s.trackers := by
  simp [choosePlane]

@[simp] theorem trackers_chooseBoth (s : State) : (chooseBoth s).trackers = s.trackers := by
  unfold chooseBoth
  split <;> simp

@[simp] theorem trackers_closeForced (s : State) (p : Slot) : (closeForced p s).trackers = s.trackers := by
  unfold closeForced
  simp only
  split <;> simp

@[simp] theorem trackers_endForcedBreak (s : State) (p : Slot) (b : BankId) : (endForcedBreak p b s).trackers = s.trackers := by
  unfold endForcedBreak
  simp only
  repeat' split
  all_goals simp

@[simp] theorem trackers_takeForcedBreak (s : State) (pl : Plane) (p : Slot) (b : BankId) : ((takeForcedBreak pl p b s).2).trackers = s.trackers := by
  unfold takeForcedBreak
  repeat' split
  all_goals simp

@[simp] theorem trackers_forcedOnce (s : State) (pl : Plane) : ((forcedOnce pl s).2).trackers = s.trackers := by
  unfold forcedOnce
  simp only
  repeat' split
  all_goals simp

@[simp] theorem trackers_forcedLoop (s : State) (pl : Plane) (n : Nat) : (forcedLoop pl n s).trackers = s.trackers := by
  induction n generalizing s with
  | zero => rfl
  | succ n ih =>
    unfold forcedLoop
    have h := trackers_forcedOnce s pl
    split <;> simp_all

@[simp] theorem trackers_workForced (s : State) (pl : Plane) : (workForced pl s).trackers = s.trackers := by
  unfold workForced
  simp only
  repeat' split
  all_goals simp

@[simp] theorem trackers_finishReset (s : State) : (finishReset s).trackers = s.trackers := by
  unfold finishReset
  simp only
  split <;> simp

@[simp] theorem trackers_clearWorking (s : State) : (clearWorking s).trackers = s.trackers := by
  unfold clearWorking
  rw [trackers_removeCause, trackers_setRun, trackers_setRun]
  simp

@[simp] theorem trackers_clearing (s : State) : (clearing s).trackers = s.trackers := by
  unfold clearing
  split <;> simp

@[simp] theorem trackers_reachSafe (s : State) : (reachSafe s).trackers = s.trackers := by
  have h : ∀ d : ByPlane Driver, ({ s.setSafe { s.safe with state := .safe } with drivers := d } : State).trackers = s.trackers :=
    fun _ => rfl
  unfold reachSafe
  simp only
  split
  · rw [trackers_clearing]; exact h _
  · split
    · rw [trackers_finishReset]; exact h _
    · exact h _

@[simp] theorem trackers_settleTeardown (s : State) : (settleTeardown s).trackers = s.trackers := by
  unfold settleTeardown
  simp only
  split <;> simp

@[simp] theorem trackers_owedInSafe (s : State) : (owedInSafe s).trackers = s.trackers := by
  unfold owedInSafe
  split <;> simp

@[simp] theorem trackers_react (s : State) : (react s).trackers = s.trackers := by
  unfold react
  split <;> simp

@[simp] theorem trackers_restDriver (s : State) (pl : Plane) : (restDriver pl s).trackers = s.trackers := by
  simp [restDriver]

@[simp] theorem trackers_recordMatch (s : State) (l : FlightLeg) : (recordMatch l s).trackers = s.trackers := by
  simp [recordMatch]

@[simp] theorem trackers_failSafeHead (s : State) (pl : Plane) (b : BankId) : (failSafeHead pl b s).trackers = s.trackers := by
  unfold failSafeHead
  repeat' split
  all_goals simp

@[simp] theorem trackers_endMatched (s : State) (pl : Plane) (l : FlightLeg) : (endMatched pl l s).trackers = s.trackers := by
  unfold endMatched
  repeat' split
  all_goals simp

@[simp] theorem trackers_endMismatched (s : State) (pl : Plane) (l : FlightLeg) : (endMismatched pl l s).trackers = s.trackers := by
  unfold endMismatched
  repeat' split
  all_goals simp

@[simp] theorem trackers_takeReadback (s : State) (pl : Plane) : (takeReadback pl s).trackers = s.trackers := by
  unfold takeReadback
  simp only
  repeat' split
  all_goals simp

@[simp] theorem trackers_endPause (s : State) (pl : Plane) : (endPause pl s).trackers = s.trackers := by
  unfold endPause
  split
  · rfl
  · rename_i x _
    simp only
    split
    · rename_i p _
      split
      · have h := trackers_takeForcedBreak (s.setDriver pl { s.driver pl with pause := none }) pl p x.leg.bank
        split <;> simp_all
      · simp
    · split <;> simp
    · split <;> simp
    · split <;> simp

@[simp] theorem trackers_noteOverrun (s : State) (pl : Plane) : (noteOverrun pl s).trackers = s.trackers := by
  unfold noteOverrun
  simp only
  split
  · split <;> rfl
  · rfl

@[simp] theorem trackers_faultSeq (s : State) (st : Station) (pl : Option Plane) (why : SeqFaultReason) : (faultSeq st pl why s).trackers = s.trackers := by
  simp [faultSeq]

@[simp] theorem trackers_takeAccepted (s : State) (st : Station) (pl : Plane) (o n : Option Slot) : (takeAccepted st pl o n s).trackers = s.trackers := by
  simp [takeAccepted]

theorem trackers_acceptMake (s s' : State) (st : Station) (org : ChangeOrigin) (r : RouteId) (p : Slot)
    (h : acceptMake s st org r = .ok (p, s')) : s'.trackers = s.trackers := by
  unfold acceptMake at h
  split at h
  · cases h
  · split at h
    · cases h
    · cases h; simp

theorem trackers_acceptSwap (s s' : State) (st : Station) (org : ChangeOrigin) (o : Slot) (r : RouteId) (p : Slot)
    (h : acceptSwap s st org o r = .ok (p, s')) : s'.trackers = s.trackers := by
  unfold acceptSwap at h
  split at h
  · cases h
  · split at h
    · cases h
    · split at h
      · cases h
      · cases h; simp

@[simp] theorem trackers_askMake (s : State) (st : Station) (pl : Plane) (r : RouteId) : ((askMake st pl r s).2).trackers = s.trackers := by
  unfold askMake
  split
  · rename_i h; rw [trackers_takeAccepted]; exact trackers_acceptMake s _ st _ r _ h
  · rfl

@[simp] theorem trackers_askSwap (s : State) (st : Station) (pl : Plane) (r : RouteId) : ((askSwap st pl r s).2).trackers = s.trackers := by
  unfold askSwap
  split
  · rfl
  · split
    · rename_i h; rw [trackers_takeAccepted]; exact trackers_acceptSwap s _ st _ _ r _ h
    · rfl

@[simp] theorem trackers_askBreak (s : State) (st : Station) (pl : Plane) (o : Slot) : ((askBreak st pl o s).2).trackers = s.trackers := by
  simp [askBreak]

@[simp] theorem trackers_evalRoute (s : State) (st : Station) (pl : Plane) (r : RouteId) : ((evalRoute st pl r s).2).trackers = s.trackers := by
  unfold evalRoute
  repeat' split
  all_goals simp

@[simp] theorem trackers_evalClear (s : State) (st : Station) (pl : Plane) : ((evalClear st pl s).2).trackers = s.trackers := by
  unfold evalClear
  repeat' split
  all_goals simp

@[simp] theorem trackers_evalPlane (s : State) (st : Station) (pl : Plane) : ((evalPlane st pl s).2).trackers = s.trackers := by
  unfold evalPlane
  simp only
  repeat' split
  all_goals simp

theorem trackers_writeOutcome (st : Station) (pl : Plane) (x : PlaneOutcome × State) :
    (writeOutcome st pl x).2.trackers = x.2.trackers := by
  obtain ⟨o, s⟩ := x
  cases o <;> simp [writeOutcome]

@[simp] theorem trackers_evalJump (s : State) (st : Station) (n : StepId) : ((evalJump st n s).2).trackers = s.trackers := by
  unfold evalJump
  simp only
  repeat' split
  all_goals simp

@[simp] theorem trackers_settleSeq (s : State) (st : Station) : (settleSeq st s).trackers = s.trackers := by
  unfold settleSeq
  simp only
  repeat' split
  all_goals simp

@[simp] theorem trackers_arriveAt (s : State) (st : Station) (n : StepId) (lb : Bool) : (arriveAt st n lb s).trackers = s.trackers := by
  unfold arriveAt
  simp only
  split <;> simp

@[simp] theorem trackers_settleUnlessFaulted (st : Station) (y : Bool × State) :
    (settleUnlessFaulted st y).trackers = y.2.trackers := by
  obtain ⟨b, s⟩ := y
  cases b <;> simp [settleUnlessFaulted]

@[simp] theorem trackers_arriveA (s : State) (st : Station) (n : StepId) (lb : Bool) : ((arriveA st n lb s).2).trackers = s.trackers := by
  unfold arriveA
  simp only
  split
  · simp
  · have h := trackers_writeOutcome st .a (evalPlane st .a (arriveAt st n lb s))
    rw [trackers_evalPlane, trackers_arriveAt] at h
    split <;> simp_all

@[simp] theorem trackers_retryPlane (s : State) (st : Station) (pl : Plane) : ((retryPlane st pl s).2).trackers = s.trackers := by
  unfold retryPlane
  simp only
  split
  · rename_i call x _ _
    have h : ∀ y : PlaneOutcome × State, y.2.trackers = s.trackers →
        (match y with
         | (.applied, s1) => (false, s1.setRun st { s1.run st with stalled := (s1.run st).stalled.set pl none })
         | (.faulted why, s1) => (true, faultSeq st (some pl) why s1)
         | (_, s1) => (false, s1) : Bool × State).2.trackers = s.trackers := by
      rintro ⟨o, s1⟩ hy
      cases o <;> simpa using hy
    cases call
    · exact h _ (trackers_askMake s st pl x)
    · exact h _ (trackers_askSwap s st pl x)
  · rfl

@[simp] theorem trackers_afterRetry (s : State) (st : Station) : (afterRetry st s).trackers = s.trackers := by
  unfold afterRetry
  simp only
  repeat' split
  all_goals simp

@[simp] theorem trackers_retryA (s : State) (st : Station) : ((retryA st s).2).trackers = s.trackers := by
  unfold retryA
  have h := trackers_retryPlane s st .a
  split <;> simp_all

@[simp] theorem trackers_finishTurn (st : Station) (y : TurnRest × State) : (finishTurn st y).trackers = y.2.trackers := by
  obtain ⟨r, s⟩ := y
  cases r
  · rfl
  · simp [finishTurn, trackers_writeOutcome]
  · have h := trackers_retryPlane s st .b
    unfold finishTurn
    simp only
    split <;> simp_all

@[simp] theorem trackers_arrive (s : State) (st : Station) (n : StepId) (lb : Bool) : (arrive st n lb s).trackers = s.trackers := by
  simp [arrive]

@[simp] theorem trackers_endStepA (s : State) (st : Station) : ((endStepA st s).2).trackers = s.trackers := by
  unfold endStepA
  repeat' split
  all_goals simp

@[simp] theorem trackers_endStep (s : State) (st : Station) : (endStep st s).trackers = s.trackers := by
  simp [endStep]

@[simp] theorem trackers_takeCadenceA (s : State) (d : Nat) (st : Station) : ((takeCadenceA d st s).2).trackers = s.trackers := by
  unfold takeCadenceA
  simp only
  repeat' split
  all_goals simp

@[simp] theorem trackers_takeCadence (s : State) (d : Nat) (st : Station) : (takeCadence d st s).trackers = s.trackers := by
  simp [takeCadence]

@[simp] theorem trackers_startSeq (s : State) (st : Station) : (startSeq st s).trackers = s.trackers := by
  simp [startSeq]

@[simp] theorem trackers_resumeSeq (s : State) (st : Station) : (resumeSeq st s).trackers = s.trackers := by
  unfold resumeSeq
  simp only
  repeat' split
  all_goals simp

@[simp] theorem trackers_stopSeq (s : State) (st : Station) : (stopSeq st s).trackers = s.trackers := by
  simp [stopSeq]

@[simp] theorem trackers_startVisit (s : State) (b : BankId) : (startVisit b s).trackers = s.trackers := by
  simp [startVisit]

@[simp] theorem trackers_endCycle (s : State) : (endCycle s).trackers = s.trackers := by
  unfold endCycle
  simp only
  repeat' split
  all_goals simp

@[simp] theorem trackers_seekVisit (s : State) (n : Nat) : (seekVisit n s).trackers = s.trackers := by
  unfold seekVisit
  split <;> simp

@[simp] theorem trackers_startCycle (s : State) : (startCycle s).trackers = s.trackers := by
  simp [startCycle]

@[simp] theorem trackers_checkCoil (s : State) (b : BankId) (x : Sample) : (checkCoil b x s).trackers = s.trackers := by
  unfold checkCoil
  split <;> simp

@[simp] theorem trackers_checkDrift (s : State) (b : BankId) (r : BankRecord) (x : Sample) : (checkDrift b r x s).trackers = s.trackers := by
  unfold checkDrift
  repeat' split
  all_goals simp

@[simp] theorem trackers_checkStray (s : State) (b : BankId) (r : BankRecord) (x : Sample) : (checkStray b r x s).trackers = s.trackers := by
  unfold checkStray
  repeat' split
  all_goals simp

@[simp] theorem trackers_keepSample (s : State) (b : BankId) (x : Sample) : (keepSample b x s).trackers = s.trackers := by
  simp [keepSample]

@[simp] theorem trackers_judgeVisit (s : State) (b : BankId) (x : Sample) : (judgeVisit b x s).trackers = s.trackers := by
  unfold judgeVisit
  split <;> simp

@[simp] theorem trackers_endVisit (s : State) : (endVisit s).trackers = s.trackers := by
  unfold endVisit
  simp only
  repeat' split
  all_goals simp

@[simp] theorem trackers_retimeVisits (s : State) : (retimeVisits s).trackers = s.trackers := by
  unfold retimeVisits
  repeat' split
  all_goals simp

/-- Every point of a CADENCE frame leaves it (R158). -/
theorem trackers_cadencePoints (s : State) (d : Nat) (x : Arb) : ∀ u ∈ cadencePoints d x s, u.trackers = s.trackers := by
  unfold cadencePoints
  cases x.weave <;> simp

end Sys2Proof.Machine
end

