-- ==== Sys2Proof/Laws/Readback.lean ====
section
/-! SUPPORT. What a cause that joins, a fault that becomes valid, a visit end, a readback and a change that ends with close
owed do (R33, R34, R65, R66, R124 to R130, R139); the records of the Window Trackers (R41): one lemma for each shared
operation. -/

namespace Sys2Proof.Machine

/-! ## Causes and faults (R130, R139) -/

/-- R139, R140: what a cause does when it joins. -/
theorem causeJoins_addCause (c : SafeCause) (s : State) : CauseJoins c.mask s (addCause c s) := by
  refine ⟨fun h => ?_, fun h => ?_⟩
  · rw [addCause_normal c s (by unfold State.isNormal; exact decide_eq_true h)]
    refine ⟨_, rfl, ?_⟩
    unfold eachPlane
    split
    · exact Or.inr rfl
    · exact Or.inl rfl
  · have hn : s.isNormal = false := decide_eq_false h
    unfold addCause
    rw [hn]
    rfl

theorem faultsOf_insert (b x : BankId) (k : FaultKind) (s : State) :
    (s.setFaults b (kindInsert k (s.faultsOf b))).faultsOf x =
      if x = b then s.faultsOf b ||| k.mask else s.faultsOf x :=
  faultsOf_setFaults s b x _

theorem bank_of_setFaults (b c : BankId) (x : KindSet) (s : State) : (s.setFaults b x).bank c = s.bank c := rfl

theorem failHolder_fails (b : BankId) (k : FaultKind) (s : State) (q : Slot) (h : FailsHolder b k s q) :
    failHolder b k s = failSlot q .bankFault s := by
  obtain ⟨hh, h1, h2, h3⟩ := h
  unfold failHolder
  rw [hh]
  refine if_pos ?_
  rcases h3 with h3 | h3 <;> rw [h3] <;> cases k <;> first | rfl | exact absurd rfl h1 | exact absurd rfl h2

theorem failHolder_keeps (b : BankId) (k : FaultKind) (s : State) (h : ∀ q, ¬ FailsHolder b k s q) :
    failHolder b k s = s := by
  unfold failHolder
  split
  · rfl
  · rename_i q hh
    refine if_neg fun hc => h q ?_
    rw [Bool.and_eq_true, Bool.or_eq_true, decide_eq_true_eq, decide_eq_true_eq] at hc
    refine ⟨hh, ?_, ?_, hc.1⟩ <;> rintro rfl <;> exact nomatch hc.2

/-- R33: what the holder of a faulted bank becomes. -/
theorem failHolder_spec (b : BankId) (k : FaultKind) (s : State) :
    failHolder b k s = { s with paths := (failHolder b k s).paths, events := (failHolder b k s).events } ∧
    (∀ p, (failHolder b k s).path p =
      if FailsHolder b k s p then
        { s.path p with
          state := .failed, failure := (s.path p).failure.or (some .bankFault), settleTimer := none }
      else s.path p) ∧
    (failHolder b k s).events = if ∃ p, FailsHolder b k s p then (s.raise .pathFailed).events else s.events := by
  by_cases he : ∃ q, FailsHolder b k s q
  · obtain ⟨q, hq⟩ := he
    have hs : (s.path q).state ≠ .failed := fun h => by rcases hq.2.2.2 with h' | h' <;> rw [h] at h' <;> cases h'
    have hf : failSlot q .bankFault s =
        (s.setPath q
          { s.path q with
            state := .failed, failure := (s.path q).failure.or (some .bankFault), settleTimer := none }).raise
          .pathFailed := if_neg hs
    rw [failHolder_fails b k s q hq, hf, if_pos ⟨q, hq⟩]
    refine ⟨rfl, fun p => ?_, rfl⟩
    rw [path_of_paths _ _ (paths_raise _ _), path_setPath]
    by_cases hp : p = q
    · subst hp
      rw [if_pos rfl, if_pos hq]
    · rw [if_neg hp, if_neg fun h => hp (Option.some.inj (h.1.symm.trans hq.1))]
  · have h0 : ∀ p, ¬ FailsHolder b k s p := fun p h => he ⟨p, h⟩
    rw [failHolder_keeps b k s h0, if_neg he]
    exact ⟨rfl, fun p => (if_neg (h0 p)).symm, rfl⟩

/-- R130, steps 1 to 3: the fault set, its summary, and FAULT. -/
def faultNoted (b : BankId) (k : FaultKind) (s : State) : State :=
  ((s.setFaults b (kindInsert k (s.faultsOf b))).setSup
    { (s.setFaults b (kindInsert k (s.faultsOf b))).sup with
      summaries := kindInsert k (s.setFaults b (kindInsert k (s.faultsOf b))).sup.summaries }).raise .fault

theorem faultNoted_eq (b : BankId) (k : FaultKind) (s : State) :
    faultNoted b k s = { s with sup := (faultNoted b k s).sup, events := (s.raise .fault).events } := rfl

theorem failsHolder_faultNoted (b : BankId) (k : FaultKind) (s : State) (p : Slot) :
    FailsHolder b k (faultNoted b k s) p ↔ FailsHolder b k s p := Iff.rfl

theorem becomeValid_eq (b : BankId) (k : FaultKind) (s : State) :
    becomeValid b k s =
      if kindIn k (failHolder b k (faultNoted b k s)).settings.safeMask then
        addCause .fault (failHolder b k (faultNoted b k s))
      else failHolder b k (faultNoted b k s) := rfl

/-- R130: what a fault does when it becomes valid. -/
theorem becameValid_becomeValid (b : BankId) (k : FaultKind) (s : State) : BecameValid b k s (becomeValid b k s) := by
  have hn := faultNoted_eq b k s
  have hs : (faultNoted b k s).sup =
      { s.sup with summaries := s.sup.summaries ||| k.mask, faults := (faultNoted b k s).sup.faults } := rfl
  have hf : ∀ x, (faultNoted b k s).faultsOf x = if x = b then s.faultsOf b ||| k.mask else s.faultsOf x :=
    fun x => faultsOf_insert b x k s
  have hh := failsHolder_faultNoted b k s
  rw [becomeValid_eq]
  generalize faultNoted b k s = t at hn hs hf hh ⊢
  obtain ⟨h1, h2, h3⟩ := failHolder_spec b k t
  have hset : (failHolder b k t).settings = s.settings := by rw [h1, hn]
  have hev : ∀ e, (t.raise e).events = ((s.raise .fault).raise e).events := fun e => by rw [hn]; rfl
  have hpath : ∀ p, t.path p = s.path p := fun p => by rw [hn]; rfl
  refine ⟨failHolder b k t, ⟨?_, ?_, fun x => ?_, fun p => ?_, ?_⟩, fun h => ?_, fun h => ?_⟩
  · have hu : (failHolder b k t).sup = t.sup := by rw [h1]
    rw [hu]
    exact h1.trans (by rw [hn])
  · rw [h1]
    exact hs
  · rw [h1]
    exact hf x
  · rw [h2 p]
    exact if_congr (hh p) (by rw [hpath p]) (hpath p)
  · rw [h3, hev]
    exact if_congr (exists_congr hh) rfl (by rw [hn])
  · rw [if_pos (by rw [hset]; exact h)]
    exact causeJoins_addCause .fault _
  · exact if_neg (by rw [hset, h]; decide)

/-- R128: a miss that makes its fault valid. -/
theorem becameValid_takeMiss (b : BankId) (k : FaultKind) (s : State) (h : MissMakesValid s b k) :
    BecameValid b k (s.setCounter b k (min 7 (s.counter b k + 1))) (takeMiss b k s) := by
  have hc : (kindIn k s.settings.bypass || decide (s.settings.effectiveThreshold ≤ min 7 (s.counter b k + 1))) = true := by
    unfold Settings.effectiveThreshold
    rcases h.2 with h2 | h2
    · rw [h2]
      rfl
    · rw [decide_eq_true h2]
      exact Bool.or_true _
  have : takeMiss b k s = becomeValid b k (s.setCounter b k (min 7 (s.counter b k + 1))) := by
    unfold takeMiss
    rw [h.1]
    dsimp only
    rw [hc]
    rfl
  rw [this]
  exact becameValid_becomeValid b k _

/-- R128: a miss that leaves its fault as it is. -/
theorem takeMiss_counts (b : BankId) (k : FaultKind) (s : State) (h : ¬ MissMakesValid s b k) :
    takeMiss b k s = if s.faultValid b k = true then s else s.setCounter b k (min 7 (s.counter b k + 1)) := by
  unfold takeMiss
  by_cases hv : s.faultValid b k = true
  · rw [if_pos hv, if_pos hv]
  · rw [if_neg hv, if_neg hv]
    have hn := fun h2 => h ⟨by simpa using hv, h2⟩
    have hc : (kindIn k s.settings.bypass || decide (s.settings.effectiveThreshold ≤ min 7 (s.counter b k + 1))) =
        false := by
      rw [Bool.or_eq_false_iff]
      refine ⟨by simpa using fun h2 => hn (Or.inl h2), ?_⟩
      unfold Settings.effectiveThreshold
      exact decide_eq_false fun h2 => hn (Or.inr h2)
    dsimp only
    rw [hc]
    rfl

/-- R126, R127: a bank that is newly worn. -/
theorem reportWorn_spec (b : BankId) (s : State) :
    ((s.bank b).isWorn = true ∧ s.faultValid b .worn = false → BecameValid b .worn s (reportWorn b s)) ∧
    (¬ ((s.bank b).isWorn = true ∧ s.faultValid b .worn = false) → reportWorn b s = s) := by
  unfold reportWorn
  refine ⟨fun ⟨h1, h2⟩ => ?_, fun h => ?_⟩
  · rw [h1, h2]
    exact becameValid_becomeValid b .worn s
  · refine if_neg fun hc => h ?_
    rw [Bool.and_eq_true, Bool.not_eq_true'] at hc
    exact hc

/-! ## Visits (R124 to R126, R128) -/

theorem resultTaken_takeMiss (b : BankId) (k : FaultKind) {miss : Prop} (h : miss) (s : State) :
    ResultTaken b k miss s (takeMiss b k s) := by
  refine ⟨fun hv => if_pos hv, fun hv => ⟨fun hn => absurd h hn, fun _ => becameValid_takeMiss b k s, fun _ hn => ?_⟩⟩
  rw [takeMiss_counts b k s hn, hv]
  exact if_neg Bool.false_ne_true

theorem resultTaken_takePass (b : BankId) (k : FaultKind) {miss : Prop} (h : ¬ miss) (s : State) :
    ResultTaken b k miss s (takePass b k s) := by
  refine ⟨fun hv => if_pos hv, fun hv => ⟨fun _ => ?_, fun hm => absurd hm h, fun hm => absurd hm h⟩⟩
  unfold takePass
  rw [hv]
  exact if_neg Bool.false_ne_true

/-- R125: the COIL check. -/
theorem resultTaken_checkCoil (b : BankId) (x : Sample) (s : State) :
    ResultTaken b .coil (x.coil.toNat < s.settings.coilMin ∨ s.settings.coilMax < x.coil.toNat) s (checkCoil b x s) := by
  unfold checkCoil
  split
  · rename_i h
    exact resultTaken_takeMiss b .coil h s
  · rename_i h
    exact resultTaken_takePass b .coil h s

/-- R125: the DRIFT check. -/
theorem resultTaken_checkDrift (b : BankId) (r : BankRecord) (x : Sample) (s : State) :
    ResultTaken b .drift (r.position ≠ none ∧ r.position ≠ x.reading) s (checkDrift b r x s) := by
  unfold checkDrift
  split
  · rename_i h
    exact resultTaken_takePass b .drift (fun hm => hm.1 h) s
  · rename_i c h
    split
    · rename_i hr
      exact resultTaken_takePass b .drift (fun hm => hm.2 (h.trans hr.symm)) s
    · rename_i hr
      exact resultTaken_takeMiss b .drift ⟨by rw [h]; exact Option.some_ne_none c, fun hc => hr (hc.symm.trans h)⟩ s

theorem settings_of_fixed {s t : State} (h : t.fixed = s.fixed) : t.settings = s.settings := 
  congrArg (fun x => x.1.2.2.1) h

/-- R126: the STRAY check. -/
theorem checkStray_spec (b : BankId) (r : BankRecord) (x : Sample) (s : State) :
    (r.position = some .term ∧ r.holder = none →
      ResultTaken b .stray (s.settings.strayThreshold ≤ x.detector.toNat) s (checkStray b r x s)) ∧
    (¬ (r.position = some .term ∧ r.holder = none) → checkStray b r x s = s) := by
  unfold checkStray
  refine ⟨fun h => ?_, fun h => if_neg h⟩
  rw [if_pos h]
  split
  · rename_i hm
    exact resultTaken_takeMiss b .stray hm s
  · rename_i hm
    exact resultTaken_takePass b .stray hm s

/-- R124 to R126: what the end of a visit to a fitted bank with no leg in flight does. -/
theorem visitJudged_judgeVisit (b : BankId) (x : Sample) (s : State) (hf : (s.bank b).fitted = true)
    (hl : s.inFlight b = false) : ∃ w, VisitJudged b x s w ∧ judgeVisit b x s = keepSample b x w := by
  have hd : (checkDrift b (s.bank b) x (checkCoil b x s)).settings = s.settings :=
    settings_of_fixed ((fixed_checkDrift _ b _ x).trans (fixed_checkCoil s b x))
  have hs := checkStray_spec b (s.bank b) x (checkDrift b (s.bank b) x (checkCoil b x s))
  rw [hd] at hs
  have hw := reportWorn_spec b (checkStray b (s.bank b) x (checkDrift b (s.bank b) x (checkCoil b x s)))
  have hi : ∀ y : State, ((y.bank b).isWorn = true ∧ y.faultValid b .worn = false) ↔
      ((y.bank b).lifeLimit ≠ 0 ∧ (y.bank b).lifeLimit ≤ (y.bank b).lifeCount ∧ y.faultValid b .worn = false) := by
    intro y
    unfold BankRecord.isWorn
    rw [Bool.and_eq_true, decide_eq_true_iff, decide_eq_true_iff, and_assoc]
  rw [hi] at hw
  refine ⟨_, ⟨_, _, _, resultTaken_checkCoil b x s, resultTaken_checkDrift b (s.bank b) x _, hs.1, hs.2, hw.1, hw.2⟩, ?_⟩
  unfold judgeVisit
  rw [hf, hl]
  rfl

/-! ## The end of a change with close owed (R34) -/

/-- R34: the BREAK that close owed brings to a slot that is FAILED already. -/
theorem failedThenClosing_applyCloseOwed (n : Slot) (s : State) (hf : (s.path n).state = .failed)
    (ho : (s.path n).closeOwed = true) (hn : s.safe.state = .normal) :
    FailedThenClosing n s (applyCloseOwed n s) s.queue := by
  have hc : ((s.path n).closeOwed && s.isNormal) = true := by
    rw [ho]
    exact decide_eq_true hn
  have h : applyCloseOwed n s = acceptBreak n (owedOrigin (s.path n)) (some .failed) s := by
    unfold applyCloseOwed
    dsimp only
    rw [hc, if_pos rfl, if_pos hf]
  rw [h]
  refine ⟨?_, rfl, _, queue_acceptBreak n _ _ s, rfl, rfl, rfl, rfl, fun c st hc hs => ?_⟩
  · rw [path_acceptBreak, if_pos rfl]
  · dsimp only
    unfold owedOrigin
    rw [hc, hs]
    cases c <;> rfl

/-! ## The records of the Window Trackers (R41) -/

theorem trackerHolds_shut : TrackerHolds Tracker.shut := Or.inl rfl

theorem trackerHolds_open (tag : Byte) (n : Nat) (h1 : 1 ≤ n) (h2 : n ≤ 4095) :
    TrackerHolds { isOpen := true, tag := some tag, budget := n, closingHeld := false } :=
  Or.inr (Or.inl ⟨rfl, nofun, h1, h2, rfl, nofun⟩)

/-- R41, R44: time that passes keeps a tracker in its row. -/
theorem trackerHolds_elapse (n : Nat) (t : Tracker) (h : TrackerHolds t) : TrackerHolds (t.elapse n) := by
  unfold Tracker.elapse
  rcases h with rfl | ⟨ho, ht, h1, h2, hh, hd⟩ | rfl
  · exact Or.inl rfl
  · rw [ho, hh]
    simp only [Bool.not_false, Bool.and_self, if_true]
    split
    · rename_i hl
      unfold Tracker.timeLeft at hl
      by_cases hq : t.due = true
      · rw [if_pos hq] at hl
        omega
      · rw [if_neg hq] at hl
        refine Or.inr (Or.inl ⟨rfl, ht, ?_, ?_, rfl, fun hx => absurd hx hq⟩)
        · show 1 ≤ t.budget - n
          omega
        · show t.budget - n ≤ 4095
          omega
    · exact Or.inr (Or.inl ⟨rfl, ht, Nat.le_refl 1, Nat.le_add_left 1 4094, rfl, fun _ => rfl⟩)
  · exact Or.inr (Or.inr rfl)

theorem windowRecordsHold_elapse (n : Nat) (s : State) (h : WindowRecordsHold s) : WindowRecordsHold (s.elapse n) :=
  ⟨trackerHolds_elapse n _ h.1, trackerHolds_elapse n _ h.2⟩

theorem windowRecordsHold_setTracker (pl : Plane) (t : Tracker) (s : State) (h : WindowRecordsHold s)
    (ht : TrackerHolds t) : WindowRecordsHold (s.setTracker pl t) := by
  cases pl
  · exact ⟨ht, h.2⟩
  · exact ⟨h.1, ht⟩

/-- A step that leaves the trackers keeps their records. -/
theorem windowRecordsHold_of_trackers {s t : State} (ht : t.trackers = s.trackers) (h : WindowRecordsHold s) :
    WindowRecordsHold t := by
  unfold WindowRecordsHold
  rw [ht]
  exact h

/-- R43: an opening with a well-formed budget. -/
theorem windowRecordsHold_openWindow (tag : Byte) (n : Nat) (pl : Plane) (s : State) (h1 : 1 ≤ n) (h2 : n ≤ 4095)
    (h : WindowRecordsHold s) : WindowRecordsHold (openWindow tag n pl s) := by
  have ho := windowRecordsHold_setTracker pl _ s h (trackerHolds_open tag n h1 h2)
  unfold openWindow
  dsimp only
  split
  · exact ho
  · refine windowRecordsHold_of_trackers ?_ ho
    simp

/-- R44 to R46: a closing. -/
theorem windowRecordsHold_closeWindow (pl : Plane) (s : State) (h : WindowRecordsHold s) :
    WindowRecordsHold (closeWindow pl s) := by
  have ht : ∀ x : Bool, TrackerHolds
      (if x = true then { isOpen := true, tag := none, budget := 0, closingHeld := true } else Tracker.shut) := by
    intro x
    cases x
    · exact Or.inl rfl
    · exact Or.inr (Or.inr rfl)
  refine windowRecordsHold_of_trackers ?_ (windowRecordsHold_setTracker pl _ s h (ht (heldAtClosing (s.driver pl))))
  exact trackers_noteOverrun (s.setTracker pl _) pl

/-! ## A readback (R64 to R66) -/

theorem counter_setCounter (s : State) (b c : BankId) (k j : FaultKind) (n : Nat) (h : k ≠ .worn) :
    (s.setCounter b k n).counter c j = if c = b ∧ j = k then n else s.counter c j := by
  have hv := vector_get_set s.sup.counters b c ((s.sup.counters.get b).set k n)
  unfold State.counter State.setCounter State.setSup
  dsimp only
  rw [hv]
  by_cases hc : c = b
  · subst hc
    rw [if_pos rfl]
    cases k <;> cases j <;> simp_all [MissCounters.get, MissCounters.set]
  · rw [if_neg hc, if_neg fun x => hc x.1]

/-- R65: a readback that equals the target, up to what the leg's end does. -/
theorem takeReadback_match (pl : Plane) (x : State) (l : FlightLeg) (hl : (x.driver pl).leg = some l)
    (hr : x.readback l.bank = some l.target) :
    ∃ v y w : State, takeReadback pl x = react (endMatched pl l w) ∧
      v =
        { x.setDriver pl { x.driver pl with phase := .checking, left := 0 } with
          banks := v.banks, sup := { x.sup with counters := v.sup.counters } } ∧
      v.bank l.bank =
        { x.bank l.bank with
          position := some l.target, lifeCount := min ((x.bank l.bank).lifeCount + 1) 4294967295 } ∧
      (∀ b, b ≠ l.bank → v.bank b = x.bank b) ∧
      (∀ b k, v.counter b k =
        if b = l.bank ∧ k = .position ∧ x.faultValid b .position = false then 0 else x.counter b k) ∧
      (NewlyWorn x l.bank → BecameValid l.bank .worn v y) ∧ (¬ NewlyWorn x l.bank → y = v) ∧
      w = y.setDriver pl { y.driver pl with phase := .idle, leg := none, left := 0 } := by
  let s1 := x.setDriver pl { x.driver pl with phase := .checking, left := 0 }
  let s2 := s1.setBank l.bank (countedBank { s1.bank l.bank with position := some l.target })
  let v := takePass l.bank .position s2
  have hs2 : ∀ b, s2.bank b =
      if b = l.bank then
        { x.bank l.bank with
          position := some l.target, lifeCount := min ((x.bank l.bank).lifeCount + 1) 4294967295 }
      else x.bank b := fun b => bank_setBank s1 l.bank b _
  have hv : v = if x.faultValid l.bank .position = true then s2 else s2.setCounter l.bank .position 0 := rfl
  have hb : v.banks = s2.banks := by
    rw [hv]
    split <;> rfl
  have hf : v.sup.faults = x.sup.faults := by
    rw [hv]
    split <;> rfl
  have hw : ((v.bank l.bank).isWorn = true ∧ v.faultValid l.bank .worn = false) ↔ NewlyWorn x l.bank := by
    have h1 : v.bank l.bank = _ := (bank_of_banks _ _ hb l.bank).trans ((hs2 l.bank).trans (if_pos rfl))
    have h2 : v.faultValid l.bank .worn = x.faultValid l.bank .worn := by
      unfold State.faultValid State.faultsOf
      rw [hf]
    unfold BankRecord.isWorn NewlyWorn
    rw [h1, h2, Bool.and_eq_true, decide_eq_true_eq, decide_eq_true_eq, and_assoc]
  obtain ⟨w1, w2⟩ := reportWorn_spec l.bank v
  refine ⟨v, reportWorn l.bank v, _, ?_, ?_, ?_, fun b hn => ?_, fun b k => ?_, fun h => w1 (hw.2 h),
    fun h => w2 fun h' => h (hw.1 h'), rfl⟩
  · unfold takeReadback
    rw [hl]
    exact if_pos hr
  · rw [hv]
    split <;> rfl
  · exact (bank_of_banks _ _ hb l.bank).trans ((hs2 l.bank).trans (if_pos rfl))
  · exact (bank_of_banks _ _ hb b).trans ((hs2 b).trans (if_neg hn))
  · rw [hv]
    by_cases hp : x.faultValid l.bank .position = true
    · rw [if_pos hp, if_neg]
      · rfl
      · rintro ⟨rfl, -, h⟩
        rw [hp] at h
        cases h
    · rw [if_neg hp, counter_setCounter _ _ _ _ _ _ (by decide)]
      by_cases hx : b = l.bank ∧ k = .position
      · rw [if_pos hx, if_pos ⟨hx.1, hx.2, by rw [hx.1]; simpa using hp⟩]
      · rw [if_neg hx, if_neg fun h => hx ⟨h.1, h.2.1⟩]
        rfl

/-- R66: a readback that differs from the target, up to what the leg's end does. -/
theorem takeReadback_differs (pl : Plane) (x : State) (l : FlightLeg) (hl : (x.driver pl).leg = some l)
    (hr : x.readback l.bank ≠ some l.target) :
    ∃ v y w : State, takeReadback pl x = react (endMismatched pl l w) ∧
      v =
        { x.setDriver pl { x.driver pl with phase := .checking, left := 0 } with
          banks := v.banks, sup := { x.sup with counters := v.sup.counters } } ∧
      v.bank l.bank = { x.bank l.bank with position := x.readback l.bank } ∧
      (∀ b, b ≠ l.bank → v.bank b = x.bank b) ∧
      (∀ b k, v.counter b k =
        if b = l.bank ∧ k = .position ∧ x.faultValid b .position = false then min 7 (x.counter b k + 1)
        else x.counter b k) ∧
      (MissMakesValid x l.bank .position → BecameValid l.bank .position v y) ∧
      (¬ MissMakesValid x l.bank .position → y = v) ∧
      w = y.setDriver pl { y.driver pl with phase := .idle, leg := none, left := 0 } := by
  let s1 := x.setDriver pl { x.driver pl with phase := .checking, left := 0 }
  let s2 := s1.recordPosition l.bank (x.readback l.bank)
  let n := min 7 (x.counter l.bank .position + 1)
  have hs2 : ∀ b, s2.bank b =
      if b = l.bank then { x.bank l.bank with position := x.readback l.bank } else x.bank b :=
    fun b => bank_setBank s1 l.bank b _
  let v := if x.faultValid l.bank .position = true then s2 else s2.setCounter l.bank .position n
  have hb : v.banks = s2.banks := by
    show (if x.faultValid l.bank .position = true then s2 else s2.setCounter l.bank .position n).banks = _
    split <;> rfl
  refine ⟨v, takeMiss l.bank .position s2, _, ?_, ?_, ?_, fun b hn => ?_, fun b k => ?_, fun h => ?_, fun h => ?_, rfl⟩
  · unfold takeReadback
    rw [hl]
    exact if_neg hr
  · show (if x.faultValid l.bank .position = true then s2 else s2.setCounter l.bank .position n) = _
    dsimp only [v]
    split <;> rfl
  · exact (bank_of_banks _ _ hb l.bank).trans ((hs2 l.bank).trans (if_pos rfl))
  · exact (bank_of_banks _ _ hb b).trans ((hs2 b).trans (if_neg hn))
  · dsimp only [v]
    by_cases hp : x.faultValid l.bank .position = true
    · rw [if_pos hp, if_neg]
      · rfl
      · rintro ⟨rfl, -, h⟩
        rw [hp] at h
        cases h
    · rw [if_neg hp, counter_setCounter _ _ _ _ _ _ (by decide)]
      by_cases hx : b = l.bank ∧ k = .position
      · rw [if_pos hx, if_pos ⟨hx.1, hx.2, by rw [hx.1]; simpa using hp⟩, hx.1, hx.2]
      · rw [if_neg hx, if_neg fun h => hx ⟨h.1, h.2.1⟩]
        rfl
  · have hv : v = s2.setCounter l.bank .position n := if_neg (by rw [h.1]; decide)
    rw [hv]
    exact becameValid_takeMiss l.bank .position s2 h
  · exact takeMiss_counts l.bank .position s2 h

end Sys2Proof.Machine
end

