-- ==== Sys2Proof/Tests/Slice0.lean ====
section
/-! SUPPORT. The model's own tests: an ill-formed command for each check of WellFormed, small steps, and, for every
statement with hypotheses, concrete states and operands that meet them, clause by clause. -/

namespace Sys2Proof.Tests

open Sys2Proof.Machine

set_option Elab.async false
set_option synthInstance.maxSize 4000
set_option synthInstance.maxHeartbeats 200000

/-! ## Small states -/

/-- A REQUEST of station S1 to node 1. -/
def req (ps : List Byte) : Request := { hdr := ⟨0, 1, 7⟩, station := 1, params := ps, status := 0xFF, resp := [] }

/-- The same of no station. -/
def anon (ps : List Byte) : Request := { req ps with station := 0 }

/-- A broadcast of it, with an ack map. -/
def cast (ps : List Byte) : Request := { req ps with hdr := ⟨0, 0, 7⟩, resp := [0, 0] }

/-- The part after reset, addressed as node 1. -/
def node : State := { State.reset with ring := { RingInterface.reset with address := some 1 } }

/-- A fitted bank at TERM. -/
def bankOn (pl : Plane) : BankRecord :=
  { BankRecord.reset with fitted := true, plane := pl, throwsFitted := 8, operate := 50, settle := 20, position := some .term }

/-- A route of plane A for either station. -/
def routeA (port : Nat) (e : Endpoint) (legs : List RouteLeg) : RouteRecord :=
  { defined := true, station := .either, port := port, plane := .a, endpoint := e, legs := legs, extraSettle := 200 }

/-- Banks 0 and 1 of plane A and bank 2 of plane B are fitted and claimed by S1; route 0 is bank 0 at T1, route 1 bank 0
at T2 and bank 1 at T8, route 2 bank 1 at T1 to F1; every contact set reads TERM. -/
def rig : State :=
  let s :=
    ((((((node.setBank 0 (bankOn .a)).setBank 1 (bankOn .a)).setBank 2 (bankOn .b)).setRoute 0
      (routeA 1 (.probe 0) [⟨0, 0⟩])).setRoute 1 (routeA 8 (.probe 63) [⟨0, 1⟩, ⟨1, 7⟩])).setRoute 2
      (routeA 2 (.fixture 0) [⟨1, 0⟩]))
  { s with
    lines := Vector.replicate 24 ⟨1, 0, 300⟩
    claims :=
      { banks := ((ClaimTable.empty.banks.set 0 (some .s1)).set 1 (some .s1)).set 2 (some .s1)
        fixtures := ClaimTable.empty.fixtures.set 0 (some .s1) } }

/-- A path of S1 on a route. -/
def pathOn (x : PathState) (r : RouteId) : PathRecord :=
  { PathRecord.free with state := x, route := some r, station := some .s1, origin := some .request }

/-- P15 holds bank 0 on route 0, in the state given. -/
def held (x : PathState) : State :=
  (rig.setBank 0 { bankOn .a with holder := some 15 }).setPath 15 (pathOn x 0)

/-- The MAKE of P15 waits in the queue. -/
def making : Entry :=
  { kind := .makeChange, old := none, new := some 15, plane := .a, origin := .request .s1, active := false,
    plan := [⟨0, .thr 0, .makePart, .newSlot⟩] }

def forming : State := (held .forming).setQueue [making]

/-- The BREAK of P15 waits in the queue. -/
def breaking : Entry :=
  { kind := .breakChange, old := some 15, new := none, plane := .a, origin := .request .s1, active := false,
    plan := [⟨0, .term, .breakPart, .oldSlot⟩] }

def closing (x : PriorState) : State :=
  ((held .closing).setPath 15 { pathOn .closing 0 with prior := some x, priorLegs := 1 }).setQueue [breaking]

/-- The state after the outcome has the property. -/
def shows (o : Host.Outcome State Fault Refusal) (p : State → Bool) : Bool :=
  match o with
  | .next t => p t
  | _ => false

/-- The status and response data of the request frame sent last, whose parameters were `n` bytes. -/
def answerOf (n : Nat) (t : State) : List Byte :=
  match t.ring.forward.getLast? with
  | some f => (f.drop (7 + n)).take (f.length - 9 - n)
  | none => []

/-! ## Commands that are not well formed -/

theorem test_wf_too_many_params : (Instr.ident (req (List.replicate 57 0))).wellFormed = false := by decide +kernel

theorem test_wf_too_much_response :
    (Instr.ident { req [] with resp := List.replicate 57 0 }).wellFormed = false := by decide +kernel

theorem test_wf_known_code_unknown : (Instr.eUnknown 0x63 (req [])).wellFormed = false := by decide +kernel

theorem test_wf_unknown_too_many_params :
    (Instr.eUnknown 0x64 (req (List.replicate 57 0))).wellFormed = false := by decide +kernel

theorem test_wf_other_is_broadcast : (Instr.requestOtherDestination 1 (cast [])).wellFormed = false := by decide +kernel

theorem test_wf_other_too_many_params :
    (Instr.requestOtherDestination 1 (req (List.replicate 57 0))).wellFormed = false := by decide +kernel

theorem test_wf_clash_is_broadcast :
    (Instr.addressClash 1 { cast [] with status := 0 }).wellFormed = false := by decide +kernel

theorem test_wf_clash_not_taken : (Instr.addressClash 1 (req [])).wellFormed = false := by decide +kernel

theorem test_wf_clash_too_many_params :
    (Instr.addressClash 1 { req (List.replicate 57 0) with status := 0 }).wellFormed = false := by decide +kernel

theorem test_wf_bad_frame_empty : (Instr.badFrame []).wellFormed = false := by decide +kernel

theorem test_wf_lost_frame_empty : (Instr.forwardListFull []).wellFormed = false := by decide +kernel

theorem test_wf_unknown_frame_short : (Instr.unknownFrame [0x60, 0, 0, 0, 0]).wellFormed = false := by decide +kernel

theorem test_wf_unknown_frame_long : (Instr.unknownFrame (List.replicate 127 0x60)).wellFormed = false := by
  decide +kernel

theorem test_wf_unknown_frame_known_kind :
    (Instr.unknownFrame [0x50, 0, 0, 0, 0, 0]).wellFormed = false := by decide +kernel

theorem test_wf_good : (Instr.unknownFrame [0x60, 0, 0, 0, 0, 0]).wellFormed = true ∧
    (Instr.ident (req (List.replicate 56 0))).wellFormed = true ∧ (Instr.eUnknown 0x64 (req [])).wellFormed = true := by
  decide +kernel

/-! ## Small checks of shared operations -/

/-- R149: the check of the bytes 31H to 39H is 29B1H. -/
theorem test_crc_nine_bytes : crc [0x31, 0x32, 0x33, 0x34, 0x35, 0x36, 0x37, 0x38, 0x39] = 0x29B1 := by decide +kernel

/-- The table of requests answers exactly the codes of R161. -/
theorem test_table_has_codes : requestTable.map Prod.fst = requestCodes := rfl

/-- The statements' two lists are the table's codes. -/
theorem test_broadcast_split :
    (requestCodes.all fun c => ((executedInBroadcast ++ keptFromBroadcast).map Prod.fst).contains c) = true ∧
      (executedInBroadcast ++ keptFromBroadcast).length = 33 := by decide +kernel

/-- The opcode table gives no row bits. -/
theorem test_no_word_spells_a_command (n w : Nat) : decodeTableWord n w = none := rfl

/-! ## Small steps -/

theorem test_ident :
    shows (exec (.ident (req [])) node) (fun t => decide (answerOf 0 t = [0x00, 11] ++ bytes2 6420 ++ [1, 1, 24, 128, 16] ++
      bytes2 512 ++ [2, 4])) = true := by decide +kernel

theorem test_get_settings_defaults :
    shows (exec (.getSettings (req [])) node) (fun t => decide (answerOf 0 t =
      [0x00, 18, 0, 10, 20, 2, 0, 0, 64, 0, 128, 0, 200, 3, 32, 0x3F, 0, 0x3F, 0xFF, 0xFF])) = true := by decide +kernel

theorem test_set_settings :
    shows (exec (.setSettings (req [5, 10, 20, 2, 0, 0, 64, 0, 128, 0, 200, 3, 32, 0x3F, 0, 0x3F, 0xFF, 0xFF])) node)
      (fun t => decide (t.settings = { Settings.default with keepalivePeriod := 5 }) &&
        decide (t.ring.keepalive = some 500) && decide (answerOf 18 t = [0x00, 0])) = true := by decide +kernel

/-- R164: the index of the first field out of range; the mute grace is 0. -/
theorem test_set_settings_bad :
    shows (exec (.setSettings (req [5, 0, 20, 2, 0, 0, 64, 0, 128, 0, 200, 3, 32, 0x3F, 0, 0x3F, 0xFF, 0xFF])) node)
      (fun t => decide (t.settings = Settings.default) && decide ((answerOf 18 t).head? = some 0x10)) = true := by
  decide +kernel

/-- A bank that is fitted takes its readback, here T1, and owes a home. -/
theorem test_load_bank :
    shows (exec (.loadBank (req [3, 1, 1, 8, 50, 20, 0, 0, 0, 0, 0, 0, 0, 0, 0])) { node with lines := node.lines.set 3 ⟨2, 0, 0⟩ })
      (fun t => decide ((t.bank 3).position = some (.thr 0)) && (t.bank 3).homeOwed && decide (answerOf 15 t = [0, 2, 1, 1])) =
      true := by decide +kernel

theorem test_read_bank :
    shows (exec (.readBank (req [2])) rig) (fun t => decide (answerOf 1 t =
      [0x00, 20, 1, 1, 8, 50, 20, 0, 0, 0, 0, 0, 0, 0, 0, 0, 0xFF, 0, 0, 0, 0, 0])) = true := by decide +kernel

theorem test_load_route :
    shows (exec (.loadRoute (req [127, 1, 3, 5, 0, 0x43, 9, 1, 1, 8])) rig) (fun t => decide (t.route 127 =
      { defined := true, station := .either, port := 5, plane := .a, endpoint := .fixture 3, legs := [⟨1, 7⟩]
        extraSettle := 9 }) && decide (answerOf 10 t = [0, 0])) = true := by decide +kernel

theorem test_read_route :
    shows (exec (.readRoute (req [1])) rig) (fun t => decide (answerOf 1 t =
      [0x00, 13, 1, 1, 3, 8, 0, 63, 200, 2, 0, 2, 1, 8, 0])) = true := by decide +kernel

theorem test_load_steps :
    shows (exec (.loadSteps (req [1, 0xFF, 1, 3, 0x81, 0x20, 0, 9])) node) (fun t => decide (t.step 511 =
      { kind := .apply 9, routeA := .route 3, routeB := .clear, cond := .always, mark := true, hold := false }) &&
      decide (answerOf 8 t = [0x00, 0])) = true := by decide +kernel

/-- OPEN_PATH reserves bank 0 and queues the MAKE, which waits for a window. -/
theorem test_open_path :
    shows (exec (.openPath (req [0])) rig) (fun t => decide ((t.bank 0).holder = some 0) &&
      decide ((t.path 0).state = .forming) && decide (t.queue.length = 1) && decide (answerOf 1 t = [0x01, 2, 0, 0])) =
      true := by decide +kernel

theorem test_open_path_unclaimed :
    shows (exec (.openPath { req [0] with station := 2 }) rig) (fun t => decide (answerOf 1 t = [0x13, 1, 0]) &&
      decide (t.queue = [])) = true := by decide +kernel

theorem test_close_path :
    shows (exec (.closePath (req [15])) (held .live)) (fun t => decide ((t.path 15).state = .closing) &&
      decide (t.queue.length = 1) && decide (answerOf 1 t = [0x01, 2, 15, 0])) = true := by decide +kernel

theorem test_swap_path :
    shows (exec (.swapPath (req [15, 1])) (held .live)) (fun t => decide ((t.path 15).state = .closing) &&
      decide ((t.path 0).state = .forming) && decide ((t.bank 0).holder = some 0) &&
      decide (answerOf 2 t = [0x01, 3, 15, 0, 0])) = true := by decide +kernel

theorem test_cancel_change :
    shows (exec (.cancelChange (req [15])) forming) (fun t => decide (t.path 15 = PathRecord.free) && decide (t.queue = []) &&
      decide (answerOf 1 t = [0x00, 1, 0])) = true := by decide +kernel

/-- An open window lets the waiting MAKE start its leg: T1 of bank 0, for its operate time of 5 ms. -/
theorem test_window_open_starts_leg :
    shows (exec (.windowOpen ⟨0, 0, 0⟩ 9 1 1000) forming) (fun t => decide ((t.driver .a).phase = .driving) &&
      decide ((t.driver .a).left = 500) && decide ((t.driver .a).leg = some ⟨0, .thr 0, .entry⟩) &&
      decide (t.trackers.a.tag = some 9)) = true := by decide +kernel

/-- A budget of 699 ticks is too short for 7 ms: the leg is held, waiting for NO_FIT. -/
theorem test_window_open_no_fit :
    shows (exec (.windowOpen ⟨0, 0, 0⟩ 9 1 699) forming) (fun t => decide ((t.driver .a).phase = .idle) &&
      decide ((t.driver .a).waiting = some .noFit)) = true := by decide +kernel

theorem test_window_shut :
    shows (exec (.windowShut ⟨0, 0, 0⟩ 9) (node.setTracker .b ⟨true, some 9, 4095, false, false⟩)) (fun t =>
      decide (t.trackers.b = Tracker.shut)) = true := by decide +kernel

/-- SEQ_RUN on the reset step dwells one frame; the next CADENCE frame ends it. -/
theorem test_seq_run :
    shows (exec (.seqRun (req [])) node) (fun t => decide ((t.run .s1).state = .dwelling) && decide ((t.run .s1).dwell = 1) &&
      decide (answerOf 0 t = [0x00, 3, 2, 0, 0])) = true := by decide +kernel

theorem test_cadence :
    shows (exec (.cadence ⟨⟨3, 0, 0⟩, 7, 0x0F, 0, 0⟩) node) (fun t => decide (t.ring.lastCadence = some 7) &&
      decide (t.ring.gates = 15) && decide ((t.ring.forward.map (List.take 11)) = [[0x14, 0, 0, 7, 0, 7, 0x0F, 0, 2, 0, 0]])) = true := by decide +kernel

theorem test_claim :
    shows (exec (.claim { req [1, 0, 0x80, 8] with station := 2 }) rig) (fun t => decide (t.claimOf (.bank 0) = some .s1) &&
      decide (t.claimOf (.bank 23) = some .s2) && decide (t.claimOf (.fixture 3) = some .s2) &&
      decide (answerOf 4 t = [0x00, 4, 0, 0, 0x80, 8])) = true := by decide +kernel

theorem test_release_keeps_used :
    shows (exec (.release (req [3, 0, 0, 0])) (held .live)) (fun t => decide (t.claimOf (.bank 0) = some .s1) &&
      decide (t.claimOf (.bank 1) = none) && decide (answerOf 4 t = [0x00, 8, 1, 0, 0, 0, 5, 0, 0, 1])) = true := by
  decide +kernel

theorem test_clear_events :
    shows (exec (.clearEvents (req [0x10, 0, 0])) { node.raise .ringError with ring := { node.ring with badFrames := 9 } })
      (fun t => decide (t.events.flags = 0) && decide (t.ring.badFrames = 0)) = true := by decide +kernel

theorem test_safe_enter :
    shows (exec (.safeEnter (anon [])) node) (fun t => decide (t.safe.state = .grace) && t.chamber.mute1 && t.chamber.mute2 &&
      t.chamber.alert && decide (t.safe.grace = some 1000) && decide (answerOf 0 t = [0x00, 2, 1, 8])) = true := by
  decide +kernel

theorem test_safe_exit :
    shows (exec (.safeExit (anon [])) (node.setSafe { SafeController.reset with state := .safe, causes := 8 })) (fun t =>
      decide (t.safe.state = .normal) && decide (t.safe.causes = 0)) = true := by decide +kernel

theorem test_forget : shows (exec (.forget (anon [])) node) (fun t => decide (t.ring.address = none)) = true := by
  decide +kernel

theorem test_enumerate :
    shows (exec (.enumerate ⟨0, 0, 0⟩ 15 0) State.reset) (fun t => decide (t.ring.address = some 15) &&
      decide ((t.ring.forward.map (List.drop 4)).map (List.take 2) = [[16, 0]])) = true := by decide +kernel

theorem test_unknown_code :
    shows (exec (.eUnknown 0x64 (req [])) node) (fun t => decide (answerOf 0 t = [0x17, 0])) = true := by decide +kernel

theorem test_address_clash :
    shows (exec (.addressClash 0x01 { req [] with status := 0 }) node) (fun t => t.flagSet .addressClash) = true := by
  decide +kernel

theorem test_bad_frame :
    shows (exec (.badFrame [0x10, 0, 0, 0, 0, 0]) node) (fun t => decide (t.ring.badFrames = 1) && t.flagSet .ringError) =
      true := by decide +kernel

/-- A leg is driven, settles, and its readback of T1 makes the path go through its extra settle time. -/
theorem test_leg_readback :
    shows (exec (.legReadback .a)
        { (forming.setDriver .a { Driver.reset with phase := .settling, leg := some ⟨0, .thr 0, .entry⟩ }).setQueue
            [{ making with active := true }] with
          lines := rig.lines.set 0 ⟨2, 0, 300⟩ })
      (fun t => decide ((t.bank 0).position = some (.thr 0)) && decide ((t.bank 0).lifeCount = 1) &&
        decide ((t.path 15).state = .settling) && decide ((t.path 15).settleTimer = some 2000) && decide (t.queue = [])) =
      true := by decide +kernel

theorem test_settle_timer_end :
    shows (exec (.pathSettleTimerEnd 15) ((held .settling).setPath 15 { pathOn .settling 0 with settleTimer := some 3 }))
      (fun t => decide ((t.path 15).state = .live) && t.flagSet .pathLive) = true := by decide +kernel

theorem test_grace_end_safe :
    shows (exec .graceEnd (node.setSafe { SafeController.reset with state := .grace, causes := 8, grace := some 0 }))
      (fun t => decide (t.safe.state = .safe)) = true := by decide +kernel

theorem test_visit_end_coil_open :
    shows (exec .visitEnd (rig.setSup { rig.sup with cycle := .visiting, visit := some ⟨⟨199, 0, some .term⟩, 4⟩ }))
      (fun t => decide (t.counter 0 .coil = 1) && decide (t.counter 0 .drift = 0) && decide (t.sup.position = 1)) = true := by
  decide +kernel

theorem test_unseat :
    shows (exec (.seatDebouncedChange 0)
        (((rig.setBank 1 { bankOn .a with holder := some 15 }).setPath 15 (pathOn .live 2)).setSeat 0 ⟨false, true, some 0⟩))
      (fun t => decide ((t.path 15).state = .closing) && decide ((t.path 15).failure = some .fixtureLost) &&
        decide (t.queue.map Entry.origin = [.part]) && t.flagSet .fixture) = true := by decide +kernel

theorem test_hardware_reset_end_door_open :
    shows (exec .hardwareResetEnd { node with inReset := true, chamber := { node.chamber with door := ⟨false, true, none⟩ } })
      (fun t => decide (t.safe.state = .grace) && decide (t.safe.causes = 2) && t.chamber.mute1) = true := by decide +kernel


/-! ## The hypotheses of the statements are met

One theorem for each statement of Certificates/Slice0/Obligations.lean that has hypotheses, clause by clause. -/

/-- A state in the safe state given. -/
def inSafe (x : SafeState) (s : State) : State := s.setSafe { SafeController.reset with state := x, causes := 8 }

/-- A bank 0 leg of plane A in the phase given. -/
def legOn (ph : DriverPhase) (src : LegSource) (s : State) : State :=
  s.setDriver .a { Driver.reset with phase := ph, leg := some ⟨0, .thr 0, src⟩ }

theorem witness_EmptyQueueLetsTimePass :
    (node.pending = [] ∧ node.inReset = false ∧ dueEvents node = []) ∧
    ((node.setTracker .a ⟨true, some 1, 1, false, true⟩).pending = [] ∧
      (node.setTracker .a ⟨true, some 1, 1, false, true⟩).inReset = false ∧
      dueEvents (node.setTracker .a ⟨true, some 1, 1, false, true⟩) ≠ []) ∧
    ({ node with inReset := true }.pending = [] ∧ { node with inReset := true }.inReset = true) := by decide +kernel

theorem witness_CommandsKeepQueueAndPins : ∃ t, exec .forwardFrameSent node = .next t := ⟨_, rfl⟩

theorem witness_OutputsInvariant :
    OutputsHold node ∧ OutputsHold (inSafe .grace { node with chamber := { node.chamber with mute1 := true, mute2 := true, alert := true } }) := by
  unfold OutputsHold
  decide +kernel

theorem witness_RingRecordInvariant :
    RingRecordHolds node ∧
      RingRecordHolds { node with ring := { node.ring with address := some 15, badFrames := 255, forward := [[], [], [], []] } } := by
  unfold RingRecordHolds
  decide +kernel

theorem witness_RingRecordInvariant_windows :
    ∀ t ∈ [(⟨false, none, 0, false, false⟩ : Tracker), ⟨true, some 0, 1, false, false⟩, ⟨true, some 0xFF, 4095, false, false⟩,
        ⟨true, some 9, 1, false, true⟩, ⟨true, none, 0, true, false⟩],
      WindowRecordsHold (node.setTracker .a t) ∧ WindowRecordsHold (node.setTracker .b t) := by
  unfold WindowRecordsHold TrackerHolds
  decide +kernel

theorem witness_CursorInRegionInvariant : CursorsHold node := by
  have r : InRegion SeqSettings.reset 0 := by unfold InRegion; decide
  have c : SettingsAdmitted SeqSettings.reset :=
    ⟨r, fun n h => (nomatch (show (none : Option StepId) = some n from h)), r,
      fun a b h => (nomatch (show (none : Option (StepId × StepId)) = some (a, b) from h))⟩
  have h : CursorHolds ⟨SeqSettings.reset, SeqRun.reset⟩ := ⟨c, fun h => absurd rfl h⟩
  exact ⟨h, h⟩

theorem witness_RequestBytesRoundTrip :
    (req []).wellFormed = true ∧
      { req (List.replicate 56 9) with resp := List.replicate 56 9 }.wellFormed = true := by decide +kernel

theorem witness_IdentSettingsEventsAnswer :
    (ForThisNode (req []) node ∧ (req []).params = []) ∧ (ForThisNode (req [0]) node ∧ (req [0]).params ≠ []) := by
  unfold ForThisNode Ready
  decide +kernel

/-- The lowest and the highest settings of R163. -/
def lowSettings : Settings := ⟨0, 1, 0, 0, 0, 0, 0, 0, 0, 0, 0, 0⟩
def highSettings : Settings := ⟨255, 255, 127, 7, 31, 1023, 1023, 1023, 1023, 63, 63, 0x3FFFFF⟩

theorem witness_SetSettingsWrites :
    (∀ x ∈ [lowSettings, highSettings], ForThisNode (req (settingsBytes x)) node ∧ SettingsInRange x) ∧
    ∀ n ∈ [17, 19], ForThisNode (req (List.replicate n 1)) node ∧ (req (List.replicate n 1)).params.length ≠ 18 := by
  unfold ForThisNode Ready SettingsInRange
  decide +kernel

/-- The settings of reset with a mute grace of 0, with an attention mask of 23 bits, and with a coil min above the max. -/
def badSettings : List (List Byte × Nat) :=
  [([5, 0, 20, 2, 0, 0, 64, 0, 128, 0, 200, 3, 32, 0x3F, 0, 0x3F, 0xFF, 0xFF], 2),
   ([5, 10, 20, 2, 0, 0, 64, 0, 128, 0, 200, 3, 32, 0x3F, 0, 0x40, 0, 0], 12)]
def crossedSettings : List Byte := [5, 10, 20, 2, 0, 0, 64, 0, 128, 3, 33, 3, 32, 0x3F, 0, 0x3F, 0xFF, 0xFF]

theorem witness_SetSettingsWrites_bad :
    (∀ x ∈ badSettings, ForThisNode (req x.1) node ∧ x.1.length = 18 ∧ SettingsFieldBad x.1 x.2 ∧
      ∀ m, m < x.2 → ¬ SettingsFieldBad x.1 m) ∧
    ForThisNode (req crossedSettings) node ∧ crossedSettings.length = 18 ∧
    val2 crossedSettings 11 < val2 crossedSettings 9 := by
  unfold ForThisNode Ready SettingsFieldBad
  decide +kernel

/-- A bad field has a place below 13, so the places can be gone through. -/
theorem witness_SetSettingsWrites_crossed (n : Nat) : ¬ SettingsFieldBad crossedSettings n := by
  have h : ∀ m < 13, ¬ SettingsFieldBad crossedSettings m := by
    unfold SettingsFieldBad
    decide +kernel
  intro hn
  refine h n ?_ hn
  unfold SettingsFieldBad at hn
  omega

theorem witness_SettingsRetimeVisits :
    (∀ x ∈ [lowSettings, highSettings], ForThisNode (req (settingsBytes x)) rig ∧ SettingsInRange x) ∧
    (lowSettings.interval = 0 ∧ highSettings.interval ≠ 0) ∧
    (rig.setSup { rig.sup with cycle := .stopped }).sup.cycle = .stopped ∧
    (let s := rig.setSup { rig.sup with elapsed := 12700 }
     s.sup.cycle = .waiting ∧ s.sup.running = true ∧ highSettings.interval * 100 ≤ s.sup.elapsed) ∧
    ((rig.bank 0).fitted = true ∧ rig.inFlight 0 = false ∧ ∀ y, y < 0 → (rig.bank y).fitted = false ∨ rig.inFlight y = true) ∧
    (∀ b, (node.bank b).fitted = false ∨ node.inFlight b = true) ∧
    (node.sup.cycle ≠ .visiting ∧ (node.setSup { node.sup with cycle := .visiting }).sup.cycle = .visiting) ∧
    (let s := node.setSup { node.sup with elapsed := 12699 }
     s.sup.cycle = .waiting ∧ s.sup.elapsed < highSettings.interval * 100) := by
  unfold ForThisNode Ready SettingsInRange
  decide +kernel

theorem witness_ClearEventsClears :
    (ForThisNode (req (bytes3 0x3FFFFF)) node ∧ (req (bytes3 0x3FFFFF)).params = bytes3 (0x3FFFFF#22).toNat) ∧
    (ForThisNode (req [0, 0]) node ∧ (req [0, 0]).params.length ≠ 3) ∧
    (ForThisNode (req [0x40, 0, 0]) node ∧ 4194303 < val3 (req [0x40, 0, 0]).params 0) := by
  unfold ForThisNode Ready
  decide +kernel

/-- The lowest and the highest parameters of LOAD_BANK. -/
def lowBank : BankParams := ⟨0, true, .a, 1, 1, 0, 0, false, 0⟩
def highBank : BankParams := ⟨23, true, .b, 8, 200, 200, 4294967295, true, 4294967295⟩

theorem witness_LoadBankWrites :
    (∀ q ∈ [lowBank, highBank], ForThisNode (req (bankLoadBytes q)) (inSafe .safe node) ∧ BankParamsInRange q ∧
      ((inSafe .safe node).bank q.bank).holder = none ∧ (inSafe .safe node).inFlight q.bank = false ∧
      ((inSafe .safe node).bank q.bank).fitted = false ∧ q.fitted = true ∧
      (inSafe .safe node).readback q.bank ≠ some .term) ∧
    (∀ x ∈ [true, false], ForThisNode (req (bankLoadBytes { lowBank with fitted := x })) rig ∧
      BankParamsInRange { lowBank with fitted := x } ∧ (rig.bank 0).holder = none ∧ rig.inFlight 0 = false ∧
      (rig.bank 0).fitted = true) ∧
    (ForThisNode (req (bankLoadBytes highBank)) rig ∧ (rig.bank 23).fitted = false ∧
      rig.readback 23 = some .term) := by
  unfold ForThisNode Ready BankParamsInRange
  decide +kernel

theorem witness_LoadBankRefused :
    (ForThisNode (req (bankLoadBytes lowBank)) (held .live) ∧ BankParamsInRange lowBank ∧
      ((held .live).bank lowBank.bank).holder ≠ none) ∧
    (ForThisNode (req (bankLoadBytes lowBank)) (legOn .driving .home rig) ∧
      (legOn .driving .home rig).inFlight lowBank.bank = true ∧
      ((legOn .driving .home rig).bank lowBank.bank).holder = none) ∧
    ∀ n ∈ [14, 16], ForThisNode (req (List.replicate n 1)) node ∧ (req (List.replicate n 1)).params.length ≠ 15 := by
  unfold ForThisNode Ready BankParamsInRange
  decide +kernel

/-- Parameters of LOAD_BANK whose first field outside its values is the one given. -/
def badBanks : List (List Byte × Nat) :=
  [([24, 2, 0, 8, 50, 20, 0, 0, 0, 0, 0, 0, 0, 0, 0], 1), ([0, 1, 0, 9, 0, 20, 0, 0, 0, 0, 0, 0, 0, 0, 0], 4),
   ([0, 1, 0, 8, 200, 200, 0, 0, 0, 0, 2, 0, 0, 0, 0], 8)]

theorem witness_LoadBankRefused_bad :
    ∀ x ∈ badBanks, ForThisNode (req x.1) node ∧ x.1.length = 15 ∧ BankFieldBad x.1 x.2 ∧
      ∀ m, m < x.2 → ¬ BankFieldBad x.1 m := by
  unfold ForThisNode Ready BankFieldBad
  decide +kernel

theorem witness_ReadTablesAnswer :
    (∀ b ∈ [(0 : BankId), 23], ForThisNode (req [byteOf b.1]) rig) ∧
    (∀ n ∈ [(0 : RouteId), 127], ForThisNode (req [byteOf n.1]) rig) ∧
    (ForThisNode (req []) rig ∧ (req []).params.length ≠ 1 ∧ (req []).params.length ≠ 3) ∧
    (ForThisNode (req [24]) rig ∧ 23 < val1 (req [24]).params 0) ∧
    (ForThisNode (req [128]) rig ∧ 127 < val1 (req [128]).params 0) ∧
    (∀ x ∈ [((0 : Nat), (1 : Nat)), (511, 8)], ForThisNode (req (bytes2 x.1 ++ [byteOf x.2])) rig ∧ x.1 ≤ 511 ∧ 1 ≤ x.2 ∧ x.2 ≤ 8) ∧
    (ForThisNode (req [2, 0, 1]) rig ∧ 511 < val2 (req [2, 0, 1]).params 0) ∧
    (ForThisNode (req [0, 0, 0]) rig ∧ val1 (req [0, 0, 0]).params 2 < 1) ∧
    (ForThisNode (req [0, 0, 9]) rig ∧ 8 < val1 (req [0, 0, 9]).params 2) := by
  unfold ForThisNode Ready
  decide +kernel

/-- A route of six legs would need six banks; two legs and one are the ones here. -/
def longRoute : RouteRecord := routeA 8 (.fixture 3) [⟨0, 7⟩, ⟨1, 0⟩]

theorem witness_LoadRouteWrites :
    (ForThisNode (req (routeBytes 127 longRoute)) rig ∧ RouteLoadable rig longRoute ∧
      ∀ p, (rig.path p).state ≠ .free → (rig.path p).route ≠ some 127) ∧
    (ForThisNode (req [byteOf 0, 0]) rig ∧ ∀ p, (rig.path p).state ≠ .free → (rig.path p).route ≠ some 0) ∧
    (ForThisNode (req [byteOf 0, 0]) (held .failed) ∧ ForThisNode (req (routeBytes 0 longRoute)) (held .failed) ∧
      RouteLoadable (held .failed) longRoute ∧ ((held .failed).path 15).state ≠ .free ∧
      ((held .failed).path 15).route = some 0 ∧
      ∀ q, q < 15 → ((held .failed).path q).state = .free ∨ ((held .failed).path q).route ≠ some 0) := by
  unfold ForThisNode Ready RouteLoadable
  decide +kernel

/-- LOAD_ROUTE with legs of banks 0 and 1: the first leg's throw is 0; the second repeats bank 0. -/
def badFirstLeg : List Byte := [3, 1, 3, 5, 0, 0x43, 9, 2, 0, 0, 1, 8]
def badSecondLeg : List Byte := [3, 1, 3, 5, 0, 0x43, 9, 2, 0, 1, 0, 2]

theorem witness_LoadRouteWrites_bad :
    (∀ ps ∈ [[], [128, 0], [0, 2], [0, 1, 3, 5, 0, 0x43, 9, 0], [0, 1, 3, 5, 0, 0x44, 9, 1, 0, 1], [0, 1, 3, 5, 0, 0x43, 9, 1, 0]],
      ForThisNode (req ps) rig ∧ RouteFieldsBad ps) ∧
    (ForThisNode (req badFirstLeg) rig ∧ ¬ RouteFieldsBad badFirstLeg ∧
      badFirstLeg = [3, 1] ++ (badFirstLeg.drop 2).take 6 ++ (([] : List (Byte × Byte)) ++ (0, 0) :: [(1, 8)]).flatMap (fun l : Byte × Byte => [l.1, l.2]) ∧
      LegBytesBad rig (planeOfVal (val1 badFirstLeg 4)) [] 0 0) ∧
    (ForThisNode (req badSecondLeg) rig ∧ ¬ RouteFieldsBad badSecondLeg ∧
      badSecondLeg = [3, 1] ++ (badSecondLeg.drop 2).take 6 ++ (([(0, 1)] : List (Byte × Byte)) ++ (0, 2) :: []).flatMap (fun l : Byte × Byte => [l.1, l.2]) ∧
      ¬ LegBytesBad rig (planeOfVal (val1 badSecondLeg 4)) [] 0 1 ∧
      LegBytesBad rig (planeOfVal (val1 badSecondLeg 4)) [0] 0 2) := by
  unfold ForThisNode Ready RouteFieldsBad LegBytesBad
  decide +kernel

/-- Step records of the greatest dwell. -/
def longSteps : List StepRecord := List.replicate 8 { StepRecord.reset with kind := .apply 4096 }

theorem witness_LoadStepsWrites :
    (ForThisNode (req (bytes2 504 ++ [byteOf 8] ++ longSteps.flatMap stepBytes)) node ∧ 1 ≤ longSteps.length ∧
      longSteps.length ≤ 8 ∧ 504 + longSteps.length ≤ 512 ∧
      ∀ r ∈ longSteps, ∀ d, r.kind = .apply d → 1 ≤ d ∧ d ≤ 4096) ∧
    (ForThisNode (req (bytes2 0 ++ [byteOf 1] ++ stepBytes StepRecord.reset)) node ∧
      ∀ d, StepRecord.reset.kind = .apply d → 1 ≤ d ∧ d ≤ 4096) := by
  refine ⟨⟨by unfold ForThisNode Ready; decide +kernel, by decide, by decide, by decide, fun r hr d hd => ?_⟩,
    by unfold ForThisNode Ready; decide +kernel, fun d hd => ?_⟩
  · rw [List.eq_of_mem_replicate hr] at hd
    cases hd
    decide
  · cases hd
    decide

/-- LOAD_STEPS of two records: the first has a dwell of 0; the second jumps to 512. -/
def badStep0 : List Byte := [1, 0xFE, 2, 0, 0, 0, 0, 0, 0, 0, 0, 0, 1]
def badStep1 : List Byte := [1, 0xFE, 2, 0, 0, 0, 0, 1, 0, 0, 0x10, 2, 0]

theorem witness_LoadStepsWrites_bad :
    (∀ ps ∈ [[0, 0, 1], [0, 0, 0], [0, 0, 9] ++ List.replicate 45 0, [2, 0, 1, 0, 0, 0, 0, 1],
        [1, 0xFF, 2, 0, 0, 0, 0, 1, 0, 0, 0, 0, 1]],
      ForThisNode (req ps) node ∧
        (ps.length ≠ 3 + 5 * val1 ps 2 ∨ val1 ps 2 < 1 ∨ 8 < val1 ps 2 ∨ 511 < val2 ps 0 ∨ 512 < val2 ps 0 + val1 ps 2)) ∧
    ∀ x ∈ [(badStep0, 0), (badStep1, 1)],
      ForThisNode (req x.1) node ∧ x.1.length = 3 + 5 * val1 x.1 2 ∧ val1 x.1 2 ≤ 8 ∧ 512 ≥ val2 x.1 0 + val1 x.1 2 ∧
        val2 x.1 0 ≤ 511 ∧ x.2 < val1 x.1 2 ∧ StepRecordBad x.1 (3 + 5 * x.2) ∧
        ∀ j, j < x.2 → ¬ StepRecordBad x.1 (3 + 5 * j) := by
  unfold ForThisNode Ready StepRecordBad
  decide +kernel

theorem free_rig (p : Slot) : (rig.path p).state = .free := by
  revert p
  decide +kernel

theorem free_held (x : PathState) (p : Slot) (h : p ≠ 15) : ((held x).path p).state = .free := by
  revert p
  cases x <;> decide +kernel

/-- Route 0 is acceptable to S1 in the small state. -/
theorem acceptable_rig : Acceptable rig .s1 (rig.route 0) none [] := by
  refine ⟨by decide +kernel, by decide +kernel, by unfold RouteFor; decide +kernel, by decide +kernel, by decide +kernel,
    by decide +kernel, by decide +kernel, fun q y _ h => absurd (free_rig q) h⟩

/-- Route 1 is acceptable to S1 as what P15 is swapped to. -/
theorem acceptable_held (x : PathState) (hx : x ≠ .free) :
    Acceptable (held x) .s1 ((held x).route 1) (some 15) ((held x).route 0).legs := by
  refine ⟨?_, ?_, ?_, ?_, ?_, ?_, ?_, fun q y hq h => absurd (free_held x q fun e => hq (by rw [e])) h⟩ <;>
    (try unfold RouteFor) <;> cases x <;> decide +kernel

/-- Every slot is taken by a path that ends nowhere near route 0. -/
def fullRig : State := { rig with paths := Vector.replicate 16 { pathOn .failed 0 with route := none } }

theorem acceptable_full : Acceptable fullRig .s1 (fullRig.route 0) none [] := by
  refine ⟨by decide +kernel, by decide +kernel, by unfold RouteFor; decide +kernel, by decide +kernel, by decide +kernel,
    by decide +kernel, by decide +kernel, fun q y _ _ hy => ?_⟩
  have h : ∀ q, fullRig.slotRoute q = none := by decide +kernel
  rw [h q] at hy
  cases hy

theorem witness_OpenPathAccepted :
    ForThisNode (req [byteOf 0]) rig ∧ NamesStation (req [byteOf 0]) .s1 ∧ rig.safe.state = .normal ∧
      Acceptable rig .s1 (rig.route 0) none [] ∧ LowestFree rig 0 := by
  refine ⟨by unfold ForThisNode Ready; decide +kernel, rfl, by decide +kernel, acceptable_rig, ?_⟩
  unfold LowestFree
  decide +kernel

theorem witness_OpenPathRefused :
    (ForThisNode (anon [0]) rig ∧ (anon [0]).station ≠ 1 ∧ (anon [0]).station ≠ 2) ∧
    (ForThisNode (req [0, 0]) rig ∧ (req [0, 0]).params.length ≠ 1) ∧
    (ForThisNode (req [128]) rig ∧ 127 < val1 (req [128]).params 0) ∧
    (ForThisNode (req [byteOf 0]) (inSafe .grace rig) ∧ NamesStation (req [byteOf 0]) .s1 ∧
      (inSafe .grace rig).safe.state ≠ .normal) ∧
    (ForThisNode (req [byteOf 127]) rig ∧ rig.safe.state = .normal ∧ (rig.route 127).defined = false) ∧
    (ForThisNode (req [byteOf 0]) fullRig ∧ fullRig.safe.state = .normal ∧
      Acceptable fullRig .s1 (fullRig.route 0) none [] ∧ ∀ q, (fullRig.path q).state ≠ .free) := by
  refine ⟨?_, ?_, ?_, ?_, ?_, ?_, by decide +kernel, acceptable_full, by decide +kernel⟩ <;>
    unfold ForThisNode Ready <;> (try unfold NamesStation) <;> decide +kernel

/-- One state for each check of R22 that route 2 (bank 1, to F1) fails for a station of the rig, with its answer. -/
def failing : List (State × Station × RouteId × Nat × Reply) :=
  [(rig, .s1, 127, 1, ⟨.eArg, [0xFE]⟩),
   (rig.setBank 1 BankRecord.reset, .s1, 1, 1, ⟨.eArg, [1]⟩),
   (rig.setRoute 2 { routeA 2 (.fixture 0) [⟨1, 0⟩] with station := .s2 }, .s1, 2, 2, ⟨.eClaim, [0xFF]⟩),
   (rig, .s2, 2, 3, ⟨.eClaim, [1]⟩),
   ({ rig with claims := { rig.claims with fixtures := ClaimTable.empty.fixtures } }, .s1, 2, 3, ⟨.eClaim, [0x40]⟩),
   (rig, .s1, 2, 4, ⟨.eState, [0x40]⟩),
   (rig.setFaults 1 32, .s1, 1, 5, ⟨.eFault, [1]⟩),
   (held .live, .s1, 0, 6, ⟨.eConflict, bytes2 0x8000⟩)]

theorem witness_OpenPathRefused_checks :
    ∀ x ∈ failing, ForThisNode (req [byteOf x.2.2.1.1]) x.1 ∧ x.1.safe.state = .normal ∧
      FirstFailure x.1 x.2.1 (x.1.route x.2.2.1) none none [] x.2.2.2.1 x.2.2.2.2 := by
  simp only [firstFailure_iff]
  unfold ForThisNode Ready
  decide +kernel

/-- P15's route is of plane B, so that a SWAP to route 1 is refused by check 1. -/
def otherPlane : State := (held .live).setRoute 0 { routeA 1 (.probe 0) [⟨2, 0⟩] with plane := .b }

theorem witness_OpenPathRefused_swap :
    (∀ f ∈ [anon [0, 0], req [0], req [16, 0], req [0, 128]], ForThisNode f rig ∧
      (f.station ≠ 1 ∧ f.station ≠ 2 ∨ f.params.length ≠ 2 ∨ 15 < val1 f.params 0 ∨ 127 < val1 f.params 1)) ∧
    (ForThisNode (req [byteOf 15, byteOf 1]) (inSafe .grace (held .live)) ∧
      (inSafe .grace (held .live)).safe.state ≠ .normal) ∧
    (ForThisNode (req [byteOf 0, byteOf 1]) rig ∧ (rig.path 0).state = .free) ∧
    (ForThisNode { req [byteOf 15, byteOf 1] with station := 2 } (held .live) ∧
      ((held .live).path 15).state ≠ .free ∧ ((held .live).path 15).station ≠ some .s2) ∧
    (∀ x ∈ [PathState.forming, .closing, .failed, .live, .settling],
      ForThisNode (req [byteOf 15, byteOf 1]) (held x) ∧ ((held x).path 15).station = some .s1 ∧
        ((held x).path 15).state = x ∧ ((held x).path 15).route = some 0) ∧
    FirstFailure otherPlane .s1 (otherPlane.route 1) (some 15) (some .b) (otherPlane.route 0).legs 1 ⟨.eArg, [0xFD]⟩ ∧
    FirstFailure ((held .live).setFaults 0 1) .s1 ((held .live).route 1) (some 15) (some .a) ((held .live).route 0).legs 5
      ⟨.eFault, [0]⟩ := by
  simp only [firstFailure_iff]
  unfold ForThisNode Ready
  decide +kernel

/-- P15 on route 0, all slots taken, and its SWAP to route 1 acceptable. -/
def fullHeld : State := { held .live with paths := (Vector.replicate 16 { pathOn .failed 0 with route := none }).set 15 (pathOn .live 0) }

theorem witness_OpenPathRefused_swapFull :
    ForThisNode (req [byteOf 15, byteOf 1]) fullHeld ∧ (fullHeld.path 15).state = .live ∧
      (fullHeld.path 15).route = some 0 ∧ (fullHeld.route 0).plane = (fullHeld.route 1).plane ∧
      Acceptable fullHeld .s1 (fullHeld.route 1) (some 15) (fullHeld.route 0).legs ∧
      ∀ q, (fullHeld.path q).state ≠ .free := by
  refine ⟨by unfold ForThisNode Ready; decide +kernel, by decide +kernel, by decide +kernel, by decide +kernel,
    ⟨by decide +kernel, by decide +kernel, by unfold RouteFor; decide +kernel, by decide +kernel, by decide +kernel,
      by decide +kernel, by decide +kernel, fun q y hq _ hy => ?_⟩, by decide +kernel⟩
  have h : ∀ q, q ≠ 15 → fullHeld.slotRoute q = none := by decide +kernel
  rw [h q fun e => hq (by rw [e])] at hy
  cases hy

theorem witness_SwapPathAccepted (x : PathState) (hx : x = .live ∨ x = .settling) :
    ForThisNode (req [byteOf 15, byteOf 1]) (held x) ∧ NamesStation (req [byteOf 15, byteOf 1]) .s1 ∧
      (held x).safe.state = .normal ∧ (((held x).path 15).state = .live ∨ ((held x).path 15).state = .settling) ∧
      ((held x).path 15).station = some .s1 ∧ ((held x).path 15).route = some 0 ∧
      ((held x).route 0).plane = ((held x).route 1).plane ∧
      Acceptable (held x) .s1 ((held x).route 1) (some 15) ((held x).route 0).legs ∧ LowestFree (held x) 0 := by
  refine ⟨?_, rfl, ?_, ?_, ?_, ?_, ?_, acceptable_held x (by rcases hx with rfl | rfl <;> decide), ?_⟩ <;>
    rcases hx with rfl | rfl <;> (try unfold ForThisNode Ready) <;> (try unfold LowestFree) <;> decide +kernel

theorem witness_ClosePathBreaks (x : PathState) (hx : x = .live ∨ x = .settling ∨ x = .failed) :
    ForThisNode (req [byteOf 15]) (held x) ∧ NamesStation (req [byteOf 15]) .s1 ∧ (held x).safe.state = .normal ∧
      (((held x).path 15).state = .live ∨ ((held x).path 15).state = .settling ∨ ((held x).path 15).state = .failed) ∧
      ((held x).path 15).station = some .s1 ∧ ((held x).path 15).route = some 0 ∧
      ((held x).path 15).closeOwed = false := by
  unfold ForThisNode Ready NamesStation
  rcases hx with rfl | rfl | rfl <;> decide +kernel

theorem witness_ClosePathOther :
    (ForThisNode (req [byteOf 15]) (inSafe .teardown rig) ∧ NamesStation (req [byteOf 15]) .s1 ∧
      (inSafe .teardown rig).safe.state ≠ .normal) ∧
    (ForThisNode (req [byteOf 0]) rig ∧ rig.safe.state = .normal ∧ (rig.path 0).state = .free) ∧
    (ForThisNode { req [byteOf 15] with station := 2 } (held .live) ∧
      NamesStation { req [byteOf 15] with station := 2 } .s2 ∧ ((held .live).path 15).state ≠ .free ∧
      ((held .live).path 15).station ≠ some .s2) ∧
    (ForThisNode (req [byteOf 15]) (closing .live) ∧ ((closing .live).path 15).state = .closing ∧
      ((closing .live).path 15).station = some .s1) ∧
    (let s := forming.setPath 15 { pathOn .forming 0 with closeOwed := true }
     ForThisNode (req [byteOf 15]) s ∧ (s.path 15).state ≠ .free ∧ (s.path 15).state ≠ .closing ∧
        (s.path 15).station = some .s1 ∧ (s.path 15).closeOwed = true) ∧
    (let s := forming.setQueue [{ making with active := true }]
     ForThisNode (req [byteOf 15]) s ∧ (s.path 15).state = .forming ∧ (s.path 15).station = some .s1 ∧
        (s.path 15).closeOwed = false ∧ s.entryNaming 15 = some { making with active := true } ∧
        s.safe.state = .normal) := by
  unfold ForThisNode Ready NamesStation
  decide +kernel

/-- P15 is being swapped to P0 on route 1: the SWAP waits in the queue. -/
def swapping : Entry :=
  { kind := .swapChange, old := some 15, new := some 0, plane := .a, origin := .request .s1, active := false
    plan := swapPlan [⟨0, 0⟩] [⟨0, 1⟩, ⟨1, 7⟩] }

def swapWaiting (x : PriorState) : State :=
  (((((closing x).setPath 0 { pathOn .forming 1 with legsDone := 0 }).setBank 0
    { bankOn .a with holder := some 0, position := some (.thr 0) }).setBank 1 { bankOn .a with holder := some 0 }).setQueue
    [swapping])

theorem witness_ClosePathOther_swap :
    (let s := swapWaiting .live
     ForThisNode (req [byteOf 0]) s ∧ (s.path 0).state = .forming ∧ (s.path 0).station = some .s1 ∧
        (s.path 0).closeOwed = false ∧ s.entryNaming 0 = some swapping ∧ s.headOf .a = some swapping) ∧
    swapping.active = false ∧ swapping.kind = .swapChange ∧ swapping.old = some 15 ∧ swapping.new = some 0 := by
  unfold ForThisNode Ready
  decide +kernel

theorem witness_CancelMake :
    ForThisNode (req [byteOf 15]) forming ∧ NamesStation (req [byteOf 15]) .s1 ∧ (forming.path 15).state = .forming ∧
      (forming.path 15).station = some .s1 ∧ forming.entryNaming 15 = some making ∧ making.kind = .makeChange ∧
      making.new = some 15 ∧ making.old = none ∧ making.active = false ∧ forming.safe.state = .normal ∧
      (forming.path 15).closeOwed = false := by
  unfold ForThisNode Ready NamesStation
  decide +kernel

/-- List Sequencer 1 has made the change of the record given, and another where there is one. -/
def pendingIn (x : SeqState) (cs : List PendingChange) (s : State) : State :=
  s.setRun .s1 { SeqRun.reset with state := x, changes := cs, current := ⟨some 15, none⟩ }

/-- An entry of each kind: its record is matched, and its end empties the pending list, leaves another record, or comes to
a sequencer that is not WAITING. -/
theorem witness_Notice :
    ∀ x ∈ [(making, (⟨.a, none, some 15⟩ : PendingChange)), (breaking, ⟨.a, some 15, none⟩),
        ({ making with kind := .swapChange, old := some 3 }, ⟨.a, some 3, some 15⟩)],
      have e := { x.1 with origin := .sequencer .s1 }
      RecordOf e x.2 ∧ ¬ RecordOf e ⟨.b, none, some 9⟩ ∧ EndsWaiting e .s1 (pendingIn .waiting [x.2] rig) ∧
        ¬ EndsWaiting e .s1 (pendingIn .waiting [x.2, ⟨.b, none, some 9⟩] rig) ∧ ¬ EndsWaiting e .s1 (pendingIn .waiting [] rig) ∧
        ¬ EndsWaiting e .s1 (pendingIn .held [x.2] rig) ∧ ¬ EndsWaiting x.1 .s1 (pendingIn .waiting [x.2] rig) := by
  decide +kernel

/-- CANCEL_CHANGE of a sequencer's MAKE: it dwells, and has no current path. -/
theorem test_cancel_notice :
    shows (exec (.cancelChange (req [15]))
        (pendingIn .waiting [⟨.a, none, some 15⟩] (forming.setQueue [{ making with origin := .sequencer .s1 }])))
      (fun t => decide ((t.run .s1).state = .dwelling ∧ (t.run .s1).dwell = 1 ∧ (t.run .s1).changes = [] ∧
        (t.run .s1).current.a = none)) = true := by decide +kernel

/-- A SWAP that fails in its make part, its old slot still there, frees the current path; in its break part it does not. -/
theorem witness_ReadbackDiffers_currents :
    (let e := { swapping with plan := swapPlan [] [⟨0, 1⟩] }
     e.kind = .swapChange ∧ e.plan.map PlanLeg.part = [.makePart] ∧ e.old = some 15 ∧ e.new ≠ none) ∧
    ((swapping.plan.map PlanLeg.part).head? = some .breakPart ∧ making.kind ≠ .swapChange) := by decide +kernel

theorem witness_CancelBreak :
    (∀ x ∈ [PriorState.settling, .live, .failed],
      ForThisNode (req [byteOf 15]) (closing x) ∧ NamesStation (req [byteOf 15]) .s1 ∧
        (closing x).entryNaming 15 = some breaking ∧ breaking.kind = .breakChange ∧ breaking.old = some 15 ∧
        breaking.new = none ∧ breaking.active = false ∧ ((closing x).path 15).station = some .s1 ∧
        ((closing x).path 15).route = some 0 ∧ ((closing x).path 15).prior = some x) ∧
    (ForThisNode (req [byteOf 0]) rig ∧ rig.entryNaming 0 = none) ∧
    (ForThisNode { req [byteOf 15] with station := 2 } (closing .live) ∧
      NamesStation { req [byteOf 15] with station := 2 } .s2 ∧ (closing .live).entryNaming 15 = some breaking ∧
      ((closing .live).path 15).station ≠ some .s2) ∧
    (let s := forming.setQueue [{ making with active := true }]
     ForThisNode (req [byteOf 15]) s ∧ s.entryNaming 15 = some { making with active := true } ∧
        (s.path 15).station = some .s1) := by
  unfold ForThisNode Ready NamesStation
  decide +kernel

theorem witness_CancelBreak_swap :
    ∀ x ∈ [PriorState.live, .settling], ∀ p ∈ [(0 : Slot), 15],
      have s := swapWaiting x
      ForThisNode (req [byteOf p.1]) s ∧ s.entryNaming p = some swapping ∧ (s.path p).station = some .s1 ∧
        (s.path 15).route = some 0 ∧ (s.path 15).prior = some x ∧ x ≠ .failed := by
  unfold ForThisNode Ready
  decide +kernel

/-- CLOSE_PATH and CANCEL_CHANGE with a bad field. -/
theorem witness_ClosePathOther_CancelBreak_bad :
    ∀ f ∈ [anon [0], { req [0] with station := 3 }, req [], req [0, 0], req [16]], ForThisNode f rig ∧
      (f.station ≠ 1 ∧ f.station ≠ 2 ∨ f.params.length ≠ 1 ∨ 15 < val1 f.params 0) := by
  unfold ForThisNode Ready
  decide +kernel

theorem witness_ReadPathsAndQueueAnswer :
    (∀ x ∈ [((0 : Nat), (1 : Nat)), (15, 7)], ForThisNode (req [byteOf x.1, byteOf x.2]) rig ∧ x.1 ≤ 15 ∧ 1 ≤ x.2 ∧ x.2 ≤ 7) ∧
    (∀ x ∈ [((0 : Nat), (0 : Nat)), (15, 6)], ForThisNode (req [byteOf x.1, byteOf x.2]) rig ∧ x.1 ≤ 15 ∧ x.2 ≤ 6) ∧
    (ForThisNode (req [0]) rig ∧ (req [0]).params.length ≠ 2) ∧
    (ForThisNode (req [16, 1]) rig ∧ 15 < val1 (req [16, 1]).params 0) ∧
    (ForThisNode (req [0, 0]) rig ∧ val1 (req [0, 0]).params 1 < 1) ∧
    (ForThisNode (req [0, 8]) rig ∧ 7 < val1 (req [0, 8]).params 1) ∧
    (ForThisNode (req [0, 7]) rig ∧ 6 < val1 (req [0, 7]).params 1) := by
  unfold ForThisNode Ready
  decide +kernel

theorem witness_SettleTimerEndGoesLive :
    let s := (held .settling).setPath 15 { pathOn .settling 0 with settleTimer := some 0 }
    s.inReset = false ∧ (s.path 15).state = .settling ∧ (s.path 15).settleTimer = some 0 := by decide +kernel

/-- A driver of plane A with the entry at its head and the budget given; bank 0 is at T1. -/
def choosing (budget : Nat) (e : Entry) : State :=
  (((rig.setBank 0 { bankOn .a with position := some (.thr 0) }).setTracker .a ⟨true, some 1, budget, false, false⟩).setQueue [e])

/-- The same with a hot detector at bank 0. -/
def hotChoosing (e : Entry) : State := { choosing 700 e with lines := rig.lines.set 0 ⟨1, 64, 300⟩ }

theorem witness_LegFitRule :
    (∀ s ∈ [rig, inSafe .grace (choosing 700 making), (choosing 700 making).setTracker .a ⟨true, none, 0, true, false⟩,
        (choosing 700 making).setDriver .a { Driver.reset with waiting := some .hot }], ¬ MayChoose s .a) ∧
    (let s := (choosing 700 making).setQueue []
     s.headOf .a = none ∧ ∀ b, ¬ HomeDue s .a b) ∧
    (∀ e ∈ [{ making with plan := [] }, making, breaking, { swapping with plan := swapping.plan.drop 1 }],
      TakesHead (choosing 700 e) .a e) ∧
    (let s := (choosing 700 breaking).setBank 0 (bankOn .a)
     TakesHead s .a breaking ∧ (s.bank 0).position = some .term) ∧
    (let s := (choosing 700 breaking).setFaults 0 1
     TakesHead s .a breaking ∧ (s.bank 0).position ≠ some .term ∧ s.faultValid 0 .coil = true) ∧
    (TakesHead (choosing 699 making) .a making ∧ legFits (choosing 699 making) 0 = false ∧
      legFits (choosing 700 making) 0 = true ∧ ((choosing 700 making).setFaults 0 2).faultsOf 0 ≠ 0) ∧
    (∀ l ∈ making.plan ++ breaking.plan ++ swapping.plan.drop 1, MustBeDriven (choosing 700 making) l) ∧
    (let s := (hotChoosing breaking).setFaults 0 16
     TakesHead s .a breaking ∧ DetectorHot s 0 ∧ s.faultValid 0 .hot = true ∧ legFits s 0 = true) ∧
    (let s := hotChoosing making
     TakesHead s .a making ∧ DetectorHot s 0 ∧ s.faultsOf 0 = 0 ∧ s.faultValid 0 .hot = false ∧
       (takeMiss 0 .hot (deferred s 0)).faultValid 0 .hot = false) ∧
    (let s := (hotChoosing making).setCounter 0 .hot 1
     TakesHead s .a making ∧ DetectorHot s 0 ∧ (takeMiss 0 .hot (deferred s 0)).faultValid 0 .hot = true ∧
       kindIn .hot s.settings.safeMask = false) ∧
    (¬ DetectorHot (choosing 700 making) 0 ∧ making.old = none ∧ (∃ k ∈ breaking.plan, k.part = .breakPart) ∧
      ∀ k ∈ swapping.plan.drop 1, k.part = .makePart) := by
  unfold TakesHead MayChoose HomeDue MustBeDriven DetectorHot
  decide +kernel

theorem witness_WindowOpenOpens :
    Ready node ∧ node.ring.address ≠ none ∧ 1 ≤ (1 : Word16).toNat ∧ (4095 : Word16).toNat ≤ 4095 ∧
      ((node.setDriver .b { Driver.reset with forced := true }).driver .b).forced = true := by
  unfold Ready
  decide +kernel

theorem witness_WindowOpenMalformed :
    Ready node ∧ node.ring.address ≠ none ∧ 3 < (4 : Byte).toNat ∧ 4095 < (4096 : Word16).toNat ∧
      Ready { node with ring := { node.ring with badFrames := 255 } } := by
  unfold Ready
  decide +kernel

theorem witness_WindowShutCloses :
    Ready node ∧ node.ring.address ≠ none ∧
    (node.tracker .a).isOpen = false ∧
    ((node.setTracker .a ⟨true, some 9, 0, true, false⟩).tracker .a).closingHeld = true ∧
    ((node.setTracker .a ⟨true, some 8, 1, false, false⟩).tracker .a).tag ≠ some 9 ∧
    (let s := legOn .driving .home (node.setTracker .a ⟨true, some 9, 1, false, false⟩)
     Ready s ∧ (s.tracker .a).isOpen = true ∧ (s.tracker .a).closingHeld = false ∧ (s.tracker .a).tag = some 9 ∧
        (s.driver .a).phase = .driving ∧ (s.driver .a).leg = some ⟨0, .thr 0, .home⟩) := by
  unfold Ready
  decide +kernel

theorem witness_WindowShutCloses_overrun :
    ∀ ph ∈ [DriverPhase.driving, .settling],
      have s := legOn ph .home (node.setTracker .a ⟨true, some 9, 1, false, false⟩)
      Ready s ∧ (s.tracker .a).isOpen = true ∧ (s.tracker .a).closingHeld = false ∧ (s.tracker .a).tag = some 9 ∧
        (s.driver .a).leg ≠ none ∧ (s.driver .a).phase = ph := by
  unfold Ready
  decide +kernel

theorem witness_BudgetEndCloses :
    ∀ src ∈ [LegSource.entry, .home, .forcedBreak 15, .forcedHome], ∀ ph ∈ [DriverPhase.driving, .settling],
      have s := legOn ph src (node.setTracker .a ⟨true, some 9, 1, false, true⟩)
      s.inReset = false ∧ (s.tracker .a).isOpen = true ∧ (s.tracker .a).closingHeld = false ∧
        (s.driver .a).leg = some ⟨0, .thr 0, src⟩ ∧ (s.driver .a).phase = ph := by decide +kernel

theorem witness_DriveEndSettles :
    let s := legOn .driving .entry (node.setTracker .a ⟨true, none, 0, true, false⟩)
    s.inReset = false ∧ (s.driver .a).phase = .driving ∧ (s.driver .a).leg = some ⟨0, .thr 0, .entry⟩ ∧
      (s.tracker .a).closingHeld = true := by decide +kernel

/-- A readback of bank 0 at T1 is due on plane A, for a leg of the source given, with the entry at the head. -/
def readingBack (src : LegSource) (e : Entry) : State :=
  { ((legOn .settling src forming).setQueue [e]) with lines := rig.lines.set 0 ⟨2, 0, 0⟩ }

theorem witness_ReadbackMatches :
    ∀ src ∈ [LegSource.entry, .home, .forcedBreak 15, .forcedHome],
      have s := readingBack src { making with active := true }
      s.inReset = false ∧ (s.driver .a).phase = .settling ∧ (s.driver .a).leg = some ⟨0, .thr 0, src⟩ ∧
        s.readback 0 = some (.thr 0) ∧ s.faultValid 0 .position = false ∧ (s.bank 0).lifeLimit = 0 ∧
        s.safe.state = .normal ∧ s.headOf .a = some { making with active := true } := by decide +kernel

/-- A BREAK with two legs left. -/
def breakingTwo : Entry := { breaking with plan := breaking.plan ++ [⟨1, .term, .breakPart, .oldSlot⟩] }

/-- A SWAP with two make legs left. -/
def swapMaking : Entry := { swapping with plan := swapping.plan.drop 1 }

theorem witness_ReadbackMatches_endLeg :
    (swapMaking.plan = [⟨1, .thr 7, .makePart, .newSlot⟩, ⟨0, .thr 1, .makePart, .newSlot⟩] ∧ swapMaking.old = some 15 ∧
      swapMaking.new = some 0 ∧ { swapMaking with old := none }.old = none ∧ swapMaking ∈ [swapMaking]) ∧
    (breakingTwo.plan = [⟨0, .term, .breakPart, .oldSlot⟩, ⟨1, .term, .breakPart, .oldSlot⟩] ∧
      breakingTwo.old = some 15) ∧
    (swapping.plan = ⟨0, .term, .breakPart, .neither⟩ :: swapMaking.plan ∧
      ∀ k ∈ swapMaking.plan, k.part = .makePart) ∧
    (let p := ⟨0, .term, .breakPart, .neither⟩ :: breakingTwo.plan
     { swapping with plan := p }.plan = p ∧ ∃ k ∈ breakingTwo.plan, k.part = .breakPart) := by decide +kernel

theorem witness_ReadbackMatches_complete :
    ({ breaking with plan := [] } ∈ ((closing .live).setQueue [{ breaking with plan := [] }]).queue ∧
      breaking.old = some 15 ∧ breaking.new = none) ∧
    (∀ owed ∈ [false, true], ∀ wait ∈ [0, 200],
      have s := (((forming.setQueue [{ making with plan := [] }]).setPath 15 { pathOn .forming 0 with closeOwed := owed, closeOwedCause := some .closePath }).setRoute 0
        { routeA 1 (.probe 0) [⟨0, 0⟩] with extraSettle := wait })
      { making with plan := [] } ∈ s.queue ∧ making.new = some 15 ∧ making.old ≠ some 15 ∧ (s.path 15).state = .forming ∧
        (s.path 15).route = some 0 ∧ (s.path 15).closeOwed = owed ∧ (s.route 0).extraSettle = wait ∧
        s.safe.state = .normal ∧ (s.path 15).station = some .s1) ∧
    (let e := { swapping with plan := [], active := true, origin := .sequencer .s1 }
     ∀ x ∈ [SeqState.waiting, .held],
      have s := ((swapWaiting .live).setQueue [e]).setRun .s1 { SeqRun.reset with state := x, changes := [⟨.a, some 15, some 0⟩] }
      e ∈ s.queue ∧ e.new = some 0 ∧ e.old = some 15 ∧ (s.path 0).state = .forming ∧ (s.path 0).route = some 1 ∧
        (s.run .s1).changes = [⟨.a, some 15, some 0⟩] ∧ (s.run .s1).state = x) := by decide +kernel

/-- In GRACE a MAKE's last leg leaves no head, a BREAK's first of two leaves it ACTIVE. -/
theorem witness_ReadbackMatches_outsideNormal :
    (∀ x ∈ [SafeState.grace, .teardown, .safe], ∀ e ∈ [{ making with active := true }, { breakingTwo with active := true }],
      have s := inSafe x (readingBack .entry e)
      s.inReset = false ∧ (s.driver .a).phase = .settling ∧ (s.driver .a).leg = some ⟨0, .thr 0, .entry⟩ ∧
        s.readback 0 = some (.thr 0) ∧ (s.bank 0).lifeLimit = 0 ∧ s.headOf .a = some e ∧ s.safe.state ≠ .normal ∧
        e.plan ≠ []) ∧
    (let e := { making with active := true }
     (endLeg e ⟨0, .thr 0, .makePart, .newSlot⟩ (inSafe .grace (readingBack .entry e))).headOf .a = none) ∧
    (let e := { breakingTwo with active := true }
     (endLeg e ⟨0, .term, .breakPart, .oldSlot⟩ (inSafe .grace (readingBack .entry e))).headOf .a =
       some { e with plan := [⟨1, .term, .breakPart, .oldSlot⟩] }) ∧
    (making.plan = [⟨0, .thr 0, .makePart, .newSlot⟩] ∧ making.new = some 15) ∧
    (breaking.plan = [⟨0, .term, .breakPart, .oldSlot⟩] ∧ breaking.old = some 15) := by decide +kernel

/-- A readback of bank 0, with its life count and life limit, its valid kinds and the settings given. -/
def ageing (n limit : Nat) (ks : KindSet) (x : Settings) : State :=
  { ((readingBack .entry making).setBank 0 { bankOn .a with holder := some 15, lifeCount := n, lifeLimit := limit }).setFaults 0 ks with
    settings := x }

/-- WORN becomes valid, in the safe mask and out of it; with no limit, below it or valid already, it does not. -/
theorem witness_ReadbackMatches_worn :
    (∀ n ∈ [(0, 1), (4294967295, 4294967295)], ∀ x ∈ [(node.settings, false), (highSettings, true)],
      have s := ageing n.1 n.2 0 x.1
      (s.driver .a).leg = some ⟨0, .thr 0, .entry⟩ ∧ s.readback 0 = some (.thr 0) ∧ NewlyWorn s 0 ∧
        kindIn .worn s.settings.safeMask = x.2 ∧ s.safe.state = .normal ∧ (s.bank 0).holder = some 15) ∧
    (∀ s ∈ [ageing 9 0 0 highSettings, ageing 0 2 0 highSettings, ageing 0 1 32 highSettings], ¬ NewlyWorn s 0) := by
  decide +kernel

/-- A new slot that a fixture loss has made FAILED, its change, a MAKE or a SWAP, in the plan given, in NORMAL and out
of it. -/
theorem witness_Readback_failedSlot :
    ∀ plan ∈ [[], making.plan], ∀ e ∈ [making, { swapMaking with new := some 15, old := none },
        { swapMaking with new := some 15, old := some 0 }],
      have q := { e with plan := plan, active := true }
      have s := (forming.setQueue [q]).setPath 15
        { pathOn .failed 0 with failure := some .fixtureLost, closeOwed := true, closeOwedCause := some .fixtureLoss }
      q ∈ s.queue ∧ q.new = some 15 ∧ q.old ≠ some 15 ∧ (s.path 15).state = .failed ∧ (s.path 15).closeOwed = true ∧
        ((q.kind = .makeChange ∧ q.old = none) ∨ (q.kind = .swapChange ∧ q.old ≠ some 15)) ∧ s.safe.state = .normal ∧
        (inSafe .grace s).safe.state ≠ .normal := by decide +kernel

theorem witness_ReadbackDiffers :
    ∀ src ∈ [LegSource.entry, .home, .forcedBreak 15, .forcedHome],
      have s := { readingBack src { making with active := true } with lines := rig.lines }
      s.inReset = false ∧ (s.driver .a).phase = .settling ∧ (s.driver .a).leg = some ⟨0, .thr 0, src⟩ ∧
        s.readback 0 ≠ some (.thr 0) ∧ s.faultValid 0 .position = false ∧ (s.setFaults 0 8).faultValid 0 .position = true ∧
        s.safe.state = .normal ∧ kindIn .position s.settings.safeMask = false ∧
        s.headOf .a = some { making with active := true } := by decide +kernel

/-- The miss makes POSITION valid, in the safe mask and out of it; in GRACE no entry is at the head. -/
theorem witness_ReadbackDiffers_valid :
    (∀ x ∈ [(node.settings, false), (highSettings, true)],
      have s := { (ageing 0 0 0 x.1).setCounter 0 .position 7 with lines := rig.lines }
      s.readback 0 ≠ some (.thr 0) ∧ MissMakesValid s 0 .position ∧ kindIn .position s.settings.safeMask = x.2 ∧
        s.safe.state = .normal ∧ (s.bank 0).holder = some 15) ∧
    ¬ MissMakesValid (ageing 0 0 0 node.settings) 0 .position ∧ ¬ MissMakesValid (ageing 0 0 8 highSettings) 0 .position ∧
    ((ageing 0 0 0 node.settings).setQueue []).headOf .a = none := by decide +kernel

theorem witness_ReadbackDiffers_fail :
    (∀ owed ∈ [false, true],
      have s := forming.setPath 15 { pathOn .forming 0 with closeOwed := owed }
      making ∈ s.queue ∧ making.plan = [⟨0, .thr 0, .makePart, .newSlot⟩] ∧ (s.path 15).state = .forming ∧
        (s.path 15).closeOwed = owed ∧ s.safe.state = .normal) ∧
    (breaking ∈ (closing .live).queue ∧ breaking.plan = [⟨0, .term, .breakPart, .oldSlot⟩] ∧
      ((closing .live).path 15).state ≠ .failed) ∧
    (∀ e ∈ [swapping, swapMaking],
      have s := (swapWaiting .live).setQueue [e]
      e ∈ s.queue ∧ e.kind = .swapChange ∧ e.old = some 15 ∧ e.new = some 0 ∧ (s.path 15).state ≠ .failed ∧
        (s.path 0).state = .forming ∧ (s.path 0).closeOwed = false) ∧
    (swapping.plan.map PlanLeg.part = [.breakPart, .makePart, .makePart] ∧
      swapMaking.plan.map PlanLeg.part = [.makePart, .makePart]) := by decide +kernel

/-- A leg that differs in GRACE; a SWAP whose break part has ended; a SWAP with close owed. -/
theorem witness_ReadbackDiffers_swap :
    (let s := inSafe .grace { readingBack .entry { making with active := true } with lines := rig.lines }
     s.inReset = false ∧ (s.driver .a).phase = .settling ∧ (s.driver .a).leg = some ⟨0, .thr 0, .entry⟩ ∧
       s.readback 0 ≠ some (.thr 0) ∧ s.safe.state ≠ .normal ∧ s.headOf .a = some { making with active := true }) ∧
    (∀ owed ∈ [false, true], ∀ old ∈ [none, some (15 : Slot)],
      have e := { swapMaking with old := old, active := true }
      have s := ((swapWaiting .live).setQueue [e]).setPath 0 { pathOn .forming 1 with closeOwed := owed }
      e ∈ s.queue ∧ e.kind = .swapChange ∧ e.plan.map PlanLeg.part = [.makePart, .makePart] ∧ e.old = old ∧
        e.old ≠ some 0 ∧ e.new = some 0 ∧ (s.path 0).state = .forming ∧ (s.path 0).closeOwed = owed ∧
        s.safe.state = .normal ∧ (inSafe .grace s).safe.state ≠ .normal) := by decide +kernel

/-- P15 holds bank 0 at T1, and its forced break pauses. -/
def pausing : State :=
  (((inSafe .teardown (held .closing)).setBank 0 { bankOn .a with holder := some 15, position := some (.thr 0) }).setDriver .a
    { Driver.reset with forced := true, pause := some ⟨⟨0, .term, .forcedBreak 15⟩, 0⟩ })

theorem witness_ForcedPauseEndDecidesAgain :
    (pausing.inReset = false ∧ (pausing.driver .a).pause = some ⟨⟨0, .term, .forcedBreak 15⟩, 0⟩ ∧
      (pausing.bank 0).holder = some 15 ∧ (pausing.bank 0).position ≠ some .term ∧ pausing.faultValid 0 .coil = false) ∧
    (pausing.setFaults 0 1).faultValid 0 .coil = true ∧ ((pausing.setFaults 0 1).bank 0).holder = some 15 := by
  decide +kernel

/-- Bank 0 owes a home whose forced leg pauses. -/
def homePausing (x : Contact) : State :=
  (((inSafe .teardown rig).setBank 0 { bankOn .a with position := some x, homeOwed := true }).setDriver .a
    { Driver.reset with forced := true, pause := some ⟨⟨0, .term, .forcedHome⟩, 9⟩ })

theorem witness_ForcedPauseEndDecidesAgain_home :
    ((homePausing (.thr 0)).inReset = false ∧
      ((homePausing (.thr 0)).driver .a).pause = some ⟨⟨0, .term, .forcedHome⟩, 9⟩ ∧
      ForcedHomeDue (homePausing (.thr 0)) .a 0 ∧ ((homePausing (.thr 0)).bank 0).position ≠ some .term) ∧
    ((homePausing .term).bank 0).position = some .term ∧ ¬ ForcedHomeDue ((homePausing (.thr 0)).setFaults 0 1) .a 0 := by
  unfold ForcedHomeDue
  decide +kernel

/-- Bank 0 owes a home, with the position, the budget and the detector given. -/
def homing (x : Contact) (budget : Nat) (hot : BitVec 10) : State :=
  { ((rig.setBank 0 { bankOn .a with position := some x, homeOwed := true }).setTracker .a ⟨true, some 1, budget, false, false⟩) with
    lines := rig.lines.set 0 ⟨2, hot, 300⟩ }

theorem witness_LegStarts :
    rig.faultValid 0 .hot = false ∧
    (∀ s ∈ [homing .term 0 0, homing (.thr 0) 699 0, homing (.thr 0) 700 64, homing (.thr 0) 700 63,
        (homing (.thr 0) 700 0).setQueue [making]], TakesHome s .a 0) ∧
    (TakesHome ((homing (.thr 0) 700 0).setFaults 0 32) .a 0 ∧ ((homing (.thr 0) 700 0).setFaults 0 32).faultsOf 0 ≠ 0) ∧
    (legFits (homing (.thr 0) 699 0) 0 = false ∧ legFits (homing (.thr 0) 700 0) 0 = true ∧
      DetectorHot (homing (.thr 0) 700 64) 0 ∧ ¬ DetectorHot (homing (.thr 0) 700 63) 0 ∧
      (homing (.thr 0) 700 63).faultsOf 0 = 0) := by
  unfold TakesHome MayChoose HomeDue DetectorHot
  decide +kernel

/-! ### Sequencers, faults, the safe state -/

/-- List Sequencer 1 in the state given. -/
def seqIn (x : SeqState) (s : State) : State := s.setRun .s1 { SeqRun.reset with state := x }

/-- The smallest region, and the whole of Step Memory with a group. -/
def oneStep : SeqSettings := ⟨511, 511, 511, some 511, some (511, 511), 255, 511⟩
def allSteps : SeqSettings := ⟨0, 511, 511, none, some (0, 511), 0, 0⟩

theorem admitted_oneStep : SettingsAdmitted oneStep := by
  have h : InRegion oneStep 511 := by unfold InRegion; decide
  refine ⟨h, fun n e => ?_, h, fun a b e => ?_⟩
  · cases e; exact h
  · cases e; exact ⟨h, h, by decide⟩

theorem admitted_allSteps : SettingsAdmitted allSteps := by
  have h : InRegion allSteps 511 := by unfold InRegion; decide
  have h0 : InRegion allSteps 0 := by unfold InRegion; decide
  refine ⟨h, fun n e => ?_, h0, fun a b e => ?_⟩
  · cases e
  · cases e; exact ⟨h0, h, by decide⟩

theorem witness_SetSequencerWrites :
    (∀ x ∈ [SeqState.idle, .done, .faulted], ((seqIn x node).run .s1).state = x ∧
      ForThisNode (req (seqSettingsBytes oneStep)) (seqIn x node) ∧
      ForThisNode (req (seqSettingsBytes allSteps)) (seqIn x node) ∧ ForThisNode (req []) (seqIn x node)) ∧
    NamesStation (req (seqSettingsBytes oneStep)) .s1 ∧ oneStep.groupCount ≤ 255 ∧ (req []).params.length ≠ 15 ∧
    ∀ x ∈ [SeqState.waiting, .dwelling, .stalled, .held], ((seqIn x node).run .s1).state = x ∧
      ForThisNode (req []) (seqIn x node) := by
  unfold ForThisNode Ready NamesStation
  decide +kernel

/-- Parameters of SET_SEQUENCER: first and last of the region, start, stop, group start and end, divert target. -/
def seqParams (a b c d e g t : Nat) : List Byte :=
  bytes2 a ++ bytes2 b ++ bytes2 c ++ bytes2 d ++ bytes2 e ++ bytes2 g ++ [0] ++ bytes2 t

theorem witness_SetSequencerWrites_bad :
    ∀ x ∈ [(seqParams 512 0 0 0 0 0 0, 1), (seqParams 0 9 0 512 0 0 0, 4), (seqParams 0 9 0 0xFFFF 0xFFFF 0xFFFF 512, 8)],
      ForThisNode (req x.1) node ∧ x.1.length = 15 ∧ SeqFieldBad x.1 x.2 ∧ ∀ m, m < x.2 → ¬ SeqFieldBad x.1 m := by
  unfold ForThisNode Ready SeqFieldBad
  decide +kernel

theorem witness_SetSequencerWrites_ladder (n : Nat) :
    (∀ ps ∈ [seqParams 5 4 5 5 5 5 5, seqParams 5 9 4 5 5 5 5, seqParams 5 9 9 10 5 5 5, seqParams 5 9 9 0xFFFF 5 0xFFFF 5,
        seqParams 5 9 9 9 0xFFFF 5 5, seqParams 5 9 5 5 5 10 5, seqParams 5 9 5 5 6 5 5, seqParams 5 9 5 5 0xFFFF 0xFFFF 4,
        seqParams 5 9 5 5 5 9 10],
      ForThisNode (req ps) node ∧ ps.length = 15 ∧ ¬ SeqFieldBad ps n) ∧
    (let ps := seqParams 5 4 5 5 5 5 5
     val2 ps 2 < val2 ps 0) ∧
    (let ps := seqParams 5 9 4 5 5 5 5
     val2 ps 0 ≤ val2 ps 2 ∧ ¬ InParamRegion ps (val2 ps 4)) ∧
    (let ps := seqParams 5 9 9 10 5 5 5
     InParamRegion ps (val2 ps 4) ∧ val2 ps 6 ≠ 0xFFFF ∧ ¬ InParamRegion ps (val2 ps 6)) ∧
    (let ps := seqParams 5 9 9 0xFFFF 5 0xFFFF 5
     InParamRegion ps (val2 ps 4) ∧ val2 ps 6 = 0xFFFF ∧ val2 ps 8 ≠ 0xFFFF ∧ val2 ps 10 = 0xFFFF) ∧
    (let ps := seqParams 5 9 9 9 0xFFFF 5 5
     InParamRegion ps (val2 ps 6) ∧ val2 ps 8 = 0xFFFF ∧ val2 ps 10 ≠ 0xFFFF) ∧
    (let ps := seqParams 5 9 5 5 5 10 5
     val2 ps 8 ≠ 0xFFFF ∧ val2 ps 10 ≠ 0xFFFF ∧ ¬ InParamRegion ps (val2 ps 10)) ∧
    (let ps := seqParams 5 9 5 5 6 5 5
     val2 ps 8 ≠ 0xFFFF ∧ val2 ps 10 ≠ 0xFFFF ∧ val2 ps 10 < val2 ps 8) ∧
    (let ps := seqParams 5 9 5 5 0xFFFF 0xFFFF 4
     val2 ps 8 = 0xFFFF ∧ val2 ps 10 = 0xFFFF ∧ ¬ InParamRegion ps (val2 ps 13)) ∧
    (let ps := seqParams 5 9 5 5 5 9 10
     InParamRegion ps (val2 ps 8) ∧ InParamRegion ps (val2 ps 10) ∧ val2 ps 8 ≤ val2 ps 10 ∧
       ¬ InParamRegion ps (val2 ps 13)) := by
  refine ⟨fun ps hp => ⟨?_, ?_, ?_⟩, ?_⟩
  · unfold ForThisNode Ready
    revert ps
    decide +kernel
  · revert ps
    decide +kernel
  · unfold SeqFieldBad
    have h : ∀ ps ∈ [seqParams 5 4 5 5 5 5 5, seqParams 5 9 4 5 5 5 5, seqParams 5 9 9 10 5 5 5, seqParams 5 9 9 0xFFFF 5 0xFFFF 5,
        seqParams 5 9 9 9 0xFFFF 5 5, seqParams 5 9 5 5 5 10 5, seqParams 5 9 5 5 6 5 5, seqParams 5 9 5 5 0xFFFF 0xFFFF 4,
        seqParams 5 9 5 5 5 9 10],
      ¬ (511 < val2 ps 0 ∨ 511 < val2 ps 2 ∨ 511 < val2 ps 4 ∨ (511 < val2 ps 6 ∧ val2 ps 6 ≠ 0xFFFF) ∨
        (511 < val2 ps 8 ∧ val2 ps 8 ≠ 0xFFFF) ∨ (511 < val2 ps 10 ∧ val2 ps 10 ≠ 0xFFFF) ∨ 511 < val2 ps 13) := by
      decide +kernel
    exact fun e => h ps hp (e.imp And.right (.imp And.right (.imp And.right (.imp And.right
      (.imp And.right (.imp And.right And.right))))))
  · unfold InParamRegion
    decide +kernel

/-- Sequencer 1 starts at a step with the record given. -/
def atStep (r : StepRecord) (s : State) : State := s.setStep 0 r

theorem witness_SeqRunArrives :
    (NamesStation (req []) .s1 ∧ (req []).params = []) ∧
    (ForThisNode (req []) (inSafe .grace node) ∧ (inSafe .grace node).safe.state ≠ .normal) ∧
    (∀ x ∈ [SeqState.waiting, .dwelling, .stalled, .held, .idle, .done, .faulted],
      ForThisNode (req []) (seqIn x node) ∧ (seqIn x node).safe.state = .normal ∧ ((seqIn x node).run .s1).state = x) ∧
    ((node.step (node.seqCfg .s1).start).kind = .apply 1 ∧ (node.step (node.seqCfg .s1).start).routeA = .keep ∧
      (node.step (node.seqCfg .s1).start).routeB = .keep) ∧
    (let s := atStep { StepRecord.reset with kind := .jump 511, mark := true } node
     (s.step (s.seqCfg .s1).start).kind = .jump 511 ∧ (s.step (s.seqCfg .s1).start).cond = .always ∧
       (s.step (s.seqCfg .s1).start).mark = true) := by
  unfold ForThisNode Ready NamesStation
  decide +kernel

theorem witness_SeqRunArrives_jump : InRegion (node.seqCfg .s1) 511 := by
  unfold InRegion
  decide +kernel

/-- SEQ_RUN with a route for plane A: the MAKE is acceptable. -/
theorem witness_SeqRunArrives_make :
    let s := atStep { StepRecord.reset with routeA := .route 0 } rig
    ForThisNode (req []) s ∧ (s.step (s.seqCfg .s1).start).kind = .apply 1 ∧
      (s.step (s.seqCfg .s1).start).cond = .always ∧ (s.step (s.seqCfg .s1).start).routeA = .route 0 ∧
      (s.step (s.seqCfg .s1).start).routeB = .keep ∧ (s.route 0).plane = .a ∧ (s.run .s1).current.a = none ∧
      Acceptable s .s1 (s.route 0) none [] ∧ LowestFree s 0 := by
  refine ⟨by unfold ForThisNode Ready; decide +kernel, by decide +kernel, by decide +kernel, by decide +kernel,
    by decide +kernel, by decide +kernel, by decide +kernel, acceptable_rig, by unfold LowestFree; decide +kernel⟩

/-- List Sequencer 1 HELD in the phase given. -/
def heldIn (h : HeldPhase) (cs : List PendingChange) : State :=
  node.setRun .s1 { SeqRun.reset with state := .held, heldPhase := some h, changes := cs, heldByLoopback := true }

theorem witness_SequencerHoldResumeStopDivert :
    (ForThisNode (anon []) node ∧ (anon []).station ≠ 1 ∧ (anon []).station ≠ 2) ∧
    (ForThisNode { req [] with station := 3 } node ∧ { req [] with station := 3 }.station ≠ 1 ∧
      { req [] with station := 3 }.station ≠ 2) ∧
    (ForThisNode (req [0]) node ∧ (req [0]).params ≠ []) ∧
    (NamesStation (req []) .s1 ∧ NamesStation { req [] with station := 2 } .s2) ∧
    (∀ x ∈ [SeqState.waiting, .dwelling, .stalled, .idle, .held, .done, .faulted],
      ForThisNode (req []) (seqIn x node) ∧ ((seqIn x node).run .s1).state = x) ∧
    (∀ h ∈ [HeldPhase.dwelling, .stalled, .waiting, .arrival],
      ForThisNode (req []) (heldIn h []) ∧ ((heldIn h []).run .s1).state = .held ∧
        ((heldIn h []).run .s1).heldPhase = some h ∧ ((heldIn h []).run .s1).changes = []) ∧
    ((heldIn .waiting []).run .s1).copy.kind = .apply 1 ∧
    (ForThisNode (req []) (heldIn .waiting [⟨.a, none, some 0⟩]) ∧
      ((heldIn .waiting [⟨.a, none, some 0⟩]).run .s1).changes ≠ []) := by
  unfold ForThisNode Ready NamesStation
  decide +kernel

/-- SEQ_RESUME arrives at a step that applies and at one that jumps; each kind of entry is cancelled. -/
theorem witness_SequencerHoldResumeStopDivert_more :
    (∀ k ∈ [StepKind.apply 1, .jump 511],
      have s := (heldIn .arrival []).setStep 0 { StepRecord.reset with kind := k }
      ForThisNode (req []) s ∧ (s.run .s1).state = .held ∧ (s.run .s1).heldPhase = some .arrival ∧
        (s.step (s.run .s1).cursor).kind = k ∧ (s.run .s1).heldByLoopback = true) ∧
    (let r := { SeqRun.reset with state := .held, heldPhase := some .arrival }
     let s := (node.setSeqCfg .s1 { SeqSettings.reset with group := some (0, 0), groupCount := 2 }).setRun .s1 r
     ForThisNode (req []) s ∧ (s.seqCfg .s1).group.map Prod.fst = some (s.run .s1).cursor ∧
       (s.run .s1).heldByLoopback = false) ∧
    (forming.headOf making.plane = some making ∧ making.kind = .makeChange ∧ making.old = none ∧ making.new = some 15) ∧
    (∀ x ∈ [PriorState.settling, .live, .failed], (closing x).headOf breaking.plane = some breaking ∧
      breaking.old = some 15 ∧ breaking.new = none ∧ ((closing x).path 15).route = some 0 ∧
      ((closing x).path 15).prior = some x) ∧
    (∀ x ∈ [PriorState.settling, .live, .failed],
      have e := { swapping with origin := .sequencer .s1 }
      have s := (swapWaiting x).setQueue [e]
      s.headOf e.plane = some e ∧ e.kind = .swapChange ∧ e.old = some 15 ∧ e.new = some 0 ∧
        (s.path 15).route = some 0 ∧ (s.path 15).prior = some x ∧ (s.run .s1).current.get .a = none) ∧
    ((∀ e ∈ node.queue, e.active = true ∨ e.origin ≠ .sequencer .s1) ∧
      ∀ e ∈ [{ making with active := true, origin := .sequencer .s1 }, making],
        e.active = true ∨ e.origin ≠ .sequencer .s1) := by
  unfold ForThisNode Ready
  decide +kernel

theorem witness_NextIndexRule :
    (let r := { SeqRun.reset with copy := { StepRecord.reset with kind := .jump 511 }, jumpTaken := true }
     r.copy.kind = .jump 511 ∧ r.jumpTaken = true) ∧
    (let r := { SeqRun.reset with copy := { StepRecord.reset with mark := true }, divertArmed := true }
     r.jumpTaken = false ∧ r.copy.mark = true ∧ r.divertArmed = true) ∧
    (SeqRun.reset.jumpTaken = false ∧ SeqRun.reset.copy.mark = false) ∧
    (let r := { SeqRun.reset with groupCounter := 2, cursor := 511 }
     allSteps.group = some (0, r.cursor) ∧ 1 < r.groupCounter) ∧
    (let r := { SeqRun.reset with groupCounter := 1, cursor := 511 }
     allSteps.group = some (0, r.cursor) ∧ r.groupCounter ≤ 1 ∧ r.cursor = allSteps.regionLast) ∧
    (nextIndex (node.seqCfg .s1) (node.run .s1) = (1, .advance false, node.run .s1) ∧ (node.seqCfg .s1).stop ≠ some 1 ∧
      (node.run .s1).copy.hold = false) ∧
    (let s := node.setSeqCfg .s1 { SeqSettings.reset with stop := some 1 }
     nextIndex (s.seqCfg .s1) (s.run .s1) = (1, .advance false, s.run .s1) ∧ (s.seqCfg .s1).stop = some 1) ∧
    (let s := node.setRun .s1 { SeqRun.reset with copy := { StepRecord.reset with hold := true }, cursor := 511 }
     nextIndex (s.seqCfg .s1) (s.run .s1) = (0, .advance true, s.run .s1) ∧ (s.seqCfg .s1).stop ≠ some 0 ∧
       (s.run .s1).copy.hold = true) := by decide +kernel

theorem witness_NextIndexRule_noGroup (a : StepId) : SeqSettings.reset.group ≠ some (a, SeqRun.reset.cursor) :=
  fun h => nomatch (show (none : Option (StepId × StepId)) = some (a, SeqRun.reset.cursor) from h)

/-- Sequencer 1 evaluates the copy given with plane A's current path P15 or none. -/
def evaluating (r : StepRecord) (cur : Option Slot) (s : State) : State :=
  s.setRun .s1 { SeqRun.reset with state := .dwelling, copy := r, current := ⟨cur, none⟩ }

theorem witness_ConditionRule :
    (let s := evaluating { StepRecord.reset with cond := .live } none rig
     holds s .s1 (s.run .s1).copy.cond .a = false) ∧
    ∀ (fld : RouteField) (cur : Option Slot) (x : PathState),
      let s := evaluating { StepRecord.reset with routeA := fld } cur (held x)
      holds s .s1 (s.run .s1).copy.cond .a = true ∧ (s.run .s1).copy.routeA = fld ∧ (s.run .s1).current.get .a = cur :=
  ⟨rfl, fun _ _ _ => ⟨rfl, rfl, rfl⟩⟩

theorem witness_ConditionRule_paths :
    (∀ x ∈ [PathState.free, .forming, .settling, .live, .closing, .failed],
      have s := evaluating StepRecord.reset (some 15) (held x)
      (s.path 15).state = x ∧ (s.path 15).closeOwed = false ∧ (s.path 15).route = some 0 ∧
        (s.path 15).station = some .s1) ∧
    (((held .live).setPath 15 { pathOn .live 0 with closeOwed := true }).path 15).closeOwed = true ∧
    ((otherPlane.route 0).defined = true ∧ (otherPlane.route 0).plane ≠ .a ∧ (rig.route 127).defined = false) ∧
    ((0xFFFF#16).getLsbD 15 = true ∧ ((held .live).path 15).state ≠ .closing) := by
  decide +kernel

theorem witness_ConditionRule_conflict (q : Slot) (h : (0x8000#16).getLsbD q.1 = true) :
    ((held .closing).path q).state = .closing := by
  revert q
  decide +kernel

/-- The asks meet each check of R22, a full table and an acceptable route, as OPEN_PATH and SWAP_PATH do. -/
theorem witness_ConditionRule_ask :
    FirstFailure rig .s1 (rig.route 2) none none [] 4 ⟨.eState, [0x40]⟩ ∧
    (Acceptable fullRig .s1 (fullRig.route 0) none [] ∧ ∀ q, (fullRig.path q).state ≠ .free) ∧
    (Acceptable rig .s1 (rig.route 0) none [] ∧ LowestFree rig 0) ∧
    FirstFailure (held .live) .s1 ((held .live).route 2) (some 15) (some .a) ((held .live).route 0).legs 4
      ⟨.eState, [0x40]⟩ ∧
    (Acceptable (held .live) .s1 ((held .live).route 1) (some 15) ((held .live).route 0).legs ∧ LowestFree (held .live) 0) := by
  simp only [firstFailure_iff]
  refine ⟨by decide +kernel, ⟨acceptable_full, by decide +kernel⟩, ⟨acceptable_rig, ?_⟩, by decide +kernel,
    acceptable_held .live (by decide), ?_⟩ <;> unfold LowestFree <;> decide +kernel

theorem witness_ReadSequencerFaultsClaimsAnswer :
    (ForThisNode (req []) node ∧ NamesStation (req []) .s1 ∧ (req []).params = [] ∧
      NamesStation { req [] with station := 2 } .s2) ∧
    (ForThisNode (req [0xFF]) node ∧ (req [0xFF]).params = [0xFF]) ∧
    (∀ b ∈ [(0 : BankId), 23], ForThisNode (req [byteOf b.1]) node) ∧
    ((req []).params.length ≠ 1 ∧ ForThisNode (req [24]) node ∧ 23 < val1 (req [24]).params 0 ∧
      val1 (req [24]).params 0 < 255 ∧ val1 (req [254]).params 0 < 255) ∧
    (ForThisNode (req [1]) node ∧ (req [1]).params ≠ []) := by
  unfold ForThisNode Ready NamesStation
  decide +kernel

theorem witness_ClaimsMove :
    (ForThisNode (req (itemMapBytes fun _ => true)) rig ∧ NamesStation (req (itemMapBytes fun _ => true)) .s1) ∧
    (∀ f ∈ [anon [0, 0, 0, 0], req [0, 0, 0], req [0, 0, 0, 16]], ForThisNode f rig ∧
      (f.station ≠ 1 ∧ f.station ≠ 2 ∨ f.params.length ≠ 4 ∨ 15 < val1 f.params 3)) ∧
    (rig.claimOf (.bank 0) = some .s1 ∧ rig.claimOf (.bank 23) = none) := by
  unfold ForThisNode Ready NamesStation
  decide +kernel

/-- RELEASE keeps bank 0 of a LIVE path and lets bank 1 go. -/
theorem witness_ClaimsMove_use : InUseBy (held .live) .s1 (.bank 0) ∧ ¬ InUseBy (held .live) .s1 (.bank 1) := by
  have h : ((held .live).bank 0).holder = some 15 ∧ ((held .live).path 15).station = some .s1 ∧
      ((held .live).bank 1).holder = none := by decide +kernel
  exact ⟨⟨15, h.1, h.2.1⟩, fun ⟨p, hp, _⟩ => nomatch (h.2.2.symm.trans hp)⟩

theorem witness_ClearFaultsClears :
    (ForThisNode (req [0, 0xFF, byteOf (0x3C#6).toNat]) rig ∧ (0x3C#6).getLsbD 0 = false ∧ (0x3C#6).getLsbD 1 = false) ∧
    (let s := { rig.setFaults 23 2 with lines := node.lines }.setBank 23 (bankOn .a)
     ForThisNode (req [1, byteOf 23, 2]) s ∧ s.faultValid 23 .drift = true ∧ (s.bank 23).fitted = true ∧
       s.inFlight 23 = false ∧ s.readback 23 = none) ∧
    (let s := { (held .live).setFaults 0 2 with lines := rig.lines.set 0 ⟨2, 0, 0⟩ }
     ForThisNode (req [1, byteOf 0, 2]) s ∧ s.faultValid 0 .drift = true ∧ (s.bank 0).fitted = true ∧
       s.inFlight 0 = false ∧ (s.bank 0).holder = some 15 ∧ (s.bank 0).position ≠ s.readback 0 ∧
       (s.path 15).state = .live) ∧
    (let s := inSafe .safe { rig.setFaults 0 2 with lines := rig.lines.set 0 ⟨2, 0, 0⟩ }
     ForThisNode (req [1, byteOf 0, 2]) s ∧ s.faultValid 0 .drift = true ∧ (s.bank 0).fitted = true ∧
       s.inFlight 0 = false ∧ s.readback 0 ≠ none ∧ s.readback 0 ≠ some .term ∧ (s.bank 0).holder = none) ∧
    (∀ b ∈ [(0 : BankId), 23], ForThisNode (req [1, byteOf b.1, 1]) (inSafe .safe rig)) ∧
    (∀ f ∈ [req [0, 0xFF], req [2, 0, 0], req [0, 0, 0], req [1, 24, 0], req [1, 0, 64]], ForThisNode f rig ∧
      (f.params.length ≠ 3 ∨ 1 < val1 f.params 0 ∨ (val1 f.params 0 = 0 ∧ val1 f.params 1 ≠ 0xFF) ∨
        (val1 f.params 0 = 1 ∧ 23 < val1 f.params 1) ∨ 63 < val1 f.params 2)) := by
  unfold ForThisNode Ready
  decide +kernel

theorem witness_ClearFaultsClears_more :
    (∀ ks ∈ [1, 2], ForThisNode (req [0, 0xFF, ks]) rig) ∧
    (∀ b ∈ [(0 : BankId), 23], ∀ ks ∈ [1, 2, 0x3C], ForThisNode (req [1, byteOf b.1, ks]) rig) ∧
    (¬ DriftRefused rig 0 ∧ ¬ DriftDue rig 0 ∧ ¬ CoilOwes rig 0) ∧
    (let s := inSafe .safe ((rig.setFaults 0 1).setBank 0 { bankOn .a with position := none })
     CoilOwes s 0 ∧ s.safe.state = .safe) ∧
    (let s := { (held .live).setFaults 0 2 with lines := rig.lines.set 0 ⟨2, 0, 0⟩ }
     DriftRefused s 0 ∧ ForThisNode (req [0, 0xFF, 2]) s ∧ ForThisNode (req [1, 0, 2]) s) := by
  unfold ForThisNode Ready
  decide +kernel

/-- A kind set with COIL and DRIFT, alone and with the rest, in either form and either order. -/
theorem witness_ClearFaultsClears_mixed :
    (∀ ks ∈ [(0 : KindSet), 3, 5, 0x3F], ForThisNode (req [0, 0xFF, byteOf ks.toNat]) rig ∧
      ∀ b ∈ [(0 : BankId), 23], ForThisNode (req [1, byteOf b.1, byteOf ks.toNat]) rig) ∧
    (let s := inSafe .safe ((rig.setFaults 0 3).setBank 0 { bankOn .a with position := none })
     DriftDue s 0 ∧ ¬ DriftRefused s 0 ∧ CoilOwesAt true s 0 (s.bank 0).position ∧
       ¬ CoilOwesAt true s 0 (driftCleared true s 0).position) := by
  unfold ForThisNode Ready driftCleared
  decide +kernel

theorem witness_MissCounting :
    (MissMakesValid ((held .live).setCounter 0 .hot 7) 0 .hot ∧ ¬ MissMakesValid rig 0 .hot ∧
      MissMakesValid { rig with settings := highSettings } 23 .hot) ∧
    (∀ k ∈ [FaultKind.coil, .drift, .stray, .position, .hot], k ≠ .worn ∧ rig.faultValid 0 k = false ∧
      (rig.setFaults 0 0x3F).faultValid 0 k = true ∧ (takeMiss 0 k rig).faultValid 0 k = false ∧
      (let s := (held .live).setCounter 0 k 7
       s.faultValid 0 k = false ∧ (takeMiss 0 k s).faultValid 0 k = true ∧ kindIn k s.settings.safeMask = false ∧
         (s.bank 0).holder = some 15 ∧ (s.path 15).state = .live)) ∧
    (let s := { rig with settings := highSettings }
     kindIn .coil s.settings.safeMask = true ∧ s.safe.state = .normal) := by decide +kernel

theorem witness_SafeEnterAndExit :
    (ForThisNode (anon [0]) node ∧ (anon [0]).params ≠ []) ∧
    (ForThisNode (anon []) node ∧ (anon []).params = [] ∧ node.safe.state = .normal) ∧
    (∀ x ∈ [SafeState.grace, .teardown, .safe], ForThisNode (anon []) (inSafe x node) ∧
      (inSafe x node).safe.state = x ∧ (inSafe x node).safe.state ≠ .normal) ∧
    (let s := (inSafe .safe node).setDoor ⟨false, false, none⟩
     ForThisNode (anon []) s ∧ s.safe.state = .safe ∧ s.chamber.door.debounced = false) ∧
    (let s := { (inSafe .safe node) with settings := highSettings, sup := { node.sup with summaries := 32 } }
     ForThisNode (anon []) s ∧ s.safe.state = .safe ∧ s.sup.summaries &&& s.settings.safeMask ≠ 0) ∧
    (let s := inSafe .safe node
     s.safe.state = .safe ∧ s.chamber.door.debounced = true ∧ s.sup.summaries &&& s.settings.safeMask = 0) := by
  unfold ForThisNode Ready
  decide +kernel

/-- The ACTIVE MAKE of P15 at the head of plane A. -/
def formingActive : State := forming.setQueue [{ making with active := true }]

/-- Safe entry finds each sequencer state, and an ACTIVE head without and with a leg in flight. -/
theorem witness_SafeEnterAndExit_more :
    (∀ x ∈ [SeqState.waiting, .dwelling, .stalled, .held, .idle, .done, .faulted],
      ForThisNode (anon []) (seqIn x node) ∧ (seqIn x node).safe.state = .normal ∧ ((seqIn x node).run .s1).state = x) ∧
    (ForThisNode (anon []) formingActive ∧ formingActive.safe.state = .normal ∧
      formingActive.headOf .a = some { making with active := true } ∧ (formingActive.driver .a).leg = none) ∧
    (∀ s ∈ [legOn .driving .entry formingActive, forming],
      ForThisNode (anon []) s ∧ s.safe.state = .normal ∧ s.headOf .a ≠ none ∧
        ∀ e, s.headOf .a = some e → e.active = false ∨ (s.driver .a).leg ≠ none) := by
  have h : ∀ s ∈ [legOn .driving .entry formingActive, forming], (s.headOf .a).all (fun e => !e.active) = true ∨
      (s.driver .a).leg ≠ none := by decide +kernel
  refine ⟨by unfold ForThisNode Ready; decide +kernel, by unfold ForThisNode Ready; decide +kernel, fun s hs => ?_⟩
  have hn : ForThisNode (anon []) s ∧ s.safe.state = .normal ∧ s.headOf .a ≠ none := by
    revert s
    unfold ForThisNode Ready
    decide +kernel
  refine ⟨hn.1, hn.2.1, hn.2.2, fun e he => (h s hs).imp (fun ha => ?_) id⟩
  rw [he] at ha
  simpa using ha

theorem witness_NodeResetAndForget :
    (ForThisNode (anon [0]) node ∧ (anon [0]).params ≠ []) ∧
    (ForThisNode (anon []) node ∧ (anon []).params = [] ∧ node.safe.state = .normal) ∧
    (∀ x ∈ [SafeState.grace, .teardown], ForThisNode (anon []) (inSafe x node) ∧ (inSafe x node).safe.state = x) ∧
    (let s := inSafe .safe rig
     ForThisNode (anon []) s ∧ s.safe.state = .safe ∧
       (∀ b, (s.bank b).fitted = true → s.faultValid b .coil = true → (s.bank b).position = some .term) ∧
       s.safe.causes &&& ~~~16#5 ≠ 0) ∧
    (let s := rig.setSafe { SafeController.reset with state := .safe, causes := 16 }
     ForThisNode (anon []) s ∧ s.safe.state = .safe ∧
       (∀ b, (s.bank b).fitted = true → s.faultValid b .coil = true → (s.bank b).position = some .term) ∧
       s.safe.causes &&& ~~~16#5 = 0 ∧ s.queue = [] ∧ ∀ b, (s.bank b).fitted = true → (s.bank b).homeOwed = false) ∧
    (let s := ((inSafe .safe rig).setFaults 0 1).setBank 0 { bankOn .a with position := none }
     ForThisNode (anon []) s ∧ s.safe.state = .safe ∧ (s.bank 0).fitted = true ∧ s.faultValid 0 .coil = true ∧
       (s.bank 0).position ≠ some .term) := by
  unfold ForThisNode Ready
  decide +kernel

/-! ### Frames, timers, reset -/

theorem witness_RequestsPassedOn :
    (ForThisNode (req []) node ∧ (0x00 : Byte) ∉ requestCodes ∧ (0xFF : Byte) ∉ requestCodes) ∧
    (Ready State.reset ∧ State.reset.ring.address = none) ∧
    (Ready node ∧ node.ring.address = some 1 ∧ (req []).wellFormed = true ∧
      { req [] with hdr := ⟨15, 15, 0⟩ }.wellFormed = true ∧ (15 : BitVec 4) ≠ 0 ∧ (15 : BitVec 4) ≠ 1) ∧
    ({ req [] with status := 0 }.wellFormed = true ∧ { req [] with status := 0 }.hdr.dest = 1 ∧
      { req [] with status := 0 }.status ≠ 0xFF) := by
  unfold ForThisNode Ready
  decide +kernel

theorem witness_BroadcastRequests :
    Ready node ∧ (cast []).wellFormed = true ∧ (cast []).hdr.dest = 0 ∧ node.ring.address = some 1 ∧
      (cast []).resp.length = 2 ∧ (0x63 : Byte) ∈ executedInBroadcast.map Prod.fst ∧
      (0x53 : Byte) ∈ keptFromBroadcast.map Prod.fst ∧
      { cast [] with resp := [0] }.wellFormed = true ∧ { cast [] with resp := [0] }.resp.length ≠ 2 := by
  unfold Ready
  decide +kernel

theorem witness_CadenceTaken :
    (Ready node ∧ node.ring.address = some 1) ∧ (Ready State.reset ∧ State.reset.ring.address = none) ∧
    (∀ x ∈ [SeqState.waiting, .held, .idle, .done, .faulted, .dwelling, .stalled], ((seqIn x node).run .s1).state = x) ∧
    (∀ n ∈ [1, 4096], let s := node.setRun .s1 { SeqRun.reset with state := .dwelling, dwell := n }
     (s.run .s1).state = .dwelling ∧ (s.run .s1).dwell = n) ∧
    (let s := node.setStep 1 { StepRecord.reset with kind := .jump 511 }
     nextIndex (s.seqCfg .s1) (s.run .s1) = (1, .advance false, s.run .s1) ∧ (s.seqCfg .s1).stop ≠ some 1 ∧
       (s.run .s1).copy.hold = false ∧ (s.step 1).kind = .jump 511 ∧ (node.step 1).kind = .apply 1) ∧
    (cadenceStep (some 0) 17).2 = true ∧ (cadenceStep (some 0xFFFF) 15) = (16, false) ∧
    ((∀ st, (node.run st).state ≠ .dwelling ∧ (node.run st).state ≠ .stalled) ∧
      node.safe.state = .normal ∧ canChoose node .a = false ∧ canChoose node .b = false ∧
      (inSafe .grace node).safe.state = .grace ∧ (inSafe .safe node).safe.state = .safe) := by
  unfold Ready
  refine ⟨by decide +kernel, by decide +kernel, by decide +kernel, by decide +kernel, by decide +kernel, by decide +kernel,
    by decide +kernel, fun st => ?_, by decide +kernel⟩
  cases st <;> decide +kernel

theorem witness_EnumerateTaken :
    (Ready node ∧ node.ring.address ≠ none) ∧ (Ready State.reset ∧ State.reset.ring.address = none) ∧
      (15 : Byte).toNat ≤ 15 ∧ 16 ≤ (16 : Byte).toNat ∧ 16 ≤ (255 : Byte).toNat := by
  unfold Ready
  decide +kernel

/-- A frame of kind 6 and one of kind 1 with an upper bit set, each with a good check. -/
def oddFrame (k u : Byte) : List Byte := [k, u, 0, 0] ++ wordBytes (crc [k, u, 0, 0])

theorem witness_BadAndLostFrames :
    (node.inReset = false ∧ node.ring.forward.length < 4) ∧
    (¬ (6 ≤ ([0x10, 0, 0, 0, 0] : List Byte).length)) ∧
    (∀ x ∈ [oddFrame 0x00 0, oddFrame 0x60 0, oddFrame 0x10 16],
      6 ≤ x.length ∧ x.length ≤ 126 ∧ val1 x 3 ≤ 120 ∧ x.length = 6 + val1 x 3 ∧
        wordBytes (crc (x.take (x.length - 2))) = x.drop (x.length - 2)) ∧
    (val1 (oddFrame 0x00 0) 0 / 16 = 0 ∧ 6 ≤ val1 (oddFrame 0x60 0) 0 / 16 ∧ 1 ≤ val1 (oddFrame 0x10 16) 0 / 16 ∧
      val1 (oddFrame 0x10 16) 0 / 16 ≤ 5 ∧ 16 ≤ val1 (oddFrame 0x10 16) 1) ∧
    4 ≤ { node with ring := { node.ring with forward := [[], [], [], []] } }.ring.forward.length := by decide +kernel

theorem witness_GraceAndKeepaliveEnd :
    (let s := node.setSafe { SafeController.reset with state := .grace, causes := 8, grace := some 0 }
     s.inReset = false ∧ s.safe.grace = some 0 ∧ s.safe.state = .grace ∧ (∀ p, (s.path p).state = .free) ∧
       (∀ b, (s.bank b).fitted = true → (s.bank b).homeOwed = false) ∧
       (∀ pl ∈ [Plane.a, .b], (s.driver pl).leg = none ∧ (s.driver pl).pause = none) ∧
       causeIn .reset s.safe.causes = false ∧ s.safe.resetPending = false) ∧
    (∀ x ∈ [SafeState.normal, .grace], let s := inSafe x { node with ring := { node.ring with keepalive := some 0 } }
      s.inReset = false ∧ s.ring.keepalive = some 0 ∧ s.safe.state = x) := by decide +kernel

/-- Forced work of plane A is due. -/
def tearing (s : State) : State := inSafe .teardown s

theorem witness_GraceAndKeepaliveEnd_forced :
    ((tearing (held .live)).safe.state = .teardown ∧ (tearing (legOn .driving .home rig)).driver .a ≠ Driver.reset ∧
      ((tearing (legOn .driving .home rig)).driver .a).leg ≠ none ∧ (pausing.driver .a).leg = none ∧
      (pausing.driver .a).pause ≠ none) ∧
    (∀ x ∈ [PathState.live, .settling, .closing, .failed, .forming],
      have s := tearing (held x)
      (s.driver .a).leg = none ∧ (s.driver .a).pause = none ∧ UsedOn s .a 15 ∧ (∀ q, q < 15 → ¬ UsedOn s .a q) ∧
        s.heldBanks 15 = [0] ∧ (s.bank 0).position = some .term) ∧
    (tearing (rig.setPath 15 (pathOn .closing 0))).heldBanks 15 = [] ∧
    (let s := tearing ((held .live).setBank 0 { bankOn .a with holder := some 15, position := some (.thr 0) })
     s.heldBanks 15 = [0] ∧ (s.bank 0).position ≠ some .term ∧ s.faultValid 0 .coil = false ∧
       (s.setFaults 0 1).faultValid 0 .coil = true) ∧
    (∀ x ∈ [Contact.term, .thr 0],
      have s := tearing (rig.setBank 0 { bankOn .a with position := some x, homeOwed := true })
      (∀ p, ¬ UsedOn s .a p) ∧ ForcedHomeDue s .a 0 ∧ (∀ y, y < 0 → ¬ ForcedHomeDue s .a y) ∧
        (s.bank 0).position = some x) ∧
    ((∀ p, ¬ UsedOn (tearing rig) .a p) ∧ ∀ b, ¬ ForcedHomeDue (tearing rig) .a b) ∧
    ¬ PlaneDone (workForced .b (workForced .a (tearing (rig.setBank 0 { bankOn .a with position := none, homeOwed := true })))) .a ∧
    ((∀ pl ∈ [Plane.a, .b], PlaneDone (workForced .b (workForced .a (tearing rig))) pl) ∧
      causeIn .reset (workForced .b (workForced .a (tearing rig))).safe.causes = false ∧
      (workForced .b (workForced .a (tearing rig))).safe.resetPending = false) := by
  unfold PlaneDone UsedOn ForcedHomeDue
  decide +kernel

/-- The state in TEARDOWN with the causes given and reset pending. -/
def resetTearing (causes : BitVec 5) (s : State) : State :=
  s.setSafe { SafeController.reset with state := .teardown, causes := causes, resetPending := true }

/-- Bank 0 is away from TERM, COIL valid, and owes a home or not. -/
def coilAway (owed : Bool) : State := (rig.setFaults 0 1).setBank 0 { bankOn .a with position := none, homeOwed := owed }

/-- SAFE is reached with RESET in the set or reset pending alone, other causes being left or not, and by the clearing of
RESET a bank comes to owe a home, which it owed or not, or none does. -/
theorem witness_GraceAndKeepaliveEnd_reset :
    (∀ c ∈ [(0 : BitVec 5), 8, 16, 24],
      have w := workForced .b (workForced .a (resetTearing c rig))
      (∀ pl ∈ [Plane.a, .b], PlaneDone w pl) ∧ w.safe.causes = c ∧ w.safe.resetPending = true ∧ ∀ b, ¬ ResetOwes w b) ∧
    (∀ owed ∈ [false, true],
      have w := workForced .b (workForced .a (resetTearing 24 (coilAway owed)))
      (∀ pl ∈ [Plane.a, .b], PlaneDone w pl) ∧ causeIn .reset w.safe.causes = true ∧ ResetOwes w 0) ∧
    (causeIn .reset (0 : BitVec 5) = false ∧ causeIn .reset (8 : BitVec 5) = false ∧ causeIn .reset (16 : BitVec 5) = true ∧
      (16 : BitVec 5) &&& ~~~16#5 = 0 ∧ (24 : BitVec 5) &&& ~~~16#5 ≠ 0) := by
  unfold PlaneDone UsedOn ForcedHomeDue
  decide +kernel

/-- NODE_RESET in SAFE, a bank coming to owe a home, which it owed or not. -/
theorem witness_NodeResetAndForget_owing :
    ∀ owed ∈ [false, true], (inSafe .safe (coilAway owed)).safe.state = .safe ∧ ResetOwes (inSafe .safe (coilAway owed)) 0 ∧
      ForThisNode (anon []) (inSafe .safe (coilAway owed)) := by
  unfold ForThisNode Ready
  decide +kernel

theorem witness_VisitsRun :
    (node.inReset = false ∧ node.sup.cycle = .waiting ∧ node.sup.running = true ∧ node.settings.interval ≠ 0 ∧
      ∀ b, (node.bank b).fitted = false ∨ node.inFlight b = true) ∧
    ((rig.bank 0).fitted = true ∧ rig.inFlight 0 = false ∧ ∀ x, x < 0 → (rig.bank x).fitted = false ∨ rig.inFlight x = true) ∧
    (let s := rig.setSup { rig.sup with cycle := .visiting, visit := some ⟨⟨199, 0, some .term⟩, 0⟩, position := 23 }
     s.sup.visit = some ⟨⟨199, 0, some .term⟩, 0⟩ ∧ s.sup.position = 23 ∧ (s.bank 23).fitted = false) ∧
    (let s := (rig.setSup { rig.sup with cycle := .visiting, visit := some ⟨⟨199, 0, some .term⟩, 0⟩ }).setBank 0
       { bankOn .a with lifeLimit := 1, lifeCount := 1 }
     s.sup.visit = some ⟨⟨199, 0, some .term⟩, 0⟩ ∧ s.sup.position = 0 ∧ (s.bank 0).fitted = true ∧
       s.inFlight 0 = false ∧ s.faultValid 0 .coil = false ∧ s.faultValid 0 .drift = false ∧
       s.faultValid 0 .stray = false ∧ (s.bank 0).position = some .term ∧ (s.bank 0).holder = none ∧
       (s.bank 0).lifeLimit ≠ 0 ∧ (s.bank 0).lifeLimit ≤ (s.bank 0).lifeCount) := by decide +kernel

/-- Bank 0 is held or not, the counters of its kinds stand at 1, and its visit ends with the sample given. -/
def judging (x : Sample) (h : Option Slot) (y : Settings) : State :=
  let s := (rig.setSup { rig.sup with cycle := .visiting, visit := some ⟨x, 0⟩ }).setBank 0 { bankOn .a with holder := h }
  { ((s.setCounter 0 .coil 1).setCounter 0 .drift 1).setCounter 0 .stray 1 with settings := y }

/-- A miss of each kind reaches the threshold, or is in the bypass set and the safe mask; one does not; a held bank at
TERM. -/
theorem witness_VisitsRun_judged :
    (∀ k ∈ [FaultKind.coil, .drift, .stray],
      MissMakesValid (judging ⟨199, 128, none⟩ none node.settings) 0 k ∧
      ¬ MissMakesValid ((judging ⟨199, 128, none⟩ none node.settings).setCounter 0 k 0) 0 k ∧
      MissMakesValid ((judging ⟨199, 128, none⟩ none highSettings).setCounter 0 k 0) 0 k ∧
      kindIn k (judging ⟨199, 128, none⟩ none highSettings).settings.safeMask = true) ∧
    (∀ c ∈ [(199 : BitVec 10), 801], let s := judging ⟨c, 128, none⟩ none node.settings
      (c.toNat < s.settings.coilMin ∨ s.settings.coilMax < c.toNat) ∧ s.settings.strayThreshold ≤ (128 : BitVec 10).toNat ∧
        (s.bank 0).position ≠ none ∧ (s.bank 0).position ≠ (⟨c, 128, none⟩ : Sample).reading) ∧
    (∀ c ∈ [(200 : BitVec 10), 800], ¬ (c.toNat < node.settings.coilMin ∨ node.settings.coilMax < c.toNat)) ∧
    ¬ node.settings.strayThreshold ≤ (127 : BitVec 10).toNat ∧
    (let s := judging ⟨300, 128, some .term⟩ (some 15) node.settings
     (s.bank 0).position = some .term ∧ (s.bank 0).holder ≠ none ∧ s.faultValid 0 .stray = false) := by decide +kernel

/-- A COIL miss that enters the safe state cancels the MAKE that holds the bank: STRAY is not judged (log 32). -/
theorem test_visit_end_keeps_stray_of_held :
    shows (exec .visitEnd
        ((((judging ⟨0, 1023, some .term⟩ (some 15) { node.settings with safeMask := 1 }).setPath 15 (pathOn .forming 0)).setQueue
          [making])) )
      (fun t => decide ((t.bank 0).holder = none ∧ t.counter 0 .stray = 1 ∧ t.faultValid 0 .coil = true ∧
        t.safe.state = .grace ∧ t.queue = [])) = true := by decide +kernel

/-- The visit of the bank given ends after 4 ticks, with the interval timer as given. -/
def visiting (b : BankId) (running : Bool) (elapsed : Nat) : State :=
  rig.setSup
    { rig.sup with
      cycle := .visiting, position := b, visit := some ⟨⟨300, 0, some .term⟩, 4⟩, running := running, elapsed := elapsed }

/-- The cycle goes on to a bank, or passes B23 with each state of the interval timer. -/
theorem witness_VisitsRun_cycle :
    ((visiting 0 true 9).sup.visit = some ⟨⟨300, 0, some .term⟩, 4⟩ ∧ (visiting 0 true 9).sup.position = 0 ∧
      (0 : BankId) < 2 ∧ ((visiting 0 true 9).setBank 1 BankRecord.reset |>.bank 2).fitted = true ∧
      ∀ y, 0 < y → y < 2 → (((visiting 0 true 9).setBank 1 BankRecord.reset).bank y).fitted = false) ∧
    ((visiting 0 true 9).bank 1).fitted = true ∧ (visiting 0 true 9).inFlight 1 = false ∧
    (∀ x, 23 < x → ((visiting 23 true 9).bank x).fitted = false) ∧
    (∀ x, 2 < x → ((visiting 2 true 9).bank x).fitted = false) ∧
    { visiting 23 false 0 with settings := lowSettings }.settings.interval = 0 ∧
    ((visiting 23 false 0).settings.interval ≠ 0 ∧ (visiting 23 false 0).sup.running = false) ∧
    (∀ n ∈ [0, (visiting 23 true 0).settings.interval * 100 - 5],
      ((visiting 23 true n).elapse 4).sup.elapsed < (visiting 23 true n).settings.interval * 100) ∧
    (let n := (visiting 23 true 0).settings.interval * 100 - 4
     (visiting 23 true n).settings.interval * 100 ≤ ((visiting 23 true n).elapse 4).sup.elapsed ∧
       ((visiting 23 true n).bank 0).fitted = true ∧ (visiting 23 true n).inFlight 0 = false) ∧
    ((node.setSup (visiting 23 true 9).sup).inReset = false ∧
      ∀ x, ((node.setSup (visiting 23 true 9).sup).bank x).fitted = false) := by decide +kernel

/-- P15 ends at F1, whose unseat is due. -/
def unseating (x : PathState) (y : SafeState) : State :=
  inSafe y (((rig.setBank 1 { bankOn .a with holder := some 15 }).setPath 15 (pathOn x 2)).setSeat 0 ⟨false, true, some 0⟩)

theorem witness_ChamberInputs :
    (node.inReset = false ∧ (node.chamber.seats.get 0).level = false ∧ (node.chamber.seats.get 3).level ≠ true ∧
      node.chamber.door.level = true ∧ node.chamber.door.level ≠ false) ∧
    (∀ x ∈ [true, false], ∀ y ∈ [SafeState.normal, .safe], let s := inSafe y (node.setDoor ⟨x, !x, some 0⟩)
      s.inReset = false ∧ s.chamber.door.timer = some 0 ∧ s.chamber.door.level = x ∧ s.safe.state = y) ∧
    (let s := node.setSeat 3 ⟨true, false, some 0⟩
     (s.chamber.seats.get 3).timer = some 0 ∧ (s.chamber.seats.get 3).level = true) ∧
    (∀ x ∈ [PathState.forming, .settling, .live], ∀ y ∈ [SafeState.normal, .grace], let s := unseating x y
      s.inReset = false ∧ (s.chamber.seats.get 0).timer = some 0 ∧ (s.chamber.seats.get 0).level = false ∧
        (∀ e ∈ s.queue, e.active = true) ∧ s.slotEndsAt 15 0 = true ∧ (s.path 15).state = x ∧ s.safe.state = y) := by
  decide +kernel

/-- P0 on route 2 ends at F1, made there by the entry, and the unseat of F1 is due. -/
def unseatWaiting (e : Entry) (s : State) : State :=
  ((((s.setBank 1 { bankOn .a with holder := some 0 }).setPath 0 (pathOn .forming 2)).setQueue [e]).setSeat 0
    ⟨false, true, some 0⟩)

theorem witness_ChamberInputs_waiting :
    (∀ e ∈ [{ making with new := some 0, plan := [⟨1, .thr 0, .makePart, .newSlot⟩] },
        { swapping with plan := swapPlan [⟨0, 0⟩] [⟨1, 0⟩] }],
      have s := unseatWaiting e (closing .live)
      s.inReset = false ∧ (s.chamber.seats.get 0).timer = some 0 ∧ (s.chamber.seats.get 0).level = false ∧
        s.queue = [] ++ e :: [] ∧ e.active = false ∧ e.new = some 0 ∧ s.slotEndsAt 0 0 = true ∧
        (∀ q, q ≠ 0 → s.slotEndsAt q 0 = false) ∧
        (e.kind = .makeChange ∨ (e.kind = .swapChange ∧ ∃ o : Slot, e.old = some o ∧ o ≠ 0))) ∧
    (∀ x ∈ [PriorState.live, .settling], ((closing x).path 15).route = some 0 ∧ ((closing x).path 15).prior = some x) ∧
    (let s := (unseatWaiting { swapping with origin := .sequencer .s1 } (closing .live)).setRun .s1
       { SeqRun.reset with state := .waiting, changes := [⟨.a, some 15, some 0⟩], current := ⟨some 0, none⟩ }
     (s.run .s1).changes = [⟨.a, some 15, some 0⟩] ∧ (s.run .s1).current.get .a = some 0) := by decide +kernel

theorem witness_HardwareResetStatement :
    (∀ x ∈ [true, false], let s := { node.setDoor ⟨x, true, none⟩ with inReset := true }
      s.inReset = true ∧ (∀ b, (s.bank b).fitted = false ∨ s.inFlight b = true) ∧ s.settings.interval ≠ 0 ∧
        s.chamber.door.level = x ∧ s.safe.state = .normal) ∧
    (let s := { rig with inReset := true }
     s.inReset = true ∧ (s.bank 0).fitted = true ∧ s.inFlight 0 = false ∧
       ∀ y, y < 0 → (s.bank y).fitted = false ∨ s.inFlight y = true) ∧ node.inReset = false := by decide +kernel
end Sys2Proof.Tests
end

section
/-! PROOF. The stations' claims (R111 to R113): what a map of items names, what the two requests do to the Claim Table,
and the statement on CLAIM and RELEASE. -/

namespace Sys2Proof.Machine

/-! ## The bytes of a map (R111) -/

/-- Setting the bits of a list of positions in turn sets each of them that is wanted and no other. -/
theorem getLsbD_foldl_setBit (f : Nat → Bool) (l : List Nat) (m : Byte) (i : Nat) (hi : i < 8) :
    (l.foldl (fun m j => if f j then m ||| (1#8 <<< j) else m) m).getLsbD i =
      (m.getLsbD i || (f i && decide (i ∈ l))) := by
  induction l generalizing m with
  | nil => simp
  | cons j l ih =>
    rw [List.foldl_cons, ih]
    rcases eq_or_ne i j with rfl | hij
    · cases f i <;> simp [hi]
    · have hbit : (1#8 <<< j).getLsbD i = false := by
        have hpos : i < j ∨ i - j ≠ 0 := by omega
        rcases hpos with h | h <;> simp [BitVec.getLsbD_one, h]
      cases f j <;> simp [hbit, hij]

/-- Bit `i` of a byte made by `mapByte`. -/
theorem getLsbD_mapByte (f : Nat → Bool) (i : Nat) (hi : i < 8) : (mapByte f).getLsbD i = f i := by
  unfold mapByte
  rw [getLsbD_foldl_setBit f _ _ i hi]
  simp [hi]

/-- A bank's bit stands in the byte and at the position that its number gives. -/
theorem getLsbD_bankMapBytes (f : BankId → Bool) (b : BankId) :
    ((bankMapBytes f).getD (b.1 / 8) 0).getLsbD (b.1 % 8) = f b := by
  have hbyte : (bankMapBytes f).getD (b.1 / 8) 0 = mapByte fun i => f (Fin.ofNat 24 (b.1 / 8 * 8 + i)) := by
    have hrow : b.1 / 8 = 0 ∨ b.1 / 8 = 1 ∨ b.1 / 8 = 2 := by omega
    rcases hrow with h | h | h <;> rw [h] <;> rfl
  have hbank : Fin.ofNat 24 (b.1 / 8 * 8 + b.1 % 8) = b := by
    apply Fin.ext
    simp only [Fin.val_ofNat]
    omega
  rw [hbyte, getLsbD_mapByte _ _ (by omega), hbank]

/-- A map names exactly the items it was made of. -/
@[simp] theorem itemNamed_itemMapBytes (f : Item → Bool) : itemNamed (itemMapBytes f) = f := by
  funext i
  cases i with
  | bank b =>
    have hrow : (itemMapBytes f).getD (b.1 / 8) 0 = (bankMapBytes fun b => f (.bank b)).getD (b.1 / 8) 0 :=
      List.getD_append _ _ _ _ (show b.1 / 8 < 3 by omega)
    rw [itemNamed, hrow, getLsbD_bankMapBytes]
  | fixture n =>
    have hlast : (itemMapBytes f).getD 3 0 = mapByte fun i => decide (i < 4) && f (.fixture (Fin.ofNat 4 i)) := rfl
    rw [itemNamed, hlast, getLsbD_mapByte _ _ (by omega)]
    simp

/-- The map of a set of items is a well-formed parameter of CLAIM and RELEASE (R112). -/
theorem itemMapOk_itemMapBytes (f : Item → Bool) : itemMapOk (itemMapBytes f) = true := by
  have hlast : val1 (itemMapBytes f) 3 < 2 ^ 4 := by
    apply Nat.lt_pow_two_of_testBit
    intro i hi
    by_cases h8 : i < 8
    · have hbit := getLsbD_mapByte (fun i => decide (i < 4) && f (.fixture (Fin.ofNat 4 i))) i h8
      rwa [decide_eq_false (show ¬ i < 4 by omega), Bool.false_and] at hbit
    · exact BitVec.getLsbD_of_ge _ i (by omega)
  simpa [itemMapOk] using hlast

/-- The parameters that fail the tests of R112 on length and upper bits. -/
theorem itemMapOk_eq_false_iff (ps : List Byte) : itemMapOk ps = false ↔ ps.length ≠ 4 ∨ 15 < val1 ps 3 := by
  simp only [itemMapOk, Bool.and_eq_false_iff, decide_eq_false_iff_not]
  omega

theorem stationOf_eq_none_iff (sf : Byte) : stationOf sf = none ↔ sf ≠ 1 ∧ sf ≠ 2 := by
  unfold stationOf
  split_ifs with h1 h2 <;> simp_all

/-! ## Holding and use of an item (R111, R113) -/

/-- A rewritten Claim Table gives each item what the rewriting makes of its holder. -/
theorem claimOf_mapClaims (g : Item → Option Station → Option Station) (s : State) (i : Item) :
    State.claimOf { s with claims := mapClaims g s.claims } i = g i (s.claimOf i) := by
  cases i with
  | bank b => exact vector_get_ofFn _ b
  | fixture n => exact vector_get_ofFn _ n

/-- R113: the executable test of use is use by a path of the station. -/
theorem itemInUse_iff (s : State) (st : Station) (i : Item) : itemInUse s st i = true ↔ InUseBy s st i := by
  cases i with
  | bank b =>
    unfold itemInUse InUseBy
    cases hb : (s.bank b).holder <;> simp [hb]
  | fixture n => simp [itemInUse, InUseBy, allSlots, State.slotUsed, and_assoc]

theorem itemKept_iff (s : State) (st : Station) (i : Item) :
    itemKept s st i = true ↔ s.claimOf i = some st ∧ InUseBy s st i := by
  rw [itemKept, Bool.and_eq_true, decide_eq_true_iff, itemInUse_iff]

/-! ## What the two requests leave -/

/-- R112: the station has been given each named item that no station held. -/
def withClaimed (named : Item → Bool) (st : Station) (s : State) : State :=
  { s with claims := mapClaims (fun i h => if named i && h.isNone then some st else h) s.claims }

/-- R113: each named item of the station that no path of it uses has been given up. -/
def withReleased (named : Item → Bool) (st : Station) (s : State) : State :=
  { s with
    claims :=
      mapClaims (fun i h => if named i && decide (h = some st) && !itemInUse s st i then none else h) s.claims }

theorem claimOf_withClaimed (named : Item → Bool) (st : Station) (s : State) (i : Item) :
    (withClaimed named st s).claimOf i = if named i = true ∧ s.claimOf i = none then some st else s.claimOf i := by
  rw [withClaimed, claimOf_mapClaims]
  simp

theorem claimOf_withReleased (named : Item → Bool) (st : Station) (s : State) (i : Item) :
    (withReleased named st s).claimOf i =
      if named i = true ∧ s.claimOf i = some st ∧ itemInUse s st i = false then none else s.claimOf i := by
  rw [withReleased, claimOf_mapClaims]
  simp [and_assoc]

theorem claimOf_withReleased_free {named : Item → Bool} {st : Station} {s : State} {i : Item} (hn : named i = true)
    (hc : s.claimOf i = some st) (hu : ¬ InUseBy s st i) : (withReleased named st s).claimOf i = none := by
  rw [← itemInUse_iff, Bool.not_eq_true] at hu
  rw [claimOf_withReleased, if_pos ⟨hn, hc, hu⟩]

theorem claimOf_withReleased_kept {named : Item → Bool} {st : Station} {s : State} {i : Item}
    (h : ¬ (named i = true ∧ s.claimOf i = some st ∧ ¬ InUseBy s st i)) :
    (withReleased named st s).claimOf i = s.claimOf i := by
  rw [← itemInUse_iff, Bool.not_eq_true] at h
  rw [claimOf_withReleased, if_neg h]

/-! ## The request units -/

/-- R112: CLAIM by a station with a well-formed map. -/
theorem claimUnit_ok {sf : Byte} {ps : List Byte} {st : Station} (s : State) (hst : stationOf sf = some st)
    (hps : itemMapOk ps = true) :
    claimUnit sf ps s =
      answer (heldMap (withClaimed (itemNamed ps) st s) st) (withClaimed (itemNamed ps) st s) := by
  simp [claimUnit, hst, hps, withClaimed]

/-- R113: RELEASE by a station with a well-formed map. -/
theorem releaseUnit_ok {sf : Byte} {ps : List Byte} {st : Station} (s : State) (hst : stationOf sf = some st)
    (hps : itemMapOk ps = true) :
    releaseUnit sf ps s =
      answer
        (itemMapBytes (fun i => itemNamed ps i && itemKept s st i) ++
          heldMap (withReleased (itemNamed ps) st s) st)
        (withReleased (itemNamed ps) st s) := by
  simp [releaseUnit, hst, hps, withReleased]

theorem claimUnit_refused {sf : Byte} {ps : List Byte} (s : State)
    (h : stationOf sf = none ∨ itemMapOk ps = false) : claimUnit sf ps s = refuse .eArg [0xFF] s := by
  unfold claimUnit
  cases hst : stationOf sf with
  | none => rfl
  | some st => simp [h.resolve_left (by simp [hst])]

theorem releaseUnit_refused {sf : Byte} {ps : List Byte} (s : State)
    (h : stationOf sf = none ∨ itemMapOk ps = false) : releaseUnit sf ps s = refuse .eArg [0xFF] s := by
  unfold releaseUnit
  cases hst : stationOf sf with
  | none => rfl
  | some st => simp [h.resolve_left (by simp [hst])]

/-! ## The requests -/

theorem exec_claim_answers {f : Request} {s u : State} {r : Reply} (h : ForThisNode f s)
    (hu : claimUnit f.station f.params s = (r, u)) : exec (.claim f) s = .next (answered 0x40 f r u) := by
  have hexec : exec (.claim f) s = perform (takeRequest 0x40 claimUnit f) s := rfl
  rw [hexec, takeRequest_forThisNode _ _ _ _ h, hu]

theorem exec_release_answers {f : Request} {s u : State} {r : Reply} (h : ForThisNode f s)
    (hu : releaseUnit f.station f.params s = (r, u)) : exec (.release f) s = .next (answered 0x41 f r u) := by
  have hexec : exec (.release f) s = perform (takeRequest 0x41 releaseUnit f) s := rfl
  rw [hexec, takeRequest_forThisNode _ _ _ _ h, hu]

/-- R112: CLAIM of a map of items. -/
theorem exec_claim_named {f : Request} {s : State} {st : Station} {named : Item → Bool} (h : ForThisNode f s)
    (hst : NamesStation f st) (hps : f.params = itemMapBytes named) :
    exec (.claim f) s =
      .next (answered 0x40 f ⟨.ok, heldMap (withClaimed named st s) st⟩ (withClaimed named st s)) := by
  apply exec_claim_answers h
  rw [hps, claimUnit_ok s (stationOf_named f st hst) (itemMapOk_itemMapBytes named), itemNamed_itemMapBytes]
  rfl

/-- R113: RELEASE of a map of items. -/
theorem exec_release_named {f : Request} {s : State} {st : Station} {named : Item → Bool} (h : ForThisNode f s)
    (hst : NamesStation f st) (hps : f.params = itemMapBytes named) :
    exec (.release f) s =
      .next (answered 0x41 f
        ⟨.ok, itemMapBytes (fun i => named i && itemKept s st i) ++ heldMap (withReleased named st s) st⟩
        (withReleased named st s)) := by
  apply exec_release_answers h
  rw [hps, releaseUnit_ok s (stationOf_named f st hst) (itemMapOk_itemMapBytes named), itemNamed_itemMapBytes]
  rfl

/-- Settles O47: the two requests answer as `exec_claim_named` and `exec_release_named` say, and the holder of each item
after them is that of `withClaimed` and `withReleased`. -/
theorem claimsMove : Obligations.ClaimsMove := by
  intro f s h
  refine ⟨fun st named hst hps => ⟨?claim, ?release⟩, fun hbad => ?refused⟩
  case claim =>
    exact ⟨withClaimed named st s, exec_claim_named h hst hps, rfl, claimOf_withClaimed named st s⟩
  case release =>
    refine ⟨withReleased named st s, fun i => named i && itemKept s st i, exec_release_named h hst hps, rfl,
      fun i => ?_, fun i => ⟨claimOf_withReleased_free, claimOf_withReleased_kept⟩⟩
    rw [Bool.and_eq_true, itemKept_iff]
  case refused =>
    rw [← stationOf_eq_none_iff, ← itemMapOk_eq_false_iff] at hbad
    exact ⟨exec_claim_answers h (claimUnit_refused s hbad), exec_release_answers h (releaseUnit_refused s hbad)⟩

end Sys2Proof.Machine
end

section
/-! PROOF. ENUMERATE (R154): what its delivery does in each case of the node's address and of the next address, and the
statement on it. -/

namespace Sys2Proof.Machine

/-- R150, R152: a ready part takes an ENUMERATE frame by the rule of R154. -/
theorem exec_enumerate_ready (h : Header) (next flags : Byte) {s : State} (hs : Ready s) :
    exec (.enumerate h next flags) s = .next (deliverEnumerate h next flags s).driveOutputs := by
  obtain ⟨hawake, hroom⟩ := hs
  have hexec : exec (.enumerate h next flags) s = perform (receive (deliverEnumerate h next flags)) s := rfl
  rw [hexec, perform_awake _ _ hawake, receive_ready _ _ hroom]

/-- R153: a node that has an address passes the frame on unchanged. -/
theorem deliverEnumerate_addressed (h : Header) (next flags : Byte) {s : State} (ha : s.ring.address ≠ none) :
    deliverEnumerate h next flags s = finishFrame (enumerateBytes h next flags) s := by
  obtain ⟨a, ha⟩ := Option.ne_none_iff_exists'.mp ha
  simp [deliverEnumerate, ha]

/-- R150, test 5: a next address of 0 is a bad frame whose check was good. -/
theorem deliverEnumerate_zero (h : Header) (flags : Byte) {s : State} (ha : s.ring.address = none) :
    deliverEnumerate h 0 flags s = noteBad (enumerateBytes h 0 flags) s := by
  simp [deliverEnumerate, ha]

/-- R154: an unaddressed node takes a next address of 1 to 15. -/
theorem deliverEnumerate_taken (h : Header) {next : Byte} (flags : Byte) {s : State} (ha : s.ring.address = none)
    (hpos : 1 ≤ next.toNat) (hmax : next.toNat ≤ 15) :
    deliverEnumerate h next flags s =
      finishFrame (enumerateBytes (hopped h) (next + 1) flags)
        (s.setRing { s.ring with address := some (next.setWidth 4) }) := by
  have hne : next ≠ 0 := by rintro rfl; exact absurd hpos (by decide)
  simp only [deliverEnumerate, ha, if_neg hne, if_pos hmax]

/-- R154: from a next address of 16 no address is left, and the frame says so. -/
theorem deliverEnumerate_overflow (h : Header) {next : Byte} (flags : Byte) {s : State} (ha : s.ring.address = none)
    (hmin : 16 ≤ next.toNat) :
    deliverEnumerate h next flags s = finishFrame (enumerateBytes (hopped h) next (flags ||| 1)) s := by
  have hne : next ≠ 0 := by rintro rfl; exact absurd hmin (by decide)
  have hover : ¬ next.toNat ≤ 15 := by omega
  simp only [deliverEnumerate, ha, if_neg hne, if_neg hover]

/-- Settles O55: a ready part delivers the frame, and `deliverEnumerate` does one of four things, by the node's address
and the next address. -/
theorem enumerateTaken : Obligations.EnumerateTaken := by
  intro h next flags s hs
  rw [exec_enumerate_ready h next flags hs]
  refine ⟨fun ha => ?addressed, fun ha => ⟨?zero, fun hpos hmax => ?taken, fun hmin => ?overflow⟩⟩
  case addressed => rw [deliverEnumerate_addressed h next flags ha]
  case zero =>
    rintro rfl
    rw [deliverEnumerate_zero h flags ha, noteBad]
  case taken => rw [deliverEnumerate_taken h flags ha hpos hmax]
  case overflow => rw [deliverEnumerate_overflow h flags ha hmin]

end Sys2Proof.Machine
end

section
/-! PROOF. The requests that only read (R162, R165, R168): the answer of a request that takes no parameters and leaves the
state alone, and the statement on IDENT, GET_SETTINGS and READ_EVENTS. -/

namespace Sys2Proof.Machine

/-! ## Requests without parameters -/

@[simp] theorem withoutParams_nil (s : State) (x : Reply × State) : withoutParams [] s x = x := rfl

theorem withoutParams_of_ne_nil {ps : List Byte} (hps : ps ≠ []) (s : State) (x : Reply × State) :
    withoutParams ps s x = refuse .eArg [0xFF] s := by
  have hlen : ps.length ≠ 0 := mt List.length_eq_zero_iff.mp hps
  rw [withoutParams, if_pos hlen]

/-- R156: a request of this node that takes no parameters and only reads answers its data over an unchanged state. -/
theorem takeRequest_reads (code : Byte) {u : RequestUnit} {f : Request} {s : State} {data : List Byte}
    (h : ForThisNode f s) (hu : u f.station f.params s = withoutParams f.params s (answer data s)) (hps : f.params = []) :
    perform (takeRequest code u f) s = .next (answered code f ⟨.ok, data⟩ s) := by
  rw [takeRequest_forThisNode _ _ _ _ h, hu, hps, withoutParams_nil, answer]

/-- R156: a request of this node that takes no parameters refuses any, over an unchanged state. -/
theorem takeRequest_refuses_params (code : Byte) {u : RequestUnit} {f : Request} {s : State} {x : Reply × State}
    (h : ForThisNode f s) (hu : u f.station f.params s = withoutParams f.params s x) (hps : f.params ≠ []) :
    perform (takeRequest code u f) s = .next (answered code f ⟨.eArg, [0xFF]⟩ s) := by
  rw [takeRequest_forThisNode _ _ _ _ h, hu, withoutParams_of_ne_nil hps, refuse]

/-! ## The three requests -/

theorem exec_ident (f : Request) (s : State) : exec (.ident f) s = perform (takeRequest 0x01 identUnit f) s := rfl

theorem exec_getSettings (f : Request) (s : State) :
    exec (.getSettings f) s = perform (takeRequest 0x02 getSettingsUnit f) s := rfl

theorem exec_readEvents (f : Request) (s : State) :
    exec (.readEvents f) s = perform (takeRequest 0x50 readEventsUnit f) s := rfl

/-- R162: at a node with an address, IDENT reads the part's identity with that address. -/
theorem identUnit_addressed (sf : Byte) (ps : List Byte) {s : State} {a : BitVec 4} (ha : s.ring.address = some a) :
    identUnit sf ps s =
      withoutParams ps s (answer (bytes2 6420 ++ [1, a.setWidth 8, 24, 128, 16] ++ bytes2 512 ++ [2, 4]) s) := by
  rw [identUnit, ha]
  rfl

/-- Settles O11: each of the three units reads its record under `withoutParams`, IDENT the address to which the request
came; the bytes of the settings and of the events are those of `settingsBytes` and `readEventsUnit`. -/
theorem identSettingsEventsAnswer : Obligations.IdentSettingsEventsAnswer := by
  intro f s h
  have ⟨_, _, _, haddress, _⟩ := h
  have hident := identUnit_addressed f.station f.params haddress
  rw [exec_ident, exec_getSettings, exec_readEvents]
  refine ⟨?ident, ?identParams, ?settings, ?settingsParams, ?events, ?eventsParams⟩
  case ident => exact takeRequest_reads _ h hident
  case identParams => exact takeRequest_refuses_params _ h hident
  case settings => exact takeRequest_reads _ h rfl
  case settingsParams => exact takeRequest_refuses_params _ h rfl
  case events => exact takeRequest_reads _ h rfl
  case eventsParams => exact takeRequest_refuses_params _ h rfl

end Sys2Proof.Machine
end

section
/-! PROOF. What a step is made of: the outcome of every command, an induction over a step, the reset state, and the
statements that need no more. -/

namespace Sys2Proof.Machine

/-! ## The outcome of a command (log 18) -/

/-- Every command ends with the outputs driven. -/
theorem exec_drives (c : Instr) (s : State) : ∃ u : State, exec c s = .next u.driveOutputs := by
  cases c <;> exact ⟨_, rfl⟩

/-- Settles O1: the front of a queue that is not empty decides the step. -/
theorem stepRunsFrontCommand : Obligations.StepRunsFrontCommand := fun _ _ _ => rfl

/-- Settles O3: the next state of `exec_drives`. -/
theorem everyCommandCompletes : Obligations.EveryCommandCompletes := fun c s =>
  let ⟨_, hu⟩ := exec_drives c s
  ⟨_, hu⟩

/-! ## A step with no command waiting (logs 1 to 3, 7) -/

theorem idleCommand_inReset {s : State} (h : s.inReset = true) : idleCommand s = none := by
  rw [idleCommand, if_pos h]

theorem idleCommand_eq_none {s : State} (hd : dueEvents s = []) : idleCommand s = none := by
  simp [idleCommand, hd]

/-- Of the ends that are due one is taken. -/
theorem idleCommand_mem {s : State} (h : s.inReset = false) (hd : dueEvents s ≠ []) :
    ∃ c ∈ dueEvents s, idleCommand s = some c := by
  have hpick : s.arb.pick % (dueEvents s).length < (dueEvents s).length :=
    Nat.mod_lt _ (List.length_pos_iff.mpr hd)
  refine ⟨(dueEvents s)[s.arb.pick % (dueEvents s).length], List.getElem_mem hpick, ?_⟩
  simp [idleCommand, h, List.getElem?_eq_getElem hpick]

theorem step_idle {s : State} (hq : s.pending = []) (hc : idleCommand s = none) : step s = .next (idleTick s) := by
  rw [step, hq]
  simp only [hc]

theorem step_due {s : State} {c : Instr} (hq : s.pending = []) (hc : idleCommand s = some c) :
    step s = exec c s.redraw := by
  rw [step, hq]
  simp only [hc]

/-- Settles O2: the command that `idleCommand` picks is one that is due, and it picks none where none is due and in
reset. -/
theorem emptyQueueLetsTimePass : Obligations.EmptyQueueLetsTimePass := by
  intro s hq
  refine ⟨fun hr hd => ?tick, fun hr hd => ?due, fun hr => ?reset⟩
  case tick => rw [step_idle hq (idleCommand_eq_none hd), idleTick, hr]; rfl
  case due =>
    obtain ⟨c, hmem, hc⟩ := idleCommand_mem hr hd
    exact ⟨c, hmem, step_due hq hc⟩
  case reset => rw [step_idle hq (idleCommand_inReset hr), idleTick, if_pos hr]

/-- What every command keeps from every state, and neither the queue nor a free order nor a tick breaks, every step
keeps. -/
theorem allNext_step {P : State → Prop} (hqueue : ∀ s q, P s → P { s with pending := q })
    (hdraw : ∀ s, P s → P s.redraw) (htick : ∀ s, P s → P (s.elapse 1)) (hexec : ∀ c s, P s → AllNext P (exec c s))
    (s : State) (h : P s) : AllNext P (step s) := by
  cases hq : s.pending with
  | cons c rest =>
    have hstep : step s = exec c { s with pending := rest } := by rw [step, hq]
    rw [hstep]
    exact hexec c _ (hqueue s rest h)
  | nil =>
    cases hc : idleCommand s with
    | some c =>
      rw [step_due hq hc]
      exact hexec c _ (hdraw s h)
    | none =>
      rw [step_idle hq hc]
      rintro t ⟨⟩
      unfold idleTick
      split
      · exact h
      · exact htick s h

/-! ## The outputs (R144, R171) -/

/-- Settles O5: a command drives the outputs last (`outputs_driveOutputs`), and a tick changes neither an output nor a
term of its condition. -/
theorem outputsInvariant : Obligations.OutputsInvariant := by
  refine allNext_step (fun _ _ h => h) (fun _ h => h) (fun _ h => h) fun c s _ t ht => ?command
  case command =>
    obtain ⟨u, hu⟩ := exec_drives c s
    rw [hu] at ht
    cases ht
    exact outputs_driveOutputs u

/-! ## The reset state -/

theorem settingsAdmitted_reset : SettingsAdmitted SeqSettings.reset := by
  have hzero : InRegion SeqSettings.reset 0 := by unfold InRegion; decide
  refine ⟨hzero, ?stop, hzero, ?group⟩
  case stop => intro n h; cases h
  case group => intro a b h; cases h

theorem cursorHolds_reset : CursorHolds ⟨SeqSettings.reset, SeqRun.reset⟩ :=
  ⟨settingsAdmitted_reset, fun h => absurd rfl h⟩

/-- Settles O8: each record of the reset state has its invariant. -/
theorem invariantsAtReset : Obligations.InvariantsAtReset :=
  ⟨by unfold OutputsHold; decide, by unfold RingRecordHolds; decide, ⟨trackerHolds_shut, trackerHolds_shut⟩,
    ⟨cursorHolds_reset, cursorHolds_reset⟩⟩

end Sys2Proof.Machine
end

section
/-! PROOF. What a predicate has to bear for every step to keep it, rule by rule: the frames (R150 to R160), the requests
(R161), the ends of timers, the inputs and the reset. -/

namespace Sys2Proof.Machine

/-- `P` holds of a state that takes a frame, with room in its forward list, and `Q` of every state between two commands;
each rule of the part leads from the one to the other. -/
structure KeptByRules (P Q : State → Prop) : Prop where
  room : ∀ s, Q s → s.ring.forward.length < 4 → P s
  full : ∀ s, Q s → Q (countBad s)
  finish : ∀ bytes s, P s → Q (finishFrame bytes s)
  drop : ∀ bytes s, P s → Q (dropBad bytes s)
  bad : ∀ s, P s → P (countBad s)
  clash : ∀ s, P s → P (s.raise .addressClash)
  unit : ∀ code sf ps s, P s → P (unitOf code sf ps s).2
  record : ∀ f slip s, P s → P (recordCadence f slip s.redraw)
  points : ∀ d x s, P s → ∀ u ∈ cadencePoints d x s, P u
  opened : ∀ tag planes budget s, windowOpenBad planes budget = false → P s → P (openNamed tag planes budget s)
  shut : ∀ tag s, P s → P (eachPlane (shutWindow tag) s)
  addressed : ∀ (next : Byte) s, 1 ≤ next.toNat → next.toNat ≤ 15 → P s →
    P (s.setRing { s.ring with address := some (next.setWidth 4) })
  outputs : ∀ s, Q s → Q s.driveOutputs
  sent : ∀ s, Q s → Q (sendFrame s)
  budgetEnd : ∀ p s, Q s → Q (budgetEnd p s)
  driveEnd : ∀ p s, Q s → Q (driveEnd p s)
  settleEnd : ∀ p s, Q s → Q (settleEnd p s)
  pauseEnd : ∀ p s, Q s → Q (pauseEnd p s)
  settleTimerEnd : ∀ p s, Q s → Q (settleTimerEnd p s)
  graceTimerEnd : ∀ s, Q s → Q (graceTimerEnd s)
  keepaliveEnd : ∀ s, Q s → Q (keepaliveEnd s)
  intervalEnd : ∀ s, Q s → Q (intervalEnd s)
  visitTimeEnd : ∀ s, Q s → Q (visitTimeEnd s)
  changeLevel : ∀ i c s, Q s → Q (changeLevel i c s)
  holdLevel : ∀ i c s, Q s → Q (holdLevel i c s)
  doorDebounced : ∀ s, Q s → Q (doorDebounced s)
  seatDebounced : ∀ n s, Q s → Q (seatDebounced n s)
  resetAll : ∀ s, Q s → Q (resetAll s)
  leaveReset : ∀ s, Q s → Q (leaveReset s)

namespace KeptByRules

variable {P Q : State → Prop}

theorem noteBad (k : KeptByRules P Q) (bytes : List Byte) {s : State} (h : P s) : Q (noteBad bytes s) :=
  k.finish bytes _ (k.bad s h)

/-! ## Frames (R150 to R158) -/

theorem receive (k : KeptByRules P Q) {g : State → State} (hg : ∀ s, P s → Q (g s)) {s : State} (h : Q s) :
    Q (receive g s) := by
  unfold Machine.receive
  split
  next => exact k.full s h
  next hroom => exact hg s (k.room s h (Nat.lt_of_not_le hroom))

theorem takeBroadcast (k : KeptByRules P Q) (code : Byte) (f : Request) (a : BitVec 4) {s : State} (h : P s) :
    Q (takeBroadcast code (unitOf code) f a s) := by
  unfold Machine.takeBroadcast
  split
  next => exact k.finish _ _ (k.unit code _ _ s h)
  next => exact k.finish _ s h

theorem takeAddressed (k : KeptByRules P Q) (code : Byte) (f : Request) {s : State} (h : P s) :
    Q (takeAddressed code (unitOf code) f s) := by
  unfold Machine.takeAddressed
  split
  next => exact k.finish _ _ (k.unit code _ _ s h)
  next => exact k.finish _ _ (k.clash s h)

theorem deliverRequest (k : KeptByRules P Q) (code : Byte) (f : Request) {s : State} (h : P s) :
    Q (deliverRequest code (unitOf code) f s) := by
  unfold Machine.deliverRequest
  cases s.ring.address with
  | none => exact k.finish _ s h
  | some a =>
    dsimp only
    split
    next =>
      split
      next => exact k.noteBad _ h
      next => exact k.takeBroadcast code f a h
    next =>
      split
      next => exact k.takeAddressed code f h
      next => exact k.finish _ s h

theorem takeRequest (k : KeptByRules P Q) (code : Byte) (f : Request) {s : State} (h : Q s) :
    Q (takeRequest code (unitOf code) f s) := by
  refine k.receive (fun s h => ?_) h
  split
  next => exact k.drop _ s h
  next =>
    split
    next => exact k.noteBad _ h
    next => exact k.deliverRequest code f h

theorem cadenceTurns (k : KeptByRules P Q) (f : CadenceFrame) (a : BitVec 4) (d : Nat) (x : Arb) {s : State}
    (h : P s) : P (cadenceTurns f a d x s).2 := by
  have hlast : (cadencePoints d x s).getLastD s ∈ s :: cadencePoints d x s := List.getLastD_mem_cons
  show P ((cadencePoints d x s).getLastD s)
  rcases List.mem_cons.mp hlast with heq | hmem
  · rw [heq]
    exact h
  · exact k.points d x s h _ hmem

theorem deliverCadence (k : KeptByRules P Q) (f : CadenceFrame) {s : State} (h : P s) : Q (deliverCadence f s) := by
  unfold Machine.deliverCadence
  cases s.ring.address with
  | none => exact k.finish _ s h
  | some a => exact k.finish _ _ (k.cadenceTurns _ _ _ _ (k.record f _ s h))

theorem deliverWindowOpen (k : KeptByRules P Q) (hd : Header) (tag planes : Byte) (budget : Word16) {s : State}
    (h : P s) : Q (deliverWindowOpen hd tag planes budget s) := by
  unfold Machine.deliverWindowOpen
  cases s.ring.address with
  | none => exact k.finish _ s h
  | some a =>
    dsimp only
    split
    next => exact k.noteBad _ h
    next hgood => exact k.finish _ _ (k.opened tag planes budget s (Bool.eq_false_of_not_eq_true hgood) h)

theorem deliverWindowShut (k : KeptByRules P Q) (hd : Header) (tag : Byte) {s : State} (h : P s) :
    Q (deliverWindowShut hd tag s) := by
  unfold Machine.deliverWindowShut
  cases s.ring.address with
  | none => exact k.finish _ s h
  | some a => exact k.finish _ _ (k.shut tag s h)

theorem deliverEnumerate (k : KeptByRules P Q) (hd : Header) (next flags : Byte) {s : State} (h : P s) :
    Q (deliverEnumerate hd next flags s) := by
  cases ha : s.ring.address with
  | some a =>
    rw [deliverEnumerate_addressed hd next flags (by rw [ha]; exact Option.some_ne_none a)]
    exact k.finish _ s h
  | none =>
    by_cases hzero : next = 0
    · subst hzero
      rw [deliverEnumerate_zero hd flags ha]
      exact k.noteBad _ h
    · have hpos : 1 ≤ next.toNat := Nat.pos_of_ne_zero fun h0 => hzero (BitVec.eq_of_toNat_eq h0)
      by_cases hmax : next.toNat ≤ 15
      · rw [deliverEnumerate_taken hd flags ha hpos hmax]
        exact k.finish _ _ (k.addressed next s hpos hmax h)
      · rw [deliverEnumerate_overflow hd flags ha (Nat.lt_of_not_le hmax)]
        exact k.finish _ s h

theorem deliverBytes (k : KeptByRules P Q) (bytes : List Byte) {s : State} (h : P s) : Q (deliverBytes bytes s) := by
  unfold Machine.deliverBytes
  dsimp only
  split
  next =>
    split
    next => exact k.deliverCadence _ h
    next => exact k.noteBad _ h
  next =>
    split
    next => exact k.deliverWindowOpen _ _ _ _ h
    next => exact k.noteBad _ h
  next =>
    split
    next => exact k.deliverWindowShut _ _ h
    next => exact k.noteBad _ h
  next =>
    split
    next => exact k.deliverRequest _ _ h
    next => exact k.noteBad _ h
  next =>
    split
    next => exact k.deliverEnumerate _ _ _ h
    next => exact k.noteBad _ h
  next => exact k.finish _ s h

theorem receiveBytes (k : KeptByRules P Q) (bytes : List Byte) {s : State} (h : Q s) : Q (receiveBytes bytes s) := by
  refine k.receive (fun s h => ?_) h
  split
  next => exact k.deliverBytes bytes h
  next => exact k.drop bytes s h

/-! ## Commands and steps -/

theorem perform (k : KeptByRules P Q) {g : State → State} (hg : ∀ s, Q s → Q (g s)) {s : State} (h : Q s) :
    AllNext Q (perform g s) := by
  rintro t ⟨⟩
  refine k.outputs _ ?_
  split
  next => exact h
  next => exact hg s h

theorem request (k : KeptByRules P Q) (code : Byte) (f : Request) {s : State} (h : Q s) :
    AllNext Q (Machine.perform (Machine.takeRequest code (unitOf code) f) s) :=
  k.perform (fun _ h => k.takeRequest code f h) h

/-- Every command keeps `Q`. -/
theorem exec (k : KeptByRules P Q) (c : Instr) (s : State) (h : Q s) : AllNext Q (exec c s) := by
  cases c with
  | ident f => exact k.request 0x01 f h
  | getSettings f => exact k.request 0x02 f h
  | setSettings f => exact k.request 0x03 f h
  | loadBank f => exact k.request 0x10 f h
  | readBank f => exact k.request 0x11 f h
  | loadRoute f => exact k.request 0x12 f h
  | readRoute f => exact k.request 0x13 f h
  | loadSteps f => exact k.request 0x14 f h
  | readSteps f => exact k.request 0x15 f h
  | openPath f => exact k.request 0x20 f h
  | closePath f => exact k.request 0x21 f h
  | swapPath f => exact k.request 0x22 f h
  | cancelChange f => exact k.request 0x23 f h
  | readPaths f => exact k.request 0x24 f h
  | readQueue f => exact k.request 0x25 f h
  | setSequencer f => exact k.request 0x30 f h
  | readSequencer f => exact k.request 0x31 f h
  | seqRun f => exact k.request 0x32 f h
  | seqHold f => exact k.request 0x33 f h
  | seqResume f => exact k.request 0x34 f h
  | seqStop f => exact k.request 0x35 f h
  | armDivert f => exact k.request 0x36 f h
  | claim f => exact k.request 0x40 f h
  | release f => exact k.request 0x41 f h
  | readClaims f => exact k.request 0x42 f h
  | readEvents f => exact k.request 0x50 f h
  | clearEvents f => exact k.request 0x51 f h
  | readFaults f => exact k.request 0x52 f h
  | clearFaults f => exact k.request 0x53 f h
  | safeEnter f => exact k.request 0x60 f h
  | safeExit f => exact k.request 0x61 f h
  | nodeReset f => exact k.request 0x62 f h
  | forget f => exact k.request 0x63 f h
  | eUnknown code f => exact k.request code f h
  | requestOtherDestination code f => exact k.request code f h
  | addressClash code f => exact k.request code f h
  | cadence f => exact k.perform (fun _ h => k.receive (fun _ h => k.deliverCadence f h) h) h
  | windowOpen hd tag planes budget =>
    exact k.perform (fun _ h => k.receive (fun _ h => k.deliverWindowOpen hd tag planes budget h) h) h
  | windowShut hd tag => exact k.perform (fun _ h => k.receive (fun _ h => k.deliverWindowShut hd tag h) h) h
  | enumerate hd next flags =>
    exact k.perform (fun _ h => k.receive (fun _ h => k.deliverEnumerate hd next flags h) h) h
  | badFrame bytes => exact k.perform (fun _ h => k.receiveBytes bytes h) h
  | unknownFrame bytes => exact k.perform (fun _ h => k.receiveBytes bytes h) h
  | forwardListFull bytes => exact k.perform (fun _ h => k.receiveBytes bytes h) h
  | forwardFrameSent => exact k.perform k.sent h
  | windowBudgetEnd p => exact k.perform (k.budgetEnd p) h
  | legDriveEnd p => exact k.perform (k.driveEnd p) h
  | legReadback p => exact k.perform (k.settleEnd p) h
  | forcedPauseEnd p => exact k.perform (k.pauseEnd p) h
  | pathSettleTimerEnd p => exact k.perform (k.settleTimerEnd p) h
  | graceEnd => exact k.perform k.graceTimerEnd h
  | keepaliveExpiry => exact k.perform k.keepaliveEnd h
  | visitCycleStart => exact k.perform k.intervalEnd h
  | visitEnd => exact k.perform k.visitTimeEnd h
  | inputLevelChange i c =>
    rintro t ⟨⟩
    refine k.outputs _ ?_
    split
    next => exact k.holdLevel i c s h
    next => exact k.changeLevel i c s h
  | doorDebouncedChange => exact k.perform k.doorDebounced h
  | seatDebouncedChange n => exact k.perform (k.seatDebounced n) h
  | hardwareReset =>
    rintro t ⟨⟩
    exact k.outputs _ (k.resetAll s h)
  | hardwareResetEnd =>
    rintro t ⟨⟩
    refine k.outputs _ ?_
    split
    next => exact k.leaveReset s h
    next => exact h

end KeptByRules

end Sys2Proof.Machine
end

section
/-! PROOF. The Ring Interface: the work of the drivers, the paths, the sequencers, the faults and the visits never
writes it; of the Safe Controller's work only the clearing of NODE_RESET does, which sets the bad-frame count to 0
(R147). One lemma per shared operation. -/

namespace Sys2Proof.Machine


theorem ring_foldl {α : Type} (f : State → α → State) (h : ∀ s x, (f s x).ring = s.ring) (xs : List α) (s : State) :
    (xs.foldl f s).ring = s.ring := by
  induction xs generalizing s with
  | nil => rfl
  | cons x xs ih => rw [List.foldl_cons, ih, h]

@[simp] theorem ring_eachPlane (f : Plane → State → State) (h : ∀ p s, (f p s).ring = s.ring) (s : State) :
    (eachPlane f s).ring = s.ring := by
  unfold eachPlane
  split <;> simp [h]

@[simp] theorem ring_freeSlot (s : State) (p : Slot) : (freeSlot p s).ring = s.ring := by
  simp [freeSlot]

@[simp] theorem ring_placeMake (s : State) (st : Station) (org : ChangeOrigin) (r : RouteId) (p : Slot) :
    (placeMake s st org r p).ring = s.ring := by
  simp [placeMake]

@[simp] theorem ring_placeSwap (s : State) (st : Station) (org : ChangeOrigin) (o : Slot) (r : RouteId) (p : Slot) :
    (placeSwap s st org o r p).ring = s.ring := by
  simp [placeSwap]

@[simp] theorem ring_acceptBreak (s : State) (p : Slot) (org : ChangeOrigin) (x : Option PriorState) :
    (acceptBreak p org x s).ring = s.ring := by
  simp [acceptBreak]

@[simp] theorem ring_goLive (s : State) (p : Slot) : (goLive p s).ring = s.ring := by
  simp [goLive]

@[simp] theorem ring_startSettling (s : State) (p : Slot) : (startSettling p s).ring = s.ring := by
  unfold startSettling
  split <;> simp

@[simp] theorem ring_failSlot (s : State) (p : Slot) (why : FailReason) : (failSlot p why s).ring = s.ring := by
  unfold failSlot
  simp only
  split <;> simp

@[simp] theorem ring_notifyEnded (s : State) (e : Entry) (c : Bool) : (notifyEnded e c s).ring = s.ring := by
  unfold notifyEnded
  split <;> simp

@[simp] theorem ring_clearHeld (s : State) (pl : Plane) : (clearHeld pl s).ring = s.ring := by
  simp [clearHeld]

@[simp] theorem ring_removeEntry (s : State) (e : Entry) : (removeEntry e s).ring = s.ring := by
  unfold removeEntry
  split <;> simp

@[simp] theorem ring_applyCloseOwed (s : State) (p : Slot) : (applyCloseOwed p s).ring = s.ring := by
  unfold applyCloseOwed
  simp only
  split <;> simp

@[simp] theorem ring_settleFormed (s : State) (p : Slot) : (settleFormed p s).ring = s.ring := by
  unfold settleFormed
  simp only
  split <;> simp

@[simp] theorem ring_freeOpt (s : State) (p : Option Slot) : (freeOpt p s).ring = s.ring := by
  unfold freeOpt
  split <;> simp

@[simp] theorem ring_completeEntry (s : State) (e : Entry) : (completeEntry e s).ring = s.ring := by
  unfold completeEntry
  split <;> simp

@[simp] theorem ring_failPaths (s : State) (e : Entry) : (failPaths e s).ring = s.ring := by
  unfold failPaths
  repeat' split
  all_goals simp

@[simp] theorem ring_recordFailure (s : State) (e : Entry) (why : EntryFailure) (b : Option BankId)
    (r : Option RouteId) : (recordFailure e why b r s).ring = s.ring := by
  rfl

@[simp] theorem ring_failEntry (s : State) (e : Entry) (why : EntryFailure) (b : Option BankId) :
    (failEntry e why b s).ring = s.ring := by
  unfold failEntry
  split <;> simp

@[simp] theorem ring_returnBanks (s : State) (o n : Slot) : (returnBanks o n s).ring = s.ring := by
  simp [returnBanks]

@[simp] theorem ring_undoAcceptance (s : State) (e : Entry) : (undoAcceptance e s).ring = s.ring := by
  unfold undoAcceptance
  split <;> simp

@[simp] theorem ring_cancelEntry (s : State) (e : Entry) : (cancelEntry e s).ring = s.ring := by
  simp [cancelEntry]

@[simp] theorem ring_cancelAll (s : State) (es : List Entry) : (cancelAll es s).ring = s.ring := by
  exact ring_foldl _ (fun s e => ring_cancelEntry s e) es s

@[simp] theorem ring_convertSwap (s : State) (e : Entry) (o n : Slot) : (convertSwap e o n s).ring = s.ring := by
  unfold convertSwap
  simp only
  repeat' split
  all_goals simp

@[simp] theorem ring_failIdleHead (s : State) (pl : Plane) : (failIdleHead pl s).ring = s.ring := by
  unfold failIdleHead
  repeat' split
  all_goals simp

@[simp] theorem ring_enterGrace (s : State) : (enterGrace s).ring = s.ring := by
  simp [enterGrace]

@[simp] theorem ring_addCause (s : State) (c : SafeCause) : (addCause c s).ring = s.ring := by
  unfold addCause
  split <;> simp

@[simp] theorem ring_removeCause (s : State) (c : SafeCause) : (removeCause c s).ring = s.ring := by
  simp [removeCause]

@[simp] theorem ring_failHolder (s : State) (b : BankId) (k : FaultKind) : (failHolder b k s).ring = s.ring := by
  unfold failHolder
  simp only
  repeat' split
  all_goals simp

@[simp] theorem ring_becomeValid (s : State) (b : BankId) (k : FaultKind) : (becomeValid b k s).ring = s.ring := by
  unfold becomeValid
  simp only
  split <;> simp

@[simp] theorem ring_takePass (s : State) (b : BankId) (k : FaultKind) : (takePass b k s).ring = s.ring := by
  unfold takePass
  split <;> simp

@[simp] theorem ring_takeMiss (s : State) (b : BankId) (k : FaultKind) : (takeMiss b k s).ring = s.ring := by
  unfold takeMiss
  simp only
  repeat' split
  all_goals simp

@[simp] theorem ring_reportWorn (s : State) (b : BankId) : (reportWorn b s).ring = s.ring := by
  unfold reportWorn
  split <;> simp

@[simp] theorem ring_updateEntry (s : State) (e e' : Entry) : (updateEntry e e' s).ring = s.ring := by
  simp [updateEntry]

@[simp] theorem ring_addLegDone (s : State) (p : Slot) : (addLegDone p s).ring = s.ring := by
  simp [addLegDone]

@[simp] theorem ring_afterLeg (s : State) (e : Entry) : (afterLeg e s).ring = s.ring := by
  unfold afterLeg
  repeat' split
  all_goals simp

@[simp] theorem ring_endLeg (s : State) (e : Entry) (l : PlanLeg) : (endLeg e l s).ring = s.ring := by
  unfold endLeg
  split <;> simp

@[simp] theorem ring_deferHot (s : State) (b : BankId) : (deferHot b s).ring = s.ring := by
  simp [deferHot]

@[simp] theorem ring_holdLeg (s : State) (pl : Plane) (l : PlanLeg) (w : WaitReason) :
    (holdLeg pl l w s).ring = s.ring := by
  simp [holdLeg]

@[simp] theorem ring_passHome (s : State) (pl : Plane) (b : BankId) : (passHome pl b s).ring = s.ring := by
  simp [passHome]

@[simp] theorem ring_startLeg (s : State) (pl : Plane) (l : FlightLeg) : (startLeg pl l s).ring = s.ring := by
  unfold startLeg
  split <;> simp

@[simp] theorem ring_startEntryLeg (s : State) (pl : Plane) (e : Entry) (l : PlanLeg) :
    (startEntryLeg pl e l s).ring = s.ring := by
  unfold startEntryLeg
  split <;> simp

@[simp] theorem ring_meetHot (s : State) (pl : Plane) (e : Entry) (l : PlanLeg) :
    ((meetHot pl e l s).2).ring = s.ring := by
  unfold meetHot
  simp only
  repeat' split
  all_goals simp

@[simp] theorem ring_checkLeg (s : State) (pl : Plane) (e : Entry) (l : PlanLeg) :
    ((checkLeg pl e l s).2).ring = s.ring := by
  unfold checkLeg
  repeat' split
  all_goals simp

@[simp] theorem ring_takeLeg (s : State) (pl : Plane) (e : Entry) (l : PlanLeg) :
    ((takeLeg pl e l s).2).ring = s.ring := by
  unfold takeLeg
  repeat' split
  all_goals simp

@[simp] theorem ring_takeEntry (s : State) (pl : Plane) (e : Entry) : ((takeEntry pl e s).2).ring = s.ring := by
  unfold takeEntry
  split <;> simp

@[simp] theorem ring_takeHome (s : State) (pl : Plane) (b : BankId) : ((takeHome pl b s).2).ring = s.ring := by
  unfold takeHome
  repeat' split
  all_goals simp

@[simp] theorem ring_chooseOnce (s : State) (pl : Plane) : ((chooseOnce pl s).2).ring = s.ring := by
  unfold chooseOnce
  repeat' split
  all_goals simp

@[simp] theorem ring_chooseLoop (s : State) (pl : Plane) (n : Nat) : (chooseLoop pl n s).ring = s.ring := by
  induction n generalizing s with
  | zero => rfl
  | succ n ih =>
    unfold chooseLoop
    split
    · have h := ring_chooseOnce s pl
      split <;> simp_all
    · rfl

@[simp] theorem ring_choosePlane (s : State) (pl : Plane) : (choosePlane pl s).ring = s.ring := by
  simp [choosePlane]

@[simp] theorem ring_chooseBoth (s : State) : (chooseBoth s).ring = s.ring := by
  unfold chooseBoth
  split <;> simp

@[simp] theorem ring_closeForced (s : State) (p : Slot) : (closeForced p s).ring = s.ring := by
  unfold closeForced
  simp only
  split <;> simp

@[simp] theorem ring_endForcedBreak (s : State) (p : Slot) (b : BankId) : (endForcedBreak p b s).ring = s.ring := by
  unfold endForcedBreak
  simp only
  repeat' split
  all_goals simp

@[simp] theorem ring_takeForcedBreak (s : State) (pl : Plane) (p : Slot) (b : BankId) :
    ((takeForcedBreak pl p b s).2).ring = s.ring := by
  unfold takeForcedBreak
  repeat' split
  all_goals simp

@[simp] theorem ring_forcedOnce (s : State) (pl : Plane) : ((forcedOnce pl s).2).ring = s.ring := by
  unfold forcedOnce
  simp only
  repeat' split
  all_goals simp

@[simp] theorem ring_forcedLoop (s : State) (pl : Plane) (n : Nat) : (forcedLoop pl n s).ring = s.ring := by
  induction n generalizing s with
  | zero => rfl
  | succ n ih =>
    unfold forcedLoop
    have h := ring_forcedOnce s pl
    split <;> simp_all

@[simp] theorem ring_workForced (s : State) (pl : Plane) : (workForced pl s).ring = s.ring := by
  unfold workForced
  simp only
  repeat' split
  all_goals simp

@[simp] theorem ring_finishReset (s : State) : (finishReset s).ring = s.ring := by
  unfold finishReset
  simp only
  split <;> simp

@[simp] theorem ring_owedInSafe (s : State) : (owedInSafe s).ring = s.ring := by
  unfold owedInSafe
  split <;> simp

@[simp] theorem ring_restDriver (s : State) (pl : Plane) : (restDriver pl s).ring = s.ring := by
  simp [restDriver]

@[simp] theorem ring_recordMatch (s : State) (l : FlightLeg) : (recordMatch l s).ring = s.ring := by
  simp [recordMatch]

@[simp] theorem ring_failSafeHead (s : State) (pl : Plane) (b : BankId) : (failSafeHead pl b s).ring = s.ring := by
  unfold failSafeHead
  repeat' split
  all_goals simp

@[simp] theorem ring_endMatched (s : State) (pl : Plane) (l : FlightLeg) : (endMatched pl l s).ring = s.ring := by
  unfold endMatched
  repeat' split
  all_goals simp

@[simp] theorem ring_endMismatched (s : State) (pl : Plane) (l : FlightLeg) :
    (endMismatched pl l s).ring = s.ring := by
  unfold endMismatched
  repeat' split
  all_goals simp

@[simp] theorem ring_noteOverrun (s : State) (pl : Plane) : (noteOverrun pl s).ring = s.ring := by
  unfold noteOverrun
  simp only
  split
  · split <;> rfl
  · rfl

@[simp] theorem ring_faultSeq (s : State) (st : Station) (pl : Option Plane) (why : SeqFaultReason) :
    (faultSeq st pl why s).ring = s.ring := by
  simp [faultSeq]

@[simp] theorem ring_takeAccepted (s : State) (st : Station) (pl : Plane) (o n : Option Slot) :
    (takeAccepted st pl o n s).ring = s.ring := by
  simp [takeAccepted]

theorem ring_acceptMake (s s' : State) (st : Station) (org : ChangeOrigin) (r : RouteId) (p : Slot)
    (h : acceptMake s st org r = .ok (p, s')) : s'.ring = s.ring := by
  unfold acceptMake at h
  split at h
  · cases h
  · split at h
    · cases h
    · cases h; simp

theorem ring_acceptSwap (s s' : State) (st : Station) (org : ChangeOrigin) (o : Slot) (r : RouteId) (p : Slot)
    (h : acceptSwap s st org o r = .ok (p, s')) : s'.ring = s.ring := by
  unfold acceptSwap at h
  split at h
  · cases h
  · split at h
    · cases h
    · split at h
      · cases h
      · cases h; simp

@[simp] theorem ring_askMake (s : State) (st : Station) (pl : Plane) (r : RouteId) :
    ((askMake st pl r s).2).ring = s.ring := by
  unfold askMake
  split
  · rename_i h; rw [ring_takeAccepted]; exact ring_acceptMake s _ st _ r _ h
  · rfl

@[simp] theorem ring_askSwap (s : State) (st : Station) (pl : Plane) (r : RouteId) :
    ((askSwap st pl r s).2).ring = s.ring := by
  unfold askSwap
  split
  · rfl
  · split
    · rename_i h; rw [ring_takeAccepted]; exact ring_acceptSwap s _ st _ _ r _ h
    · rfl

@[simp] theorem ring_askBreak (s : State) (st : Station) (pl : Plane) (o : Slot) :
    ((askBreak st pl o s).2).ring = s.ring := by
  simp [askBreak]

@[simp] theorem ring_evalRoute (s : State) (st : Station) (pl : Plane) (r : RouteId) :
    ((evalRoute st pl r s).2).ring = s.ring := by
  unfold evalRoute
  repeat' split
  all_goals simp

@[simp] theorem ring_evalClear (s : State) (st : Station) (pl : Plane) : ((evalClear st pl s).2).ring = s.ring := by
  unfold evalClear
  repeat' split
  all_goals simp

@[simp] theorem ring_evalPlane (s : State) (st : Station) (pl : Plane) : ((evalPlane st pl s).2).ring = s.ring := by
  unfold evalPlane
  simp only
  repeat' split
  all_goals simp

theorem ring_writeOutcome (st : Station) (pl : Plane) (x : PlaneOutcome × State) :
    (writeOutcome st pl x).2.ring = x.2.ring := by
  obtain ⟨o, s⟩ := x
  cases o <;> simp [writeOutcome]

@[simp] theorem ring_evalJump (s : State) (st : Station) (n : StepId) : ((evalJump st n s).2).ring = s.ring := by
  unfold evalJump
  simp only
  repeat' split
  all_goals simp

@[simp] theorem ring_settleSeq (s : State) (st : Station) : (settleSeq st s).ring = s.ring := by
  unfold settleSeq
  simp only
  repeat' split
  all_goals simp

@[simp] theorem ring_arriveAt (s : State) (st : Station) (n : StepId) (lb : Bool) :
    (arriveAt st n lb s).ring = s.ring := by
  unfold arriveAt
  simp only
  split <;> simp

@[simp] theorem ring_settleUnlessFaulted (st : Station) (y : Bool × State) :
    (settleUnlessFaulted st y).ring = y.2.ring := by
  obtain ⟨b, s⟩ := y
  cases b <;> simp [settleUnlessFaulted]

@[simp] theorem ring_arriveA (s : State) (st : Station) (n : StepId) (lb : Bool) :
    ((arriveA st n lb s).2).ring = s.ring := by
  unfold arriveA
  simp only
  split
  · simp
  · have h := ring_writeOutcome st .a (evalPlane st .a (arriveAt st n lb s))
    rw [ring_evalPlane, ring_arriveAt] at h
    split <;> simp_all

@[simp] theorem ring_retryPlane (s : State) (st : Station) (pl : Plane) : ((retryPlane st pl s).2).ring = s.ring := by
  unfold retryPlane
  simp only
  split
  · rename_i call x _ _
    have h : ∀ y : PlaneOutcome × State, y.2.ring = s.ring →
        (match y with
         | (.applied, s1) => (false, s1.setRun st { s1.run st with stalled := (s1.run st).stalled.set pl none })
         | (.faulted why, s1) => (true, faultSeq st (some pl) why s1)
         | (_, s1) => (false, s1) : Bool × State).2.ring = s.ring := by
      rintro ⟨o, s1⟩ hy
      cases o <;> simpa using hy
    cases call
    · exact h _ (ring_askMake s st pl x)
    · exact h _ (ring_askSwap s st pl x)
  · rfl

@[simp] theorem ring_afterRetry (s : State) (st : Station) : (afterRetry st s).ring = s.ring := by
  unfold afterRetry
  simp only
  repeat' split
  all_goals simp

@[simp] theorem ring_retryA (s : State) (st : Station) : ((retryA st s).2).ring = s.ring := by
  unfold retryA
  have h := ring_retryPlane s st .a
  split <;> simp_all

@[simp] theorem ring_finishTurn (st : Station) (y : TurnRest × State) : (finishTurn st y).ring = y.2.ring := by
  obtain ⟨r, s⟩ := y
  cases r
  · rfl
  · simp [finishTurn, ring_writeOutcome]
  · have h := ring_retryPlane s st .b
    unfold finishTurn
    simp only
    split <;> simp_all

@[simp] theorem ring_arrive (s : State) (st : Station) (n : StepId) (lb : Bool) :
    (arrive st n lb s).ring = s.ring := by
  simp [arrive]

@[simp] theorem ring_endStepA (s : State) (st : Station) : ((endStepA st s).2).ring = s.ring := by
  unfold endStepA
  repeat' split
  all_goals simp

@[simp] theorem ring_endStep (s : State) (st : Station) : (endStep st s).ring = s.ring := by
  simp [endStep]

@[simp] theorem ring_takeCadenceA (s : State) (d : Nat) (st : Station) : ((takeCadenceA d st s).2).ring = s.ring := by
  unfold takeCadenceA
  simp only
  repeat' split
  all_goals simp

@[simp] theorem ring_takeCadence (s : State) (d : Nat) (st : Station) : (takeCadence d st s).ring = s.ring := by
  simp [takeCadence]

@[simp] theorem ring_startSeq (s : State) (st : Station) : (startSeq st s).ring = s.ring := by
  simp [startSeq]

@[simp] theorem ring_resumeSeq (s : State) (st : Station) : (resumeSeq st s).ring = s.ring := by
  unfold resumeSeq
  simp only
  repeat' split
  all_goals simp

@[simp] theorem ring_stopSeq (s : State) (st : Station) : (stopSeq st s).ring = s.ring := by
  simp [stopSeq]

@[simp] theorem ring_startVisit (s : State) (b : BankId) : (startVisit b s).ring = s.ring := by
  simp [startVisit]

@[simp] theorem ring_endCycle (s : State) : (endCycle s).ring = s.ring := by
  unfold endCycle
  simp only
  repeat' split
  all_goals simp

@[simp] theorem ring_seekVisit (s : State) (n : Nat) : (seekVisit n s).ring = s.ring := by
  unfold seekVisit
  split <;> simp

@[simp] theorem ring_startCycle (s : State) : (startCycle s).ring = s.ring := by
  simp [startCycle]

@[simp] theorem ring_checkCoil (s : State) (b : BankId) (x : Sample) : (checkCoil b x s).ring = s.ring := by
  unfold checkCoil
  split <;> simp

@[simp] theorem ring_checkDrift (s : State) (b : BankId) (r : BankRecord) (x : Sample) :
    (checkDrift b r x s).ring = s.ring := by
  unfold checkDrift
  repeat' split
  all_goals simp

@[simp] theorem ring_checkStray (s : State) (b : BankId) (r : BankRecord) (x : Sample) :
    (checkStray b r x s).ring = s.ring := by
  unfold checkStray
  repeat' split
  all_goals simp

@[simp] theorem ring_keepSample (s : State) (b : BankId) (x : Sample) : (keepSample b x s).ring = s.ring := by
  simp [keepSample]

@[simp] theorem ring_judgeVisit (s : State) (b : BankId) (x : Sample) : (judgeVisit b x s).ring = s.ring := by
  unfold judgeVisit
  split <;> simp

@[simp] theorem ring_endVisit (s : State) : (endVisit s).ring = s.ring := by
  unfold endVisit
  simp only
  repeat' split
  all_goals simp

@[simp] theorem ring_retimeVisits (s : State) : (retimeVisits s).ring = s.ring := by
  unfold retimeVisits
  repeat' split
  all_goals simp

@[simp] theorem ring_openWindow (s : State) (tag : Byte) (n : Nat) (pl : Plane) :
    (openWindow tag n pl s).ring = s.ring := by
  unfold openWindow
  simp only
  split <;> simp

@[simp] theorem ring_closeWindow (s : State) (pl : Plane) : (closeWindow pl s).ring = s.ring := by
  simp [closeWindow]

@[simp] theorem ring_endDrive (s : State) (pl : Plane) : (endDrive pl s).ring = s.ring := by
  unfold endDrive
  simp only
  repeat' split
  all_goals simp


/-! ## The clearing of NODE_RESET (R147) and what can lead to it -/

/-- R148, R152: the Ring Interface record, with at most `n` frames in the forward list. -/
def RingWithin (n : Nat) (s : State) : Prop :=
  s.ring.badFrames ≤ 255 ∧ s.ring.forward.length ≤ n ∧ s.ring.address ≠ some 0

theorem ringRecordHolds_iff (s : State) : RingRecordHolds s ↔ RingWithin 4 s := Iff.rfl

theorem ringWithin_of_ring {n : Nat} {s t : State} (h : t.ring = s.ring) (hs : RingWithin n s) : RingWithin n t := by
  rw [RingWithin, h]
  exact hs

theorem ring_clearWorking (s : State) : (clearWorking s).ring = { s.ring with badFrames := 0 } := by
  rw [clearWorking_eq]
  rfl

theorem ringWithin_clearWorking {n : Nat} {s : State} (h : RingWithin n s) : RingWithin n (clearWorking s) := by
  rw [RingWithin, ring_clearWorking]
  exact ⟨Nat.zero_le _, h.2⟩

theorem ringWithin_clearing {n : Nat} {s : State} (h : RingWithin n s) : RingWithin n (clearing s) := by
  unfold clearing
  dsimp only
  split
  next => exact ringWithin_of_ring (by simp) (ringWithin_clearWorking h)
  next => exact ringWithin_of_ring (by simp) (ringWithin_clearWorking h)

theorem ringWithin_reachSafe {n : Nat} {s : State} (h : RingWithin n s) : RingWithin n (reachSafe s) := by
  unfold reachSafe
  dsimp only
  split
  next => exact ringWithin_clearing h
  next =>
    split
    next => exact ringWithin_of_ring (ring_finishReset _) h
    next => exact h

theorem ringWithin_settleTeardown {n : Nat} {s : State} (h : RingWithin n s) : RingWithin n (settleTeardown s) := by
  have hwork : RingWithin n (workForced .b (workForced .a s)) := ringWithin_of_ring (by simp) h
  unfold settleTeardown
  dsimp only
  split
  next => exact ringWithin_reachSafe hwork
  next => exact hwork

theorem ringWithin_react {n : Nat} {s : State} (h : RingWithin n s) : RingWithin n (react s) := by
  unfold react
  split
  next => exact ringWithin_of_ring (by simp) h
  next => exact ringWithin_settleTeardown h
  next => exact h
  next => exact h

theorem ringWithin_takeReadback {n : Nat} {s : State} (pl : Plane) (h : RingWithin n s) :
    RingWithin n (takeReadback pl s) := by
  unfold takeReadback
  split
  next =>
    dsimp only
    split
    next => exact ringWithin_react (ringWithin_of_ring (by simp) h)
    next => exact ringWithin_react (ringWithin_of_ring (by simp) h)
  next => exact h

theorem ringWithin_endPause {n : Nat} {s : State} (pl : Plane) (h : RingWithin n s) :
    RingWithin n (endPause pl s) := by
  unfold endPause
  split
  next => exact h
  next x _ =>
    dsimp only
    split
    next p _ =>
      split
      next =>
        have hring := ring_takeForcedBreak (s.setDriver pl { s.driver pl with pause := none }) pl p x.leg.bank
        split
        next heq =>
          rw [heq] at hring
          exact ringWithin_react (ringWithin_of_ring hring h)
        next heq =>
          rw [heq] at hring
          exact ringWithin_of_ring hring h
      next => exact ringWithin_react h
    all_goals
      split
      next => exact ringWithin_of_ring (ring_startLeg _ _ _) h
      next => exact ringWithin_react h

/-- Every point of a CADENCE frame keeps the record (R158). -/
theorem ringWithin_cadencePoints {n : Nat} {s : State} (d : Nat) (x : Arb) (h : RingWithin n s) :
    ∀ u ∈ cadencePoints d x s, RingWithin n u := by
  have hfinish : ∀ st y, RingWithin n y.2 → RingWithin n (finishTurn st y) := fun st y hy =>
    ringWithin_of_ring (ring_finishTurn st y) hy
  have htake : ∀ st u, RingWithin n u → RingWithin n (takeCadenceA d st u).2 := fun st u hu =>
    ringWithin_of_ring (ring_takeCadenceA u d st) hu
  unfold cadencePoints
  cases x.weave with
  | apart =>
    have h1 := htake (if x.seq2First then .s2 else .s1) _ h
    have h2 := hfinish (if x.seq2First then .s2 else .s1) _ h1
    have h3 := htake (if x.seq2First then .s1 else .s2) _ (ringWithin_react h2)
    have h4 := hfinish (if x.seq2First then .s1 else .s2) _ h3
    simp only [List.forall_mem_cons, List.not_mem_nil, false_imp_iff, implies_true, and_true]
    exact ⟨h, h1, h2, ringWithin_react h2, h3, h4, ringWithin_react h4⟩
  | within =>
    have h1 := htake (if x.seq2First then .s2 else .s1) _ h
    have h2 := htake (if x.seq2First then .s1 else .s2) _ h1
    have h3 := hfinish (if x.seq2First then .s1 else .s2) _ h2
    simp only [List.forall_mem_cons, List.not_mem_nil, false_imp_iff, implies_true, and_true]
    exact ⟨h, h1, h2, h3, hfinish _ _ h3, ringWithin_react (hfinish _ _ h3)⟩
  | crossed =>
    have h1 := htake (if x.seq2First then .s2 else .s1) _ h
    have h2 := htake (if x.seq2First then .s1 else .s2) _ h1
    simp only [List.forall_mem_cons, List.not_mem_nil, false_imp_iff, implies_true, and_true]
    exact ⟨h, h1, h2, hfinish _ _ h2, hfinish _ _ (hfinish _ _ h2),
      ringWithin_react (hfinish _ _ (hfinish _ _ h2))⟩

end Sys2Proof.Machine
end

section
/-! PROOF. The requests of the table (R161): what none of them writes, and what they keep of the Ring Interface. -/

namespace Sys2Proof.Machine

/-! ## Clearing faults (R132 to R135) -/

/-- What a clear of faults may write: banks, faults with counters and summaries, and the Safe Controller (R143). -/
def ClearWork (s t : State) : Prop := t = { s with banks := t.banks, sup := t.sup, safe := t.safe }

theorem ClearWork.refl (s : State) : ClearWork s s := rfl

theorem ClearWork.trans {s t u : State} (h : ClearWork s t) (g : ClearWork t u) : ClearWork s u := by
  unfold ClearWork at h g ⊢
  rw [g, h]

theorem clearWork_foldl {α : Type} {f : BitVec 24 × State → α → BitVec 24 × State}
    (hf : ∀ x a, ClearWork x.2 (f x a).2) (as : List α) (x : BitVec 24 × State) : ClearWork x.2 (as.foldl f x).2 := by
  induction as generalizing x with
  | nil => exact .refl x.2
  | cons a as ih => exact (hf x a).trans (ih (f x a))

theorem clearWork_oweByClear (b : BankId) (s : State) : ClearWork s (oweByClear b s) := by
  unfold oweByClear owedInSafe
  split <;> rfl

theorem clearWork_clearPair (b : BankId) (k : FaultKind) (s : State) : ClearWork s (clearPair b k s) := rfl

theorem clearWork_resyncBank (b : BankId) (s : State) : ClearWork s (resyncBank b s) := by
  have hclear : ClearWork s (clearPair b .drift (s.recordPosition b (s.readback b))) := rfl
  unfold resyncBank
  dsimp only
  split
  next => exact hclear.trans (clearWork_oweByClear b _)
  next => exact hclear

theorem clearWork_clearDrift (b : BankId) (s : State) : ClearWork s (clearDrift b s).2 := by
  unfold clearDrift
  split
  next =>
    split
    next => exact .refl s
    next => exact clearWork_resyncBank b s
  next => exact clearWork_clearPair b .drift s

theorem clearWork_clearCoil (b : BankId) (s : State) : ClearWork s (clearCoil b s) := by
  unfold clearCoil
  dsimp only
  split
  next => exact (clearWork_clearPair b .coil s).trans (clearWork_oweByClear b _)
  next => exact clearWork_clearPair b .coil s

theorem clearWork_clearKindOn (b : BankId) (k : FaultKind) (s : State) : ClearWork s (clearKindOn b k s).2 := by
  cases k with
  | drift => exact clearWork_clearDrift b s
  | coil => exact clearWork_clearCoil b s
  | stray | position | hot | worn => exact clearWork_clearPair b _ s

theorem clearWork_clearNoting (b : BankId) (k : FaultKind) (x : BitVec 24 × State) :
    ClearWork x.2 (clearNoting b k x).2 := by
  have hkind := clearWork_clearKindOn b k x.2
  unfold clearNoting
  split
  next heq => rw [heq] at hkind; exact hkind
  next heq => rw [heq] at hkind; exact hkind

theorem clearWork_clearKindAll (k : FaultKind) (x : BitVec 24 × State) : ClearWork x.2 (clearKindAll k x).2 := by
  refine (clearWork_foldl (fun y b => clearWork_clearNoting b k y) allBanks x).trans ?_
  unfold clearKindAll clearSummary
  split <;> rfl

theorem clearWork_clearFaultsOf (ps : List Byte) (s : State) : ClearWork s (clearFaultsOf ps s).2 := by
  unfold clearFaultsOf
  dsimp only
  split
  next => exact clearWork_foldl (fun x k => clearWork_clearKindAll k x) _ (0, s)
  next => exact clearWork_foldl (fun x k => clearWork_clearNoting _ k x) _ (0, s)

/-! ## What no request writes -/

/-- The queue of waiting commands, the sense lines and the Window Trackers. -/
def State.outside (s : State) : List Instr × Vector BankLines 24 × ByPlane Tracker := (s.pending, s.lines, s.trackers)

/-- From `s`, `t` has the same queue, sense lines and trackers, and keeps the Ring Interface within its values. -/
def Contained (s t : State) : Prop := t.outside = s.outside ∧ ∀ n, RingWithin n s → RingWithin n t

theorem Contained.refl (s : State) : Contained s s := ⟨rfl, fun _ h => h⟩

theorem Contained.trans {s t u : State} (h : Contained s t) (g : Contained t u) : Contained s u :=
  ⟨g.1.trans h.1, fun n hs => g.2 n (h.2 n hs)⟩

theorem outside_of_fixed {s t : State} (hf : t.fixed = s.fixed) (ht : t.trackers = s.trackers) :
    t.outside = s.outside := by
  unfold State.fixed at hf
  simp only [Prod.mk.injEq] at hf
  obtain ⟨⟨_, _, _, hlines, _, _⟩, _, hpending, _, _⟩ := hf
  rw [State.outside, hpending, hlines, ht, State.outside]

/-- Work of the drivers, the paths, the sequencers, the faults or the visits. -/
theorem contained_of_fixed {s t : State} (hf : t.fixed = s.fixed) (ht : t.trackers = s.trackers)
    (hr : t.ring = s.ring) : Contained s t := ⟨outside_of_fixed hf ht, fun _ => ringWithin_of_ring hr⟩

/-- An update of tables that are none of these. -/
theorem contained_of_outside {s t : State} (ho : t.outside = s.outside) (hr : t.ring = s.ring) : Contained s t :=
  ⟨ho, fun _ => ringWithin_of_ring hr⟩

theorem contained_react (s : State) : Contained s (react s) :=
  ⟨outside_of_fixed (fixed_react s) (trackers_react s), fun _ => ringWithin_react⟩

theorem contained_clearing (s : State) : Contained s (clearing s) :=
  ⟨outside_of_fixed (fixed_clearing s) (trackers_clearing s), fun _ => ringWithin_clearing⟩

theorem contained_clearWork {s t : State} (h : ClearWork s t) : Contained s t := by
  unfold ClearWork at h
  rw [h]
  exact contained_of_outside rfl rfl

theorem contained_settleRequest {s : State} {x : Reply × State} (h : Contained s x.2) :
    Contained s (settleRequest x).2 := by
  obtain ⟨r, t⟩ := x
  unfold settleRequest
  dsimp only
  split
  next => exact h.trans (contained_react t)
  next => exact h

/-! ## The units -/

/-- The request leaves what no request writes. -/
def KeepsOutside (u : RequestUnit) : Prop := ∀ sf ps s, Contained s (u sf ps s).2

theorem contained_withoutParams {ps : List Byte} {s : State} {x : Reply × State} (h : Contained s x.2) :
    Contained s (withoutParams ps s x).2 := by
  unfold withoutParams
  split
  next => exact .refl s
  next => exact h

theorem contained_withNoParams {sf : Byte} {ps : List Byte} {s : State} {g : Station → Reply × State}
    (h : ∀ st, Contained s (g st).2) : Contained s (withNoParams sf ps s g).2 := by
  unfold withNoParams withStation
  split
  next =>
    split
    next => exact .refl s
    next => exact h _
  next => exact .refl s

theorem contained_reportSeq {s t : State} (st : Station) (h : Contained s t) : Contained s (reportSeq st t).2 :=
  contained_settleRequest h

theorem keepsOutside_setSettings : KeepsOutside setSettingsUnit := by
  intro sf ps s
  have hset : Contained s { s with settings := settingsOf ps } := contained_of_outside rfl rfl
  unfold setSettingsUnit
  split
  next => exact .refl s
  next => exact hset.trans (contained_of_fixed (fixed_retimeVisits _) (trackers_retimeVisits _) (ring_retimeVisits _))

theorem keepsOutside_loadBank : KeepsOutside loadBankUnit := by
  intro sf ps s
  unfold loadBankUnit
  dsimp only
  split
  next => exact .refl s
  next =>
    split
    next => exact .refl s
    next =>
      refine contained_settleRequest (contained_of_fixed ?_ ?_ ?_)
      all_goals
        dsimp only [answer]
        split <;> simp

theorem keepsOutside_readBank : KeepsOutside readBankUnit := by
  intro sf ps s
  unfold readBankUnit
  split <;> exact .refl s

theorem keepsOutside_loadRoute : KeepsOutside loadRouteUnit := by
  intro sf ps s
  unfold loadRouteUnit
  dsimp only
  split
  next => exact .refl s
  next =>
    split
    next => exact .refl s
    next =>
      split
      next => exact .refl s
      next => exact contained_of_outside rfl rfl

theorem keepsOutside_readRoute : KeepsOutside readRouteUnit := by
  intro sf ps s
  unfold readRouteUnit
  split <;> exact .refl s

theorem contained_writeSteps (ps : List Byte) (first n : Nat) (s : State) : Contained s (writeSteps ps first n s) := by
  induction n with
  | zero => exact .refl s
  | succ n ih => exact ih.trans (contained_of_outside rfl rfl)

theorem keepsOutside_loadSteps : KeepsOutside loadStepsUnit := by
  intro sf ps s
  unfold loadStepsUnit
  dsimp only
  split
  next => exact .refl s
  next =>
    split
    next => exact .refl s
    next => exact contained_writeSteps _ _ _ s

theorem keepsOutside_readSteps : KeepsOutside readStepsUnit := by
  intro sf ps s
  unfold readStepsUnit
  dsimp only
  split <;> exact .refl s

theorem contained_acceptMake {s t : State} {st : Station} {org : ChangeOrigin} {r : RouteId} {p : Slot}
    (h : acceptMake s st org r = .ok (p, t)) : Contained s t :=
  contained_of_fixed (fixed_acceptMake s t st org r p h) (trackers_acceptMake s t st org r p h)
    (ring_acceptMake s t st org r p h)

theorem contained_acceptSwap {s t : State} {st : Station} {org : ChangeOrigin} {o : Slot} {r : RouteId} {p : Slot}
    (h : acceptSwap s st org o r = .ok (p, t)) : Contained s t :=
  contained_of_fixed (fixed_acceptSwap s t st org o r p h) (trackers_acceptSwap s t st org o r p h)
    (ring_acceptSwap s t st org o r p h)

theorem keepsOutside_openPath : KeepsOutside openPathUnit := by
  intro sf ps s
  unfold openPathUnit openChecked
  split
  next => exact .refl s
  next =>
    split
    next => exact .refl s
    next =>
      split
      next => exact .refl s
      next =>
        split
        next => exact .refl s
        next hok => exact contained_settleRequest (contained_acceptMake hok)

theorem keepsOutside_swapPath : KeepsOutside swapPathUnit := by
  intro sf ps s
  unfold swapPathUnit swapChecked
  split
  next => exact .refl s
  next =>
    split
    next => exact .refl s
    next =>
      split
      next => exact .refl s
      next =>
        split
        next => exact .refl s
        next hok => exact contained_settleRequest (contained_acceptSwap hok)

theorem contained_cancelEntry (e : Entry) (s : State) : Contained s (cancelEntry e s) :=
  contained_of_fixed (fixed_cancelEntry s e) (trackers_cancelEntry s e) (ring_cancelEntry s e)

theorem contained_closeForming (p : Slot) (e : Entry) (s : State) : Contained s (closeForming p e s).2 := by
  unfold closeForming
  split
  next => exact contained_of_outside rfl rfl
  next =>
    split
    next =>
      exact contained_settleRequest
        (contained_of_fixed (fixed_convertSwap s e _ p) (trackers_convertSwap s e _ p) (ring_convertSwap s e _ p))
    next => exact contained_settleRequest (contained_cancelEntry e s)

theorem contained_closeChecked (st : Station) (p : Slot) (s : State) : Contained s (closeChecked st p s).2 := by
  unfold closeChecked
  dsimp only
  split_ifs
  all_goals try exact .refl s
  split
  next => exact contained_closeForming p _ s
  next =>
    exact contained_settleRequest
      (contained_of_fixed (fixed_acceptBreak s p _ _) (trackers_acceptBreak s p _ _) (ring_acceptBreak s p _ _))

theorem keepsOutside_closePath : KeepsOutside closePathUnit := by
  intro sf ps s
  unfold closePathUnit
  split
  next => exact .refl s
  next =>
    split
    next => exact .refl s
    next =>
      split
      next => exact .refl s
      next => exact contained_closeChecked _ _ s

theorem keepsOutside_cancelChange : KeepsOutside cancelChangeUnit := by
  intro sf ps s
  unfold cancelChangeUnit cancelChecked
  split
  next => exact .refl s
  next =>
    split
    next => exact .refl s
    next =>
      split
      next => exact .refl s
      next =>
        split
        next => exact .refl s
        next =>
          split
          next => exact .refl s
          next => exact contained_settleRequest (contained_cancelEntry _ s)

theorem keepsOutside_readPaths : KeepsOutside readPathsUnit := by
  intro sf ps s
  unfold readPathsUnit
  dsimp only
  split <;> exact .refl s

theorem keepsOutside_readQueue : KeepsOutside readQueueUnit := by
  intro sf ps s
  unfold readQueueUnit
  dsimp only
  split <;> exact .refl s

theorem keepsOutside_setSequencer : KeepsOutside setSequencerUnit := by
  intro sf ps s
  unfold setSequencerUnit withStation
  split
  next =>
    dsimp only
    split
    next => exact .refl s
    next =>
      split
      next => exact .refl s
      next => exact contained_of_outside rfl rfl
  next => exact .refl s

theorem keepsOutside_seqRun : KeepsOutside seqRunUnit := by
  intro sf ps s
  refine contained_withNoParams fun st => ?_
  split
  next => exact .refl s
  next =>
    split
    next => exact .refl s
    next =>
      exact contained_reportSeq st
        (contained_of_fixed (fixed_startSeq s st) (trackers_startSeq s st) (ring_startSeq s st))

theorem keepsOutside_seqHold : KeepsOutside seqHoldUnit := by
  intro sf ps s
  refine contained_withNoParams fun st => ?_
  split
  next => exact contained_reportSeq st (contained_of_outside rfl rfl)
  next => exact .refl s

theorem keepsOutside_seqResume : KeepsOutside seqResumeUnit := by
  intro sf ps s
  refine contained_withNoParams fun st => ?_
  split
  next =>
    exact contained_reportSeq st
      (contained_of_fixed (fixed_resumeSeq s st) (trackers_resumeSeq s st) (ring_resumeSeq s st))
  next => exact .refl s

theorem keepsOutside_seqStop : KeepsOutside seqStopUnit := by
  intro sf ps s
  exact contained_withNoParams fun st => contained_settleRequest
    (contained_of_fixed (fixed_stopSeq s st) (trackers_stopSeq s st) (ring_stopSeq s st))

theorem keepsOutside_armDivert : KeepsOutside armDivertUnit := by
  intro sf ps s
  exact contained_withNoParams fun st => contained_reportSeq st (contained_of_outside rfl rfl)

theorem contained_withClaims (c : ClaimTable) (s : State) : Contained s { s with claims := c } :=
  contained_of_outside rfl rfl

theorem keepsOutside_claim : KeepsOutside claimUnit := by
  intro sf ps s
  unfold claimUnit
  split
  next => exact .refl s
  next =>
    split
    next => exact .refl s
    next => exact contained_withClaims _ s

theorem keepsOutside_release : KeepsOutside releaseUnit := by
  intro sf ps s
  unfold releaseUnit
  split
  next => exact .refl s
  next =>
    split
    next => exact .refl s
    next => exact contained_withClaims _ s

theorem contained_clearFlags (m : BitVec 22) (s : State) : Contained s (clearFlags m s) := by
  unfold clearFlags
  dsimp only
  split
  next => exact ⟨rfl, fun _ h => ⟨Nat.zero_le _, h.2⟩⟩
  next => exact contained_of_outside rfl rfl

theorem keepsOutside_clearEvents : KeepsOutside clearEventsUnit := by
  intro sf ps s
  unfold clearEventsUnit
  split
  next => exact .refl s
  next => exact contained_clearFlags _ s

theorem keepsOutside_readFaults : KeepsOutside readFaultsUnit := by
  intro sf ps s
  unfold readFaultsUnit
  split
  next => exact .refl s
  next => split <;> exact .refl s

theorem keepsOutside_clearFaults : KeepsOutside clearFaultsUnit := by
  intro sf ps s
  have hwork := contained_clearWork (clearWork_clearFaultsOf ps s)
  unfold clearFaultsUnit
  split
  next => exact .refl s
  next =>
    refine contained_settleRequest (hwork.trans ?_)
    dsimp only [answer]
    split
    next => exact contained_of_outside rfl rfl
    next => exact .refl _

theorem contained_addCause (c : SafeCause) (s : State) : Contained s (addCause c s) :=
  contained_of_fixed (fixed_addCause s c) (trackers_addCause s c) (ring_addCause s c)

theorem keepsOutside_safeEnter : KeepsOutside safeEnterUnit := fun _ _ s =>
  contained_withoutParams (contained_settleRequest (contained_addCause .request s))

theorem keepsOutside_safeExit : KeepsOutside safeExitUnit := by
  intro sf ps s
  refine contained_withoutParams ?_
  split
  next => exact .refl s
  next =>
    split
    next => exact .refl s
    next => exact contained_settleRequest (contained_of_outside rfl rfl)

theorem keepsOutside_nodeReset : KeepsOutside nodeResetUnit := by
  intro sf ps s
  have hcause : Contained s (addCause .reset (s.setSafe { s.safe with resetPending := true })) :=
    Contained.trans (t := s.setSafe { s.safe with resetPending := true }) (contained_of_outside rfl rfl)
      (contained_addCause .reset _)
  refine contained_withoutParams (contained_settleRequest ?_)
  dsimp only [answer]
  split
  next => exact hcause.trans (contained_clearing _)
  next => exact hcause

theorem keepsOutside_forget : KeepsOutside forgetUnit := fun _ _ _ =>
  contained_withoutParams ⟨rfl, fun _ h => ⟨h.1, h.2.1, nofun⟩⟩

theorem keepsOutside_reads {u : RequestUnit} (h : ∀ sf ps s, (u sf ps s).2 = s) : KeepsOutside u := fun sf ps s => by
  rw [h sf ps s]
  exact .refl s

theorem withoutParams_answer_state (ps : List Byte) (s : State) (data : List Byte) :
    (withoutParams ps s (answer data s)).2 = s := by
  unfold withoutParams
  split <;> rfl

/-- Every request of the table. -/
theorem keepsOutside_table : ∀ x ∈ requestTable, KeepsOutside x.2 := by
  have hread : KeepsOutside readSequencerUnit := fun _ _ s => contained_withNoParams fun _ => .refl s
  have hident := keepsOutside_reads (u := identUnit) fun _ ps s => withoutParams_answer_state ps s _
  have hsettings := keepsOutside_reads (u := getSettingsUnit) fun _ ps s => withoutParams_answer_state ps s _
  have hclaims := keepsOutside_reads (u := readClaimsUnit) fun _ ps s => withoutParams_answer_state ps s _
  have hevents := keepsOutside_reads (u := readEventsUnit) fun _ ps s => withoutParams_answer_state ps s _
  unfold requestTable
  simp only [List.forall_mem_append, List.forall_mem_cons, List.not_mem_nil, false_imp_iff, implies_true, and_true,
    and_assoc]
  exact ⟨hident, hsettings, keepsOutside_setSettings, keepsOutside_loadBank, keepsOutside_readBank,
    keepsOutside_loadRoute, keepsOutside_readRoute, keepsOutside_loadSteps, keepsOutside_readSteps,
    keepsOutside_openPath, keepsOutside_closePath, keepsOutside_swapPath, keepsOutside_cancelChange,
    keepsOutside_readPaths, keepsOutside_readQueue, keepsOutside_setSequencer, hread, keepsOutside_seqRun,
    keepsOutside_seqHold, keepsOutside_seqResume, keepsOutside_seqStop, keepsOutside_armDivert, keepsOutside_claim,
    keepsOutside_release, hclaims, hevents, keepsOutside_clearEvents, keepsOutside_readFaults,
    keepsOutside_clearFaults, keepsOutside_safeEnter, keepsOutside_safeExit, keepsOutside_nodeReset,
    keepsOutside_forget⟩

/-- R161: the unit of a code is one of the table's, or the one that refuses. -/
theorem unitOf_cases (code : Byte) : unitOf code = unknownUnit ∨ ∃ x ∈ requestTable, unitOf code = x.2 := by
  unfold unitOf
  cases hl : requestTable.lookup code with
  | none => exact Or.inl rfl
  | some u =>
    obtain ⟨l₁, l₂, hsplit, -⟩ := List.lookup_eq_some_iff.mp hl
    exact Or.inr ⟨(code, u), by rw [hsplit]; simp, rfl⟩

theorem keepsOutside_unitOf (code : Byte) : KeepsOutside (unitOf code) := by
  rcases unitOf_cases code with hunknown | ⟨x, hx, hunit⟩
  · rw [hunknown]
    exact fun _ _ s => .refl s
  · rw [hunit]
    exact keepsOutside_table x hx

end Sys2Proof.Machine
end

section
/-! PROOF. The invariants of a step: the queue and the sense lines, the Ring Interface record with the Window Trackers,
and the cursors. -/

namespace Sys2Proof.Machine

/-! ## What the work of the part keeps: the queue, the sense lines, the ring record and the windows -/

/-- From `s`, `t` has the same queue and sense lines, and keeps the records of the ring and of the windows. -/
structure Sound (s t : State) : Prop where
  pending : t.pending = s.pending
  lines : t.lines = s.lines
  ring : ∀ n, RingWithin n s → RingWithin n t
  windows : WindowRecordsHold s → WindowRecordsHold t

theorem Sound.refl (s : State) : Sound s s := ⟨rfl, rfl, fun _ h => h, fun h => h⟩

theorem Sound.trans {s t u : State} (h : Sound s t) (g : Sound t u) : Sound s u :=
  ⟨g.pending.trans h.pending, g.lines.trans h.lines, fun n hs => g.ring n (h.ring n hs),
    fun hs => g.windows (h.windows hs)⟩

theorem Contained.sound {s t : State} (h : Contained s t) : Sound s t := by
  obtain ⟨ho, hr⟩ := h
  simp only [State.outside, Prod.mk.injEq] at ho
  obtain ⟨hpending, hlines, htrackers⟩ := ho
  exact ⟨hpending, hlines, hr, windowRecordsHold_of_trackers htrackers⟩

theorem sound_of_fixed {s t : State} (hf : t.fixed = s.fixed) (ht : t.trackers = s.trackers) (hr : t.ring = s.ring) :
    Sound s t := (contained_of_fixed hf ht hr).sound

theorem sound_of_outside {s t : State} (ho : t.outside = s.outside) (hr : t.ring = s.ring) : Sound s t :=
  (contained_of_outside ho hr).sound

/-- An update of the ring record to one within its values. -/
theorem sound_setRing (s : State) (x : RingInterface) (h : ∀ n, RingWithin n s → RingWithin n (s.setRing x)) :
    Sound s (s.setRing x) := ⟨rfl, rfl, h, fun h => h⟩

theorem sound_elapse (n : Nat) (s : State) : Sound s (s.elapse n) :=
  ⟨rfl, rfl, fun _ h => h, windowRecordsHold_elapse n s⟩

theorem sound_eachPlane {f : Plane → State → State} (hf : ∀ p s, Sound s (f p s)) (s : State) :
    Sound s (eachPlane f s) := by
  have hdraw : Sound s s.redraw := sound_of_outside rfl rfl
  unfold eachPlane
  split
  next => exact hdraw.trans ((hf .b _).trans (hf .a _))
  next => exact hdraw.trans ((hf .a _).trans (hf .b _))

theorem sound_foldl {α : Type} {f : State → α → State} (hf : ∀ s a, Sound s (f s a)) (as : List α) (s : State) :
    Sound s (as.foldl f s) := by
  induction as generalizing s with
  | nil => exact .refl s
  | cons a as ih => exact (hf s a).trans (ih _)

theorem sound_react (s : State) : Sound s (react s) := (contained_react s).sound

theorem sound_addCause (c : SafeCause) (s : State) : Sound s (addCause c s) := (contained_addCause c s).sound

/-! ## Windows and drivers -/

theorem sound_closeWindow (pl : Plane) (s : State) : Sound s (closeWindow pl s) where
  pending := congrArg (fun x => x.2.2.1) (fixed_closeWindow s pl)
  lines := congrArg (fun x => x.1.2.2.2.1) (fixed_closeWindow s pl)
  ring _ h := ringWithin_of_ring (ring_closeWindow s pl) h
  windows h := windowRecordsHold_closeWindow pl s h

theorem sound_shutWindow (tag : Byte) (pl : Plane) (s : State) : Sound s (shutWindow tag pl s) := by
  unfold shutWindow
  dsimp only
  split
  next => exact sound_closeWindow pl s
  next => exact .refl s

theorem sound_openWindow (tag : Byte) (n : Nat) (h1 : 1 ≤ n) (h2 : n ≤ 4095) (pl : Plane) (s : State) :
    Sound s (openWindow tag n pl s) where
  pending := congrArg (fun x => x.2.2.1) (fixed_openWindow s tag n pl)
  lines := congrArg (fun x => x.1.2.2.2.1) (fixed_openWindow s tag n pl)
  ring _ h := ringWithin_of_ring (ring_openWindow s tag n pl) h
  windows h := windowRecordsHold_openWindow tag n pl s h1 h2 h

theorem windowOpenBad_eq_false {planes : Byte} {budget : Word16} (h : windowOpenBad planes budget = false) :
    1 ≤ budget.toNat ∧ budget.toNat ≤ 4095 := by
  simp only [windowOpenBad, Bool.or_eq_false_iff, decide_eq_false_iff_not] at h
  obtain ⟨⟨_, hne⟩, hle⟩ := h
  have hpos : budget.toNat ≠ 0 := fun h0 => hne (BitVec.eq_of_toNat_eq h0)
  omega

theorem sound_openNamed (tag planes : Byte) (budget : Word16) (s : State) (h : windowOpenBad planes budget = false) :
    Sound s (openNamed tag planes budget s) := by
  obtain ⟨h1, h2⟩ := windowOpenBad_eq_false h
  have hopen := sound_openWindow tag budget.toNat h1 h2
  unfold openNamed
  split
  next => exact hopen .a s
  next =>
    split
    next => exact hopen .b s
    next => exact sound_eachPlane hopen s

theorem sound_budgetEnd (p : Plane) (s : State) : Sound s (budgetEnd p s) := by
  unfold budgetEnd
  split
  next => exact (sound_elapse _ s).trans (sound_closeWindow p _)
  next => exact .refl s

theorem windowRecordsHold_endDrive (pl : Plane) (s : State) (h : WindowRecordsHold s) :
    WindowRecordsHold (endDrive pl s) := by
  unfold endDrive
  split
  next =>
    dsimp only
    split
    next => exact windowRecordsHold_setTracker pl _ _ h trackerHolds_shut
    next => exact h
  next => exact h

theorem sound_endDrive (pl : Plane) (s : State) : Sound s (endDrive pl s) where
  pending := congrArg (fun x => x.2.2.1) (fixed_endDrive s pl)
  lines := congrArg (fun x => x.1.2.2.2.1) (fixed_endDrive s pl)
  ring _ h := ringWithin_of_ring (ring_endDrive s pl) h
  windows h := windowRecordsHold_endDrive pl s h

theorem sound_driveEnd (p : Plane) (s : State) : Sound s (driveEnd p s) := by
  unfold driveEnd
  split
  next => exact (sound_elapse _ s).trans (sound_endDrive p _)
  next => exact .refl s

theorem sound_takeReadback (p : Plane) (s : State) : Sound s (takeReadback p s) :=
  Contained.sound ⟨outside_of_fixed (fixed_takeReadback s p) (trackers_takeReadback s p),
    fun _ => ringWithin_takeReadback p⟩

theorem sound_settleEnd (p : Plane) (s : State) : Sound s (settleEnd p s) := by
  unfold settleEnd
  split
  next => exact (sound_elapse _ s).trans (sound_takeReadback p _)
  next => exact .refl s

theorem sound_endPause (p : Plane) (s : State) : Sound s (endPause p s) :=
  Contained.sound ⟨outside_of_fixed (fixed_endPause s p) (trackers_endPause s p), fun _ => ringWithin_endPause p⟩

theorem sound_pauseEnd (p : Plane) (s : State) : Sound s (pauseEnd p s) := by
  unfold pauseEnd
  split
  next => exact (sound_elapse _ s).trans (sound_endPause p _)
  next => exact .refl s

/-! ## Paths, grace, keepalive, visits -/

theorem sound_setPath (p : Slot) (x : PathRecord) (s : State) : Sound s (s.setPath p x) := sound_of_outside rfl rfl

theorem sound_settleTimerEnd (p : Slot) (s : State) : Sound s (settleTimerEnd p s) := by
  unfold settleTimerEnd
  split
  next n _ =>
    refine (sound_elapse n s).trans ?_
    dsimp only
    split
    next => exact sound_of_fixed (fixed_goLive _ p) (trackers_goLive _ p) (ring_goLive _ p)
    next => exact sound_setPath p _ _
  next => exact .refl s

theorem sound_settleTeardown (s : State) : Sound s (settleTeardown s) :=
  Contained.sound ⟨outside_of_fixed (fixed_settleTeardown s) (trackers_settleTeardown s),
    fun _ => ringWithin_settleTeardown⟩

theorem sound_setSafe (x : SafeController) (s : State) : Sound s (s.setSafe x) := sound_of_outside rfl rfl

theorem sound_graceTimerEnd (s : State) : Sound s (graceTimerEnd s) := by
  unfold graceTimerEnd
  split
  next n _ =>
    refine (sound_elapse n s).trans ?_
    dsimp only
    split
    next => exact (sound_setSafe _ _).trans (sound_settleTeardown _)
    next => exact sound_setSafe _ _
  next => exact .refl s

theorem sound_keepaliveEnd (s : State) : Sound s (keepaliveEnd s) := by
  unfold keepaliveEnd
  split
  next n _ =>
    have hstop : Sound (s.elapse n) ((s.elapse n).setRing { (s.elapse n).ring with keepalive := none }) :=
      sound_setRing _ _ fun _ h => h
    exact (sound_elapse n s).trans (hstop.trans (sound_addCause _ _))
  next => exact .refl s

theorem sound_startCycle (s : State) : Sound s (startCycle s) :=
  sound_of_fixed (fixed_startCycle s) (trackers_startCycle s) (ring_startCycle s)

theorem sound_intervalEnd (s : State) : Sound s (intervalEnd s) := by
  unfold intervalEnd
  split
  next => exact (sound_elapse _ s).trans (sound_startCycle _)
  next => exact .refl s

theorem sound_visitTimeEnd (s : State) : Sound s (visitTimeEnd s) := by
  unfold visitTimeEnd
  split
  next =>
    exact (sound_elapse _ s).trans (sound_of_fixed (fixed_endVisit _) (trackers_endVisit _) (ring_endVisit _))
  next => exact .refl s

/-! ## Inputs -/

theorem sound_setSeat (n : FixtureId) (x : DebouncedInput) (s : State) : Sound s (s.setSeat n x) :=
  sound_of_outside rfl rfl

theorem sound_setDoor (x : DebouncedInput) (s : State) : Sound s (s.setDoor x) := sound_of_outside rfl rfl

theorem sound_changeLevel (i : ChamberInput) (c : Bool) (s : State) : Sound s (changeLevel i c s) := by
  cases i with
  | seat n => exact sound_setSeat n _ s
  | door => exact sound_setDoor _ s

theorem sound_holdLevel (i : ChamberInput) (c : Bool) (s : State) : Sound s (holdLevel i c s) := by
  cases i with
  | seat n => exact sound_setSeat n _ s
  | door => exact sound_setDoor _ s

theorem sound_doorDebounced (s : State) : Sound s (doorDebounced s) := by
  unfold doorDebounced
  split
  next n _ =>
    refine (sound_elapse n s).trans ?_
    dsimp only
    split
    next => exact (sound_setDoor _ _).trans (sound_setSafe _ _)
    next => exact (sound_setDoor _ _).trans (sound_addCause _ _)
  next => exact .refl s

theorem sound_loseFixture (p : Slot) (s : State) : Sound s (loseFixture p s) := by
  have hfail : Sound s (failSlot p .fixtureLost s) :=
    sound_of_fixed (fixed_failSlot s p _) (trackers_failSlot s p _) (ring_failSlot s p _)
  unfold loseFixture
  dsimp only
  split
  next => exact hfail
  next =>
    split
    next => exact hfail.trans (sound_of_outside rfl rfl)
    next =>
      exact hfail.trans
        (sound_of_fixed (fixed_acceptBreak _ p _ _) (trackers_acceptBreak _ p _ _) (ring_acceptBreak _ p _ _))

theorem sound_noteFixture (x : FixtureChange) (s : State) : Sound s (noteFixture x s) := sound_of_outside rfl rfl

theorem sound_unseat (n : FixtureId) (s : State) : Sound s (unseat n s) :=
  (sound_of_fixed (fixed_cancelAll s _) (trackers_cancelAll s _) (ring_cancelAll s _)).trans
    ((sound_foldl (fun s p => sound_loseFixture p s) _ _).trans (sound_noteFixture _ _))

theorem sound_seatDebounced (n : FixtureId) (s : State) : Sound s (seatDebounced n s) := by
  unfold seatDebounced
  split
  next k _ =>
    refine (sound_elapse k s).trans (Sound.trans (sound_setSeat n ((s.elapse k).chamber.seats.get n).settleLevel _) ?_)
    dsimp only
    split
    next => exact sound_noteFixture _ _
    next => exact (sound_unseat n _).trans (sound_react _)
  next => exact .refl s

theorem sound_resetAll (s : State) : Sound s (resetAll s) where
  pending := rfl
  lines := rfl
  ring _ _ := ⟨Nat.zero_le _, Nat.zero_le _, nofun⟩
  windows _ := ⟨trackerHolds_shut, trackerHolds_shut⟩

theorem sound_leaveReset (s : State) : Sound s (leaveReset s) := by
  have hsampled : Sound s { s with inReset := false, chamber := s.chamber.sampled } := sound_of_outside rfl rfl
  unfold leaveReset
  dsimp only
  split
  next => exact hsampled.trans (sound_startCycle _)
  next => exact hsampled.trans ((sound_startCycle _).trans (sound_addCause _ _))

/-! ## Every command -/

/-- What a command from `s` keeps in `u`, with at most `n` frames in the forward list. -/
structure KeptFrom (s : State) (n : Nat) (u : State) : Prop where
  pending : u.pending = s.pending
  lines : u.lines = s.lines
  ring : RingRecordHolds s → RingWithin n u
  windows : WindowRecordsHold s → WindowRecordsHold u

theorem KeptFrom.sound {s u v : State} {n : Nat} (h : KeptFrom s n u) (g : Sound u v) : KeptFrom s n v :=
  ⟨g.pending.trans h.pending, g.lines.trans h.lines, fun hs => g.ring n (h.ring hs), fun hs => g.windows (h.windows hs)⟩

theorem ringWithin_countBad {n : Nat} {s : State} (h : RingWithin n s) : RingWithin n (countBad s) :=
  ⟨Nat.min_le_left _ _, h.2⟩

theorem sound_countBad (s : State) : Sound s (countBad s) := ⟨rfl, rfl, fun _ => ringWithin_countBad, fun h => h⟩

theorem ringWithin_forwardFrame {n : Nat} {s : State} (bytes : List Byte) (h : RingWithin n s) :
    RingWithin (n + 1) (forwardFrame bytes s) := by
  obtain ⟨hbad, hforward, haddress⟩ := h
  refine ⟨hbad, ?_, haddress⟩
  show (s.ring.forward ++ [bytes]).length ≤ n + 1
  rw [List.length_append]
  exact Nat.add_le_add_right hforward 1

/-- R148, R154: an address taken from a next address of 1 to 15. -/
theorem setWidth_next_ne_zero {next : Byte} (h1 : 1 ≤ next.toNat) (h2 : next.toNat ≤ 15) :
    next.setWidth 4 ≠ 0#4 := by
  intro h
  have hnat := congrArg BitVec.toNat h
  rw [BitVec.toNat_setWidth, Nat.mod_eq_of_lt (by omega)] at hnat
  exact absurd h1 (by simp [hnat])

theorem keptByRules_from (s : State) : KeptByRules (KeptFrom s 3) (KeptFrom s 4) where
  room u h hroom := ⟨h.pending, h.lines, fun hs =>
    let ⟨hbad, _, haddress⟩ := h.ring hs
    ⟨hbad, Nat.le_of_lt_succ hroom, haddress⟩, h.windows⟩
  full u h := h.sound (sound_countBad u)
  finish bytes u h := ⟨h.pending, h.lines, fun hs => ringWithin_forwardFrame bytes (h.ring hs), h.windows⟩
  drop bytes u h := ⟨h.pending, h.lines, fun hs => ringWithin_forwardFrame bytes (ringWithin_countBad (h.ring hs)),
    h.windows⟩
  bad u h := h.sound (sound_countBad u)
  clash u h := h.sound (sound_of_outside rfl rfl)
  unit code sf ps u h := h.sound (keepsOutside_unitOf code sf ps u).sound
  record f slip u h := ⟨by cases slip <;> exact h.pending, by cases slip <;> exact h.lines,
    fun hs => by cases slip <;> exact h.ring hs, fun hs => by cases slip <;> exact h.windows hs⟩
  points d x u h v hv := h.sound (Contained.sound
    ⟨outside_of_fixed (fixed_cadencePoints u d x v hv) (trackers_cadencePoints u d x v hv),
      fun _ hu => ringWithin_cadencePoints d x hu v hv⟩)
  opened tag planes budget u hgood h := h.sound (sound_openNamed tag planes budget u hgood)
  shut tag u h := h.sound (sound_eachPlane (sound_shutWindow tag) u)
  addressed next u h1 h2 h := h.sound (sound_setRing u _ fun _ hu =>
    ⟨hu.1, hu.2.1, fun heq => setWidth_next_ne_zero h1 h2 (Option.some.inj heq)⟩)
  outputs u h := h.sound (sound_of_outside rfl rfl)
  sent u h := h.sound (sound_setRing u _ fun _ hu =>
    ⟨hu.1, (by rw [State.setRing, List.length_tail]; exact (Nat.sub_le _ _).trans hu.2.1), hu.2.2⟩)
  budgetEnd p u h := h.sound (sound_budgetEnd p u)
  driveEnd p u h := h.sound (sound_driveEnd p u)
  settleEnd p u h := h.sound (sound_settleEnd p u)
  pauseEnd p u h := h.sound (sound_pauseEnd p u)
  settleTimerEnd p u h := h.sound (sound_settleTimerEnd p u)
  graceTimerEnd u h := h.sound (sound_graceTimerEnd u)
  keepaliveEnd u h := h.sound (sound_keepaliveEnd u)
  intervalEnd u h := h.sound (sound_intervalEnd u)
  visitTimeEnd u h := h.sound (sound_visitTimeEnd u)
  changeLevel i c u h := h.sound (sound_changeLevel i c u)
  holdLevel i c u h := h.sound (sound_holdLevel i c u)
  doorDebounced u h := h.sound (sound_doorDebounced u)
  seatDebounced n u h := h.sound (sound_seatDebounced n u)
  resetAll u h := h.sound (sound_resetAll u)
  leaveReset u h := h.sound (sound_leaveReset u)

/-- Every command keeps the queue, the sense lines and the records of the ring and of the windows. -/
theorem keptFrom_exec (c : Instr) (s : State) : AllNext (KeptFrom s 4) (exec c s) :=
  (keptByRules_from s).exec c s ⟨rfl, rfl, fun h => h, fun h => h⟩

/-- Settles O4: `keptFrom_exec`. -/
theorem commandsKeepQueueAndPins : Obligations.CommandsKeepQueueAndPins := fun c s t ht =>
  let h := keptFrom_exec c s t ht
  ⟨h.pending, h.lines⟩

/-- Settles O6: `keptFrom_exec`, and a tick is the passing of time. -/
theorem ringRecordInvariant : Obligations.RingRecordInvariant := by
  refine ⟨?ring, ?windows⟩
  case ring =>
    exact allNext_step (fun _ _ h => h) (fun _ h => h) (fun s h => (sound_elapse 1 s).ring 4 h)
      fun c s h t ht => (keptFrom_exec c s t ht).ring h
  case windows =>
    exact allNext_step (fun _ _ h => h) (fun _ h => h) (fun s h => (sound_elapse 1 s).windows h)
      fun c s h t ht => (keptFrom_exec c s t ht).windows h

end Sys2Proof.Machine
end

section
/-! PROOF. The cursors (R88): every rule of the part keeps them within their regions. -/

namespace Sys2Proof.Machine

theorem cursors_elapse (n : Nat) {s : State} (h : CursorsHold s) : CursorsHold (s.elapse n) := h

theorem cursors_openNamed (tag planes : Byte) (budget : Word16) {s : State} (h : CursorsHold s) :
    CursorsHold (openNamed tag planes budget s) := by
  unfold openNamed
  split
  next => exact cursors_openWindow s tag _ .a h
  next =>
    split
    next => exact cursors_openWindow s tag _ .b h
    next => exact cursors_eachPlane _ (fun p s h => cursors_openWindow s tag _ p h) s h

theorem cursors_recordCadence (f : CadenceFrame) (slip : Bool) {s : State} (h : CursorsHold s) :
    CursorsHold (recordCadence f slip s) := by
  cases slip <;> exact h

/-! ## The ends of timers -/

theorem cursors_budgetEnd (p : Plane) (s : State) (h : CursorsHold s) : CursorsHold (budgetEnd p s) := by
  unfold budgetEnd
  split
  next => exact cursors_closeWindow _ p (cursors_elapse _ h)
  next => exact h

theorem cursors_driveEnd (p : Plane) (s : State) (h : CursorsHold s) : CursorsHold (driveEnd p s) := by
  unfold driveEnd
  split
  next => exact cursors_endDrive _ p (cursors_elapse _ h)
  next => exact h

theorem cursors_settleEnd (p : Plane) (s : State) (h : CursorsHold s) : CursorsHold (settleEnd p s) := by
  unfold settleEnd
  split
  next => exact cursors_takeReadback _ p (cursors_elapse _ h)
  next => exact h

theorem cursors_pauseEnd (p : Plane) (s : State) (h : CursorsHold s) : CursorsHold (pauseEnd p s) := by
  unfold pauseEnd
  split
  next => exact cursors_endPause _ p (cursors_elapse _ h)
  next => exact h

theorem cursors_settleTimerEnd (p : Slot) (s : State) (h : CursorsHold s) : CursorsHold (settleTimerEnd p s) := by
  unfold settleTimerEnd
  split
  next n _ =>
    dsimp only
    split
    next => exact cursors_goLive _ p (cursors_elapse n h)
    next =>
      rw [cursors_setPath]
      exact cursors_elapse n h
  next => exact h

theorem cursors_graceTimerEnd (s : State) (h : CursorsHold s) : CursorsHold (graceTimerEnd s) := by
  unfold graceTimerEnd
  split
  next n _ =>
    dsimp only
    split
    next => exact cursors_settleTeardown _ (by rw [cursors_setSafe]; exact cursors_elapse n h)
    next =>
      rw [cursors_setSafe]
      exact cursors_elapse n h
  next => exact h

theorem cursors_keepaliveEnd (s : State) (h : CursorsHold s) : CursorsHold (keepaliveEnd s) := by
  unfold keepaliveEnd
  split
  next => exact cursors_addCause _ _ h
  next => exact h

theorem cursors_intervalEnd (s : State) (h : CursorsHold s) : CursorsHold (intervalEnd s) := by
  unfold intervalEnd
  split
  next => exact cursors_startCycle _ (cursors_elapse _ h)
  next => exact h

theorem cursors_visitTimeEnd (s : State) (h : CursorsHold s) : CursorsHold (visitTimeEnd s) := by
  unfold visitTimeEnd
  split
  next => exact cursors_endVisit _ (cursors_elapse _ h)
  next => exact h

/-! ## Inputs -/

theorem cursors_changeLevel (i : ChamberInput) (c : Bool) (s : State) (h : CursorsHold s) :
    CursorsHold (changeLevel i c s) := by
  cases i <;> exact h

theorem cursors_holdLevel (i : ChamberInput) (c : Bool) (s : State) (h : CursorsHold s) :
    CursorsHold (holdLevel i c s) := by
  cases i <;> exact h

theorem cursors_doorDebounced (s : State) (h : CursorsHold s) : CursorsHold (doorDebounced s) := by
  unfold doorDebounced
  split
  next =>
    dsimp only
    split
    next => exact h
    next => exact cursors_addCause _ _ h
  next => exact h

theorem cursors_loseFixture (p : Slot) (s : State) (h : CursorsHold s) : CursorsHold (loseFixture p s) := by
  have hfail := cursors_failSlot s p .fixtureLost h
  unfold loseFixture
  dsimp only
  split
  next => exact hfail
  next =>
    split
    next =>
      rw [cursors_setPath]
      exact hfail
    next => exact cursors_acceptBreak _ p _ _ hfail

theorem cursors_unseat (n : FixtureId) (s : State) (h : CursorsHold s) : CursorsHold (unseat n s) :=
  cursors_foldl (fun t p => loseFixture p t) (fun t p => cursors_loseFixture p t) _ _ (cursors_cancelAll s _ h)

theorem cursors_seatDebounced (n : FixtureId) (s : State) (h : CursorsHold s) : CursorsHold (seatDebounced n s) := by
  unfold seatDebounced
  split
  next =>
    dsimp only
    split
    next => exact h
    next => exact cursors_react _ (cursors_unseat n _ h)
  next => exact h

theorem cursors_leaveReset (s : State) (h : CursorsHold s) : CursorsHold (leaveReset s) := by
  have hstart : CursorsHold (startCycle { s with inReset := false, chamber := s.chamber.sampled }) :=
    cursors_startCycle _ h
  unfold leaveReset
  dsimp only
  split
  next => exact hstart
  next => exact cursors_addCause _ _ hstart

/-! ## Every step -/

theorem keptByRules_cursors : KeptByRules CursorsHold CursorsHold where
  room _ h _ := h
  full _ h := h
  finish _ _ h := h
  drop _ _ h := h
  bad _ h := h
  clash _ h := h
  unit code sf ps s h := keepsCursors_unitOf code sf ps s h
  record f slip _ h := cursors_recordCadence f slip h
  points d x s h := cursors_cadencePoints s d x h
  opened tag planes budget _ _ h := cursors_openNamed tag planes budget h
  shut tag s h := cursors_eachPlane _ (fun p s h => cursors_shutWindow s tag p h) s h
  addressed _ _ _ _ h := h
  outputs _ h := h
  sent _ h := h
  budgetEnd := cursors_budgetEnd
  driveEnd := cursors_driveEnd
  settleEnd := cursors_settleEnd
  pauseEnd := cursors_pauseEnd
  settleTimerEnd := cursors_settleTimerEnd
  graceTimerEnd := cursors_graceTimerEnd
  keepaliveEnd := cursors_keepaliveEnd
  intervalEnd := cursors_intervalEnd
  visitTimeEnd := cursors_visitTimeEnd
  changeLevel := cursors_changeLevel
  holdLevel := cursors_holdLevel
  doorDebounced := cursors_doorDebounced
  seatDebounced := cursors_seatDebounced
  resetAll _ _ := ⟨cursorHolds_reset, cursorHolds_reset⟩
  leaveReset := cursors_leaveReset

/-- Settles O7: every rule keeps the cursors, so every command does; a queue, a free order and a tick do not touch the
sequencers. -/
theorem cursorInRegionInvariant : Obligations.CursorInRegionInvariant :=
  allNext_step (fun _ _ h => h) (fun _ h => h) (fun _ h => cursors_elapse 1 h) keptByRules_cursors.exec

end Sys2Proof.Machine
end

section
/-! PROOF. The bytes of a frame (R149 to R151): a frame that a node sends passes the tests of R150 and is read back
field by field. -/

namespace Sys2Proof.Machine

/-! ## Any frame -/

/-- The header, length field, payload and check of a frame. -/
theorem frameBytes_eq (k : FrameKind) (h : Header) (p : List Byte) :
    frameBytes k h p =
      (k.code ++ h.hop) :: (0#4 ++ h.dest) :: h.tag :: byteOf p.length ::
        (p ++ wordBytes (crc ([k.code ++ h.hop, 0#4 ++ h.dest, h.tag, byteOf p.length] ++ p))) := by
  simp [frameBytes]

theorem length_wordBytes (w : Word16) : (wordBytes w).length = 2 := rfl

theorem length_frameBytes (k : FrameKind) (h : Header) (p : List Byte) : (frameBytes k h p).length = 6 + p.length := by
  rw [frameBytes_eq]
  simp only [List.length_cons, List.length_append, length_wordBytes]
  omega

theorem payloadLength_frameBytes (k : FrameKind) (h : Header) {p : List Byte} (hp : p.length ≤ 120) :
    payloadLength (frameBytes k h p) = p.length := by
  rw [frameBytes_eq]
  show (byteOf p.length).toNat = p.length
  rw [toNat_byteOf]
  omega

theorem sizeGood_frameBytes (k : FrameKind) (h : Header) {p : List Byte} (hp : p.length ≤ 120) :
    sizeGood (frameBytes k h p) = true := by
  simp only [sizeGood, length_frameBytes, payloadLength_frameBytes k h hp, Bool.and_eq_true, decide_eq_true_eq,
    and_true]
  omega

theorem checkGood_frameBytes (k : FrameKind) (h : Header) (p : List Byte) : checkGood (frameBytes k h p) = true := by
  have hsplit : ∀ (body : List Byte) (w : List Byte), w.length = 2 →
      (body ++ w).take ((body ++ w).length - 2) = body ∧ (body ++ w).drop ((body ++ w).length - 2) = w := by
    intro body w hw
    have hlen : (body ++ w).length - 2 = body.length := by simp [hw]
    rw [hlen]
    exact ⟨List.take_left, List.drop_left⟩
  obtain ⟨htake, hdrop⟩ := hsplit ([k.code ++ h.hop, 0#4 ++ h.dest, h.tag, byteOf p.length] ++ p) _
    (length_wordBytes (crc ([k.code ++ h.hop, 0#4 ++ h.dest, h.tag, byteOf p.length] ++ p)))
  unfold checkGood frameBytes
  dsimp only
  rw [htake, hdrop, decide_eq_true rfl]

theorem headerOf_frameBytes (k : FrameKind) (h : Header) (p : List Byte) : headerOf (frameBytes k h p) = h := by
  have hlow : ∀ x y : BitVec 4, (x ++ y).setWidth 4 = y := fun _ _ => BitVec.setWidth_append_eq_right
  rw [frameBytes_eq]
  show Header.mk ((k.code ++ h.hop).setWidth 4) ((0#4 ++ h.dest).setWidth 4) h.tag = h
  rw [hlow, hlow]

theorem payloadOf_frameBytes (k : FrameKind) (h : Header) {p : List Byte} (hp : p.length ≤ 120) :
    payloadOf (frameBytes k h p) = p := by
  rw [payloadOf, payloadLength_frameBytes k h hp, frameBytes_eq]
  exact List.take_left

theorem upperZero_frameBytes (k : FrameKind) (h : Header) (p : List Byte) : upperZero (frameBytes k h p) = true := by
  have hdest : (0#4 ++ h.dest).toNat = h.dest.toNat := by
    rw [BitVec.toNat_append]
    simp
  rw [frameBytes_eq]
  show decide ((0#4 ++ h.dest).toNat < 16) = true
  rw [hdest]
  exact decide_eq_true h.dest.isLt

theorem kind_frameBytes (k : FrameKind) (h : Header) (p : List Byte) :
    val1 (frameBytes k h p) 0 / 16 = k.code.toNat := by
  have hlt := h.hop.isLt
  rw [frameBytes_eq, val1_cons_zero, BitVec.toNat_append, Nat.shiftLeft_eq, Nat.mul_comm,
    ← Nat.two_pow_add_eq_or_of_lt hlt]
  omega

/-- R150, tests 1 and 2, R152. -/
theorem receiveBytes_frameBytes (k : FrameKind) (h : Header) {p : List Byte} (hp : p.length ≤ 120) (s : State) :
    receiveBytes (frameBytes k h p) s = receive (deliverBytes (frameBytes k h p)) s := by
  unfold receiveBytes
  simp only [sizeGood_frameBytes k h hp, checkGood_frameBytes, Bool.and_self, if_true]

theorem wordOf_wordBytes (w : Word16) : wordOf ((wordBytes w).getD 0 0) ((wordBytes w).getD 1 0) = w := by
  show byteOf (w.toNat / 256) ++ byteOf w.toNat = w
  apply BitVec.eq_of_toNat_eq
  have hlt : w.toNat < 65536 := w.isLt
  have hlow : (byteOf w.toNat).toNat < 2 ^ 8 := (byteOf w.toNat).isLt
  rw [BitVec.toNat_append, Nat.shiftLeft_eq, Nat.mul_comm, ← Nat.two_pow_add_eq_or_of_lt hlow, toNat_byteOf,
    toNat_byteOf]
  omega

/-! ## CADENCE, WINDOW_OPEN, WINDOW_SHUT and ENUMERATE -/

theorem receiveBytes_cadenceBytes (f : CadenceFrame) (s : State) :
    receiveBytes (cadenceBytes f) s = receive (deliverCadence f) s := by
  unfold cadenceBytes
  rw [receiveBytes_frameBytes _ _ (by simp [length_wordBytes])]
  congr 1
  funext s
  unfold deliverBytes
  dsimp only
  rw [kind_frameBytes, headerOf_frameBytes, payloadOf_frameBytes _ _ (by simp [length_wordBytes]), upperZero_frameBytes]
  have h1 := wordOf_wordBytes f.number
  have h2 := wordOf_wordBytes f.settle
  have h3 := wordOf_wordBytes f.attention
  exact congrArg (fun g => deliverCadence g s)
    (congr (congr (congrArg (fun n => CadenceFrame.mk f.hdr n f.gates) h1) h2) h3)

theorem receiveBytes_windowOpenBytes (h : Header) (tag planes : Byte) (budget : Word16) (s : State) :
    receiveBytes (windowOpenBytes h tag planes budget) s = receive (deliverWindowOpen h tag planes budget) s := by
  unfold windowOpenBytes
  rw [receiveBytes_frameBytes _ _ (by simp [length_wordBytes])]
  congr 1
  funext s
  unfold deliverBytes
  dsimp only
  rw [kind_frameBytes, headerOf_frameBytes, payloadOf_frameBytes _ _ (by simp [length_wordBytes]), upperZero_frameBytes]
  exact congrArg (fun w => deliverWindowOpen h tag planes w s) (wordOf_wordBytes budget)

theorem receiveBytes_windowShutBytes (h : Header) (tag : Byte) (s : State) :
    receiveBytes (windowShutBytes h tag) s = receive (deliverWindowShut h tag) s := by
  unfold windowShutBytes
  rw [receiveBytes_frameBytes _ _ (by simp)]
  congr 1
  funext s
  unfold deliverBytes
  dsimp only
  rw [kind_frameBytes, headerOf_frameBytes, payloadOf_frameBytes _ _ (by simp), upperZero_frameBytes]
  rfl

theorem receiveBytes_enumerateBytes (h : Header) (next flags : Byte) (s : State) :
    receiveBytes (enumerateBytes h next flags) s = receive (deliverEnumerate h next flags) s := by
  unfold enumerateBytes
  rw [receiveBytes_frameBytes _ _ (by simp)]
  congr 1
  funext s
  unfold deliverBytes
  dsimp only
  rw [kind_frameBytes, headerOf_frameBytes, payloadOf_frameBytes _ _ (by simp), upperZero_frameBytes]
  rfl

/-- Settles O10: each kind of frame by its own lemma. -/
theorem otherFrameBytesRoundTrip : Obligations.OtherFrameBytesRoundTrip :=
  ⟨receiveBytes_cadenceBytes, receiveBytes_windowOpenBytes, receiveBytes_windowShutBytes, receiveBytes_enumerateBytes⟩

/-! ## REQUEST -/

/-- The fields of a payload stand one after another. -/
theorem requestPayload_eq (code : Byte) (f : Request) :
    requestPayload code f =
      f.station :: code :: byteOf f.params.length ::
        (f.params ++ f.status :: byteOf f.resp.length :: f.resp) := by
  simp [requestPayload]

theorem requestPayload_le {code : Byte} {f : Request} (h : f.wellFormed = true) :
    (requestPayload code f).length ≤ 120 := by
  obtain ⟨hparams, hresp⟩ := (wellFormed_iff f).mp h
  rw [requestPayload_length]
  omega

theorem val1_append_right (xs ys : List Byte) (i : Nat) : val1 (xs ++ ys) (xs.length + i) = val1 ys i := by
  unfold val1
  rw [List.getD_append_right _ _ _ _ (Nat.le_add_right _ _), Nat.add_sub_cancel_left]

theorem val1_requestPayload_params {code : Byte} {f : Request} (h : f.wellFormed = true) :
    val1 (requestPayload code f) 2 = f.params.length := by
  obtain ⟨hparams, _⟩ := (wellFormed_iff f).mp h
  rw [requestPayload_eq, val1_cons_succ, val1_cons_succ, val1_byteOf _ _ (by omega)]

theorem val1_requestPayload_resp {code : Byte} {f : Request} (h : f.wellFormed = true) :
    val1 (requestPayload code f) (4 + f.params.length) = f.resp.length := by
  obtain ⟨_, hresp⟩ := (wellFormed_iff f).mp h
  have hindex : 4 + f.params.length = (f.params.length + 1) + 3 := by omega
  rw [requestPayload_eq, hindex, val1_cons_succ, val1_cons_succ, val1_cons_succ, val1_append_right, val1_cons_succ,
    val1_byteOf _ _ (by omega)]

theorem requestLayoutGood_requestPayload {code : Byte} {f : Request} (h : f.wellFormed = true) :
    requestLayoutGood (requestPayload code f) = true := by
  obtain ⟨hparams, hresp⟩ := (wellFormed_iff f).mp h
  simp only [requestLayoutGood, val1_requestPayload_params h, val1_requestPayload_resp h, requestPayload_length,
    Bool.and_eq_true, decide_eq_true_eq, and_true]
  omega

theorem requestOf_requestPayload {code : Byte} {f : Request} (h : f.wellFormed = true) :
    requestOf f.hdr (requestPayload code f) = f := by
  have hstatus : (requestPayload code f).getD (3 + f.params.length) 0 = f.status := by
    rw [requestPayload_eq, Nat.add_comm]
    simp
  have hresp : (requestPayload code f).drop (5 + f.params.length) = f.resp := by
    rw [requestPayload_eq, show 5 + f.params.length = f.params.length + 2 + 3 by omega]
    simp
  have hparams : ((requestPayload code f).drop 3).take f.params.length = f.params := by
    rw [requestPayload_eq]
    exact List.take_left
  unfold requestOf
  dsimp only
  rw [val1_requestPayload_params h, hstatus, hresp, hparams]
  rfl

theorem receiveBytes_requestFrame {code : Byte} {f : Request} (h : f.wellFormed = true) (s : State) :
    receiveBytes (requestFrame code f) s = takeRequest code (unitOf code) f s := by
  have hle := requestPayload_le (code := code) h
  have hcode : (requestPayload code f).getD 1 0 = code := rfl
  unfold requestFrame
  rw [receiveBytes_frameBytes _ _ hle, takeRequest]
  congr 1
  funext s
  rw [if_neg (Nat.not_lt.mpr hle), h]
  unfold deliverBytes
  dsimp only
  rw [kind_frameBytes, headerOf_frameBytes, payloadOf_frameBytes _ _ hle, upperZero_frameBytes,
    requestLayoutGood_requestPayload h, requestOf_requestPayload h, hcode]
  rfl

/-- Settles O9: the header and the payload are those of any frame, and the payload gives the request back. -/
theorem requestBytesRoundTrip : Obligations.RequestBytesRoundTrip := fun _ f h =>
  ⟨headerOf_frameBytes .request f.hdr _, payloadOf_frameBytes .request f.hdr (requestPayload_le h),
    requestOf_requestPayload h, receiveBytes_requestFrame h⟩

end Sys2Proof.Machine
end

section
/-! PROOF. SET_SETTINGS and CLEAR_EVENTS (R123, R163, R164, R169), with the rule that every statement on a request of
this node uses. -/

namespace Sys2Proof.Machine

/-- R156: a request of this node answers what its unit gives, over the state that the unit leaves. -/
theorem exec_answers {c : Instr} {code : Byte} {u : RequestUnit} {f : Request} {s t : State} {r : Reply}
    (hc : exec c s = perform (takeRequest code u f) s) (h : ForThisNode f s) (hu : u f.station f.params s = (r, t)) :
    exec c s = .next (answered code f r t) := by
  rw [hc, takeRequest_forThisNode _ _ _ _ h, hu]

/-! ## The 18 bytes of the settings (R163, R164) -/

theorem settingsFault_settingsBytes {x : Settings} (h : SettingsInRange x) :
    settingsFault (settingsBytes x) = none := by
  obtain ⟨hkeep, hg1, hg2, hinterval, hmiss, hbypass, hhot, hstray, hcoil, hmax⟩ := h
  have halert := x.alertMask.isLt
  have hsafe := x.safeMask.isLt
  have hattention := x.attentionMask.isLt
  simp only [settingsFault, settingsBytes, kindSetByte, eventMapBytes, bytes2, bytes3, val2, val3, List.cons_append,
    List.nil_append, List.length_cons, List.length_nil, val1_cons_succ, val1_cons_zero, toNat_byteOf,
    ite_some_eq_none, and_true]
  omega

theorem settingsOf_settingsBytes {x : Settings} (h : SettingsInRange x) : settingsOf (settingsBytes x) = x := by
  obtain ⟨hkeep, hg1, hg2, hinterval, hmiss, hbypass, hhot, hstray, hcoil, hmax⟩ := h
  have halert := x.alertMask.isLt
  have hsafe := x.safeMask.isLt
  have hattention := x.attentionMask.isLt
  have hkinds : ∀ k : KindSet, BitVec.ofNat 6 (k.toNat % 256) = k := fun k => by
    have hk := k.isLt
    rw [Nat.mod_eq_of_lt (by omega), BitVec.ofNat_toNat, BitVec.setWidth_eq]
  have hevents : BitVec.ofNat 22
      ((x.attentionMask.toNat / 65536 % 256 * 256 + x.attentionMask.toNat / 256 % 256) * 256 +
        x.attentionMask.toNat % 256) = x.attentionMask := by
    rw [three_bytes _ (by omega), BitVec.ofNat_toNat, BitVec.setWidth_eq]
  simp only [settingsOf, settingsBytes, kindSetByte, eventMapBytes, bytes2, bytes3, val2, val3, List.cons_append,
    List.nil_append, val1_cons_succ, val1_cons_zero, toNat_byteOf, hkinds, hevents]
  rw [Nat.mod_eq_of_lt (by omega), Nat.mod_eq_of_lt (by omega), Nat.mod_eq_of_lt (by omega),
    Nat.mod_eq_of_lt (by omega), two_bytes _ (by omega), two_bytes _ (by omega), two_bytes _ (by omega),
    two_bytes _ (by omega)]

/-- Tests in their order, each with the position that its failure reports, and what stands when none fails. -/
def firstFailing (tests : List (Nat × Bool)) (last : Option Nat) : Option Nat :=
  match tests with
  | [] => last
  | (n, bad) :: rest => if bad = true then some n else firstFailing rest last

theorem firstFailing_of_least {tests : List (Nat × Bool)} {last : Option Nat} {n : Nat}
    (hsorted : (tests.map Prod.fst).Pairwise (· < ·)) (hn : (n, true) ∈ tests)
    (hleast : ∀ m, m < n → (m, true) ∉ tests) : firstFailing tests last = some n := by
  induction tests with
  | nil => cases hn
  | cons t rest ih =>
    obtain ⟨m, bad⟩ := t
    obtain ⟨hbelow, hrest⟩ := List.pairwise_cons.mp hsorted
    unfold firstFailing
    rcases List.mem_cons.mp hn with heq | hmem
    · cases heq
      rfl
    · have hlt : m < n := hbelow n (List.mem_map_of_mem (f := Prod.fst) hmem)
      have hgood : ¬ bad = true := fun hbad => hleast m hlt (hbad ▸ List.mem_cons_self)
      rw [if_neg hgood]
      exact ih hrest hmem fun k hk hkmem => hleast k hk (List.mem_cons_of_mem _ hkmem)

theorem firstFailing_of_none {tests : List (Nat × Bool)} {last : Option Nat} (h : ∀ n, (n, true) ∉ tests) :
    firstFailing tests last = last := by
  induction tests with
  | nil => rfl
  | cons t rest ih =>
    obtain ⟨m, bad⟩ := t
    have hgood : ¬ bad = true := fun hbad => h m (hbad ▸ List.mem_cons_self)
    unfold firstFailing
    rw [if_neg hgood]
    exact ih fun n hn => h n (List.mem_cons_of_mem _ hn)

/-- R164: the tests of the fields, in the order of their positions. -/
def settingsTests (ps : List Byte) : List (Nat × Bool) :=
  [(2, decide (val1 ps 1 = 0)), (3, decide (127 < val1 ps 2)), (4, decide (7 < val1 ps 3)),
    (5, decide (31 < val1 ps 4)), (6, decide (1023 < val2 ps 5)), (7, decide (1023 < val2 ps 7)),
    (8, decide (1023 < val2 ps 9)), (9, decide (1023 < val2 ps 11)), (10, decide (63 < val1 ps 13)),
    (11, decide (63 < val1 ps 14)), (12, decide (4194303 < val3 ps 15))]

theorem mem_settingsTests {ps : List Byte} {n : Nat} : (n, true) ∈ settingsTests ps ↔ SettingsFieldBad ps n := by
  simp only [settingsTests, SettingsFieldBad, List.mem_cons, Prod.mk.injEq, List.not_mem_nil, or_false,
    eq_comm (a := true), decide_eq_true_eq]

theorem settingsFault_eq {ps : List Byte} (hlen : ps.length = 18) :
    settingsFault ps = firstFailing (settingsTests ps) (if val2 ps 11 < val2 ps 9 then some 9 else none) := by
  simp only [settingsFault, settingsTests, firstFailing, hlen, ne_eq, not_true_eq_false, if_false, decide_eq_true_eq,
    Nat.lt_one_iff]

theorem settingsTests_sorted (ps : List Byte) : ((settingsTests ps).map Prod.fst).Pairwise (· < ·) := by
  simp only [settingsTests, List.map_cons, List.map_nil]
  decide

/-- R164: the lowest field outside its coding is the one reported (log 28). -/
theorem settingsFault_of_field {ps : List Byte} {n : Nat} (hlen : ps.length = 18) (hbad : SettingsFieldBad ps n)
    (h : ∀ m, m < n → ¬ SettingsFieldBad ps m) : settingsFault ps = some n := by
  rw [settingsFault_eq hlen]
  exact firstFailing_of_least (settingsTests_sorted ps) (mem_settingsTests.mpr hbad) fun m hm =>
    mt mem_settingsTests.mp (h m hm)

theorem settingsFault_of_coil {ps : List Byte} (hlen : ps.length = 18) (h : ∀ n, ¬ SettingsFieldBad ps n)
    (hcoil : val2 ps 11 < val2 ps 9) : settingsFault ps = some 9 := by
  rw [settingsFault_eq hlen, firstFailing_of_none fun n => mt mem_settingsTests.mp (h n), if_pos hcoil]

theorem settingsFault_of_length {ps : List Byte} (hlen : ps.length ≠ 18) : settingsFault ps = some 0 := if_pos hlen

/-! ## The visit cycles (R123) -/

/-- Of the Supervision Unit, what is no part of the visit cycles. -/
def Supervision.judged (x : Supervision) :
    Vector MissCounters 24 × Vector KindSet 24 × KindSet × Vector (Option Sample) 24 :=
  (x.counters, x.faults, x.summaries, x.samples)

/-- From `s`, only the visit cycles have changed in `t`. -/
def OnlyCycles (s t : State) : Prop := t = { s with sup := t.sup } ∧ t.sup.judged = s.sup.judged

theorem OnlyCycles.refl (s : State) : OnlyCycles s s := ⟨rfl, rfl⟩

theorem OnlyCycles.trans {s t u : State} (h : OnlyCycles s t) (g : OnlyCycles t u) : OnlyCycles s u := by
  refine ⟨?_, g.2.trans h.2⟩
  rw [g.1, h.1]

theorem onlyCycles_seekVisit (n : Nat) (s : State) : OnlyCycles s (seekVisit n s) := by
  unfold seekVisit
  split
  next => exact ⟨rfl, rfl⟩
  next =>
    unfold endCycle
    dsimp only
    split
    next => exact ⟨rfl, rfl⟩
    next => split <;> exact ⟨rfl, rfl⟩

theorem onlyCycles_startCycle (s : State) : OnlyCycles s (startCycle s) :=
  OnlyCycles.trans (t := s.setSup { s.sup with cycle := .visiting, position := 0, elapsed := 0, running := true })
    ⟨rfl, rfl⟩ (onlyCycles_seekVisit 0 _)

theorem onlyCycles_retimeVisits (s : State) : OnlyCycles s (retimeVisits s) := by
  unfold retimeVisits
  split
  next => split <;> exact ⟨rfl, rfl⟩
  next =>
    split
    next => exact onlyCycles_startCycle s
    next =>
      split
      next => exact onlyCycles_startCycle s
      next => exact .refl s
    next => exact .refl s

theorem nextVisit_eq_some {s : State} {n : Nat} {b : BankId} :
    nextVisit s n = some b ↔
      (n ≤ b.1 ∧ (s.bank b).fitted = true ∧ s.inFlight b = false) ∧
        ∀ y, y < b → ¬ (n ≤ y.1 ∧ (s.bank y).fitted = true ∧ s.inFlight y = false) :=
  find_finRange_iff _ (fun y => n ≤ y.1 ∧ (s.bank y).fitted = true ∧ s.inFlight y = false)
    (fun y => by simp [and_assoc]) b

theorem nextVisit_eq_none {s : State} {n : Nat} :
    nextVisit s n = none ↔ ∀ y : BankId, ¬ (n ≤ y.1 ∧ (s.bank y).fitted = true ∧ s.inFlight y = false) :=
  find_finRange_none _ (fun y => n ≤ y.1 ∧ (s.bank y).fitted = true ∧ s.inFlight y = false) fun y => by
    simp [and_assoc]

/-- R123, R124: a cycle that starts with a bank to visit. -/
theorem startCycle_visits {s : State} {b : BankId} (hf : (s.bank b).fitted = true) (hl : s.inFlight b = false)
    (hfirst : ∀ y, y < b → (s.bank y).fitted = false ∨ s.inFlight y = true) :
    startCycle s =
      s.setSup
        { s.sup with
          cycle := .visiting, position := b, elapsed := 0, running := true
          visit := some { sample := ⟨(s.lines.get b).coil, (s.lines.get b).detector, s.readback b⟩, left := 4 } } := by
  have hnext : nextVisit (s.setSup { s.sup with cycle := .visiting, position := 0, elapsed := 0, running := true }) 0 =
      some b := nextVisit_eq_some.mpr ⟨⟨Nat.zero_le _, hf, hl⟩, fun y hy ⟨_, hyf, hyl⟩ =>
        (hfirst y hy).elim (fun h => Bool.false_ne_true (h.symm.trans hyf)) fun h =>
          Bool.false_ne_true (hyl.symm.trans h)⟩
  unfold startCycle seekVisit
  rw [hnext]
  rfl

/-- R123, R124: a cycle that starts with no bank to visit ends at once. -/
theorem startCycle_ends {s : State} (hi : s.settings.interval ≠ 0)
    (hnone : ∀ b, (s.bank b).fitted = false ∨ s.inFlight b = true) :
    startCycle s =
      s.setSup { s.sup with cycle := .waiting, position := 0, elapsed := 0, running := true, visit := none } := by
  have hnext : nextVisit (s.setSup { s.sup with cycle := .visiting, position := 0, elapsed := 0, running := true }) 0 =
      none := nextVisit_eq_none.mpr fun y ⟨_, hyf, hyl⟩ =>
        (hnone y).elim (fun h => Bool.false_ne_true (h.symm.trans hyf)) fun h => Bool.false_ne_true (hyl.symm.trans h)
  unfold startCycle seekVisit
  rw [hnext]
  exact (if_neg hi).trans rfl

theorem cycleDue_iff (s : State) :
    cycleDue s = true ↔
      s.sup.cycle = .waiting ∧ s.sup.running = true ∧ s.settings.interval ≠ 0 ∧
        s.settings.interval * 100 ≤ s.sup.elapsed := by
  simp only [cycleDue, Bool.and_eq_true, decide_eq_true_eq, ne_eq, and_assoc]
  rfl

/-- R123: a new interval with the cycles stopped, or reached already, starts a cycle. -/
theorem retimeVisits_starts {s : State} (hi : s.settings.interval ≠ 0)
    (h : s.sup.cycle = .stopped ∨
      (s.sup.cycle = .waiting ∧ s.sup.running = true ∧ s.settings.interval * 100 ≤ s.sup.elapsed)) :
    retimeVisits s = startCycle s := by
  unfold retimeVisits
  rw [if_neg hi]
  rcases h with hstopped | ⟨hwaiting, hrunning, helapsed⟩
  · rw [hstopped]
  · rw [hwaiting]
    exact if_pos ((cycleDue_iff s).mpr ⟨hwaiting, hrunning, hi, helapsed⟩)

theorem retimeVisits_keeps {s : State} (hi : s.settings.interval ≠ 0)
    (h : s.sup.cycle = .visiting ∨ (s.sup.cycle = .waiting ∧ s.sup.elapsed < s.settings.interval * 100)) :
    retimeVisits s = s := by
  unfold retimeVisits
  rw [if_neg hi]
  rcases h with hvisiting | ⟨hwaiting, helapsed⟩
  · rw [hvisiting]
  · rw [hwaiting]
    exact if_neg fun hdue => absurd ((cycleDue_iff s).mp hdue).2.2.2 (Nat.not_le.mpr helapsed)

theorem retimeVisits_stops {s : State} (hi : s.settings.interval = 0) (h : s.sup.cycle ≠ .visiting) :
    retimeVisits s = s.setSup { s.sup with cycle := .stopped, running := false } := by
  unfold retimeVisits
  rw [if_pos hi]
  cases hcycle : s.sup.cycle with
  | visiting => exact absurd hcycle h
  | waiting => rfl
  | stopped => rfl

theorem retimeVisits_lets_run {s : State} (hi : s.settings.interval = 0) (h : s.sup.cycle = .visiting) :
    retimeVisits s = s.setSup { s.sup with running := false } := by
  unfold retimeVisits
  rw [if_pos hi, h]

/-! ## SET_SETTINGS -/

theorem exec_setSettings_refused {f : Request} {s : State} {n : Nat} (h : ForThisNode f s)
    (hfault : settingsFault f.params = some n) :
    exec (.setSettings f) s = .next (answered 0x03 f ⟨.eArg, [byteOf n]⟩ s) :=
  exec_answers rfl h (by rw [setSettingsUnit, hfault]; rfl)

theorem exec_setSettings_taken {f : Request} {s : State} {x : Settings} (h : ForThisNode f s) (hx : SettingsInRange x)
    (hps : f.params = settingsBytes x) :
    exec (.setSettings f) s = .next (answered 0x03 f ⟨.ok, []⟩ (retimeVisits { s with settings := x })) := by
  refine exec_answers rfl h ?_
  rw [setSettingsUnit, hps, settingsFault_settingsBytes hx, settingsOf_settingsBytes hx]
  rfl

/-- Settles O12: a record within the ranges passes every test and is read back; a refusal is the first test that
fails. -/
theorem setSettingsWrites : Obligations.SetSettingsWrites := by
  intro f s h
  refine ⟨fun x hx hps => ?taken, fun hlen => ?length,
    fun hlen => ⟨fun n hbad hmin => ?field, fun hgood hcoil => ?coil⟩⟩
  case taken =>
    obtain ⟨hframe, hjudged⟩ := onlyCycles_retimeVisits { s with settings := x }
    simp only [Supervision.judged, Prod.mk.injEq] at hjudged
    obtain ⟨hcounters, hfaults, hsummaries, hsamples⟩ := hjudged
    exact ⟨_, exec_setSettings_taken h hx hps, rfl, by rw [hframe], hframe, hfaults, hcounters, hsummaries, hsamples⟩
  case length => exact exec_setSettings_refused h (settingsFault_of_length hlen)
  case field => exact exec_setSettings_refused h (settingsFault_of_field hlen hbad hmin)
  case coil => exact exec_setSettings_refused h (settingsFault_of_coil hlen hgood hcoil)

/-- Settles O13: the settings are written as O12 says, and the four cases of `retimeVisits` are those of R123. -/
theorem settingsRetimeVisits : Obligations.SettingsRetimeVisits := by
  intro f s x h hx hps
  rw [exec_setSettings_taken h hx hps]
  refine ⟨fun hi hstart => ⟨fun b hf hl hfirst => ?visits, fun hnone => ?ends⟩, fun hi hcycle => ?stops,
    fun hi hcycle => ?letsRun, fun hi hkeep => ?keeps⟩
  case visits =>
    rw [retimeVisits_starts (s := { s with settings := x }) hi hstart,
      startCycle_visits (s := { s with settings := x }) hf hl hfirst]
    rfl
  case ends =>
    rw [retimeVisits_starts (s := { s with settings := x }) hi hstart,
      startCycle_ends (s := { s with settings := x }) hi hnone]
    rfl
  case stops =>
    rw [retimeVisits_stops (s := { s with settings := x }) hi hcycle]
    rfl
  case letsRun =>
    rw [retimeVisits_lets_run (s := { s with settings := x }) hi hcycle]
    rfl
  case keeps => rw [retimeVisits_keeps (s := { s with settings := x }) hi hkeep]

/-! ## CLEAR_EVENTS (R169) -/

theorem val3_bytes3 {n : Nat} (h : n < 16777216) : val3 (bytes3 n) 0 = n := by
  simp only [val3, val2, bytes3, val1_cons_succ, val1_cons_zero, toNat_byteOf]
  exact three_bytes n h

theorem clearFlags_eq (m : BitVec 22) (s : State) :
    clearFlags m s =
      { s with
        events := { s.events with flags := s.events.flags &&& ~~~m }
        ring := { s.ring with badFrames := if m.getLsbD 20 then 0 else s.ring.badFrames } } := by
  unfold clearFlags
  show (if m.getLsbD 20 = true then _ else _) = _
  cases m.getLsbD 20 <;> rfl

/-- Settles O14: the three bytes of a map give the map back, and `clearFlags_eq` says what is cleared. -/
theorem clearEventsClears : Obligations.ClearEventsClears := by
  intro f s h
  refine ⟨fun m hps => ?taken, fun hbad => ?refused⟩
  case taken =>
    have hm : m.toNat < 4194304 := m.isLt
    have hval := val3_bytes3 (n := m.toNat) (by omega)
    have hgood : ¬ ((bytes3 m.toNat).length ≠ 3 ∨ 4194303 < val3 (bytes3 m.toNat) 0) := by
      rw [hval]
      simp only [length_bytes3, ne_eq, not_true_eq_false, false_or]
      omega
    refine exec_answers rfl h ?_
    rw [clearEventsUnit, hps, if_neg hgood, hval, BitVec.ofNat_toNat, BitVec.setWidth_eq, clearFlags_eq]
    rfl
  case refused =>
    refine exec_answers rfl h ?_
    rw [clearEventsUnit, if_pos hbad]
    rfl

end Sys2Proof.Machine
end

section
/-! PROOF. The Bank Map and what is read of the tables (R3 to R7, R13, R18, R77, R143). -/

namespace Sys2Proof.Machine

/-! ## Coded bytes read back -/

@[simp] theorem toNat_boolByte (x : Bool) : (boolByte x).toNat = if x then 1 else 0 := by cases x <;> rfl

@[simp] theorem toNat_planeByte (p : Plane) : (planeByte p).toNat = if p = .b then 1 else 0 := by cases p <;> rfl

theorem planeOfVal_planeByte (p : Plane) : planeOfVal (planeByte p).toNat = p := by cases p <;> rfl

theorem decide_of_boolByte {n : Nat} {x : Bool} (h : n = (boolByte x).toNat) : decide (n = 1) = x := by
  subst h
  cases x <;> rfl

theorem ofNat_byteOf {n : Nat} [NeZero n] (hn : n ≤ 256) (i : Fin n) : Fin.ofNat n (byteOf i.1).toNat = i := by
  have hi := i.isLt
  rw [toNat_byteOf, Nat.mod_eq_of_lt (by omega)]
  exact Fin.ofNat_val_eq_self i

/-! ## The 15 bytes of LOAD_BANK (R4) -/

theorem bankParamsFault_bankLoadBytes {q : BankParams} (h : BankParamsInRange q) :
    bankParamsFault (bankLoadBytes q) = none := by
  obtain ⟨hlow, hhigh, hoperate, hoperateMax, hsettle, -, -⟩ := h
  have hbank := q.bank.isLt
  have hfitted : (boolByte q.fitted).toNat ≤ 1 := by cases q.fitted <;> decide
  have hplane : (planeByte q.plane).toNat ≤ 1 := by cases q.plane <;> decide
  have hcount : (boolByte q.setCount).toNat ≤ 1 := by cases q.setCount <;> decide
  simp only [bankParamsFault, ite_some_eq_none, and_true]
  simp only [bankLoadBytes, bytes4, bytes2, List.cons_append, List.nil_append, List.length_cons, List.length_nil,
    val1_cons_succ, val1_cons_zero, toNat_byteOf]
  omega

theorem bankParams_bankLoadBytes {q : BankParams} (h : BankParamsInRange q) : bankParams (bankLoadBytes q) = q := by
  obtain ⟨bank, fitted, plane, throwsFitted, operate, settle, lifeLimit, setCount, lifeCount⟩ := q
  obtain ⟨hlow, hhigh, hoperate, hoperateMax, hsettle, hlimit, hlife⟩ := h
  dsimp only at hlow hhigh hoperate hoperateMax hsettle hlimit hlife
  simp only [bankParams, BankParams.mk.injEq]
  simp only [bankLoadBytes, bytes4, bytes2, val4, val2, List.cons_append, List.nil_append, val1_cons_succ,
    val1_cons_zero, toNat_byteOf]
  exact ⟨(toNat_byteOf _ ▸ ofNat_byteOf (by decide) bank :), decide_of_boolByte rfl, planeOfVal_planeByte plane,
    Nat.mod_eq_of_lt (by omega), Nat.mod_eq_of_lt (by omega), Nat.mod_eq_of_lt (by omega),
    four_bytes lifeLimit (by omega), decide_of_boolByte rfl, four_bytes lifeCount (by omega)⟩

/-- R4: the tests of the parameters, in the order of their positions. -/
def bankTests (ps : List Byte) : List (Nat × Bool) :=
  [(1, decide (23 < val1 ps 0)), (2, decide (1 < val1 ps 1)), (3, decide (1 < val1 ps 2)),
    (4, decide (val1 ps 3 = 0 ∨ 8 < val1 ps 3)), (5, decide (val1 ps 4 = 0 ∨ 200 < val1 ps 4)),
    (6, decide (200 < val1 ps 5)), (8, decide (1 < val1 ps 10))]

theorem mem_bankTests {ps : List Byte} {n : Nat} : (n, true) ∈ bankTests ps ↔ BankFieldBad ps n := by
  simp only [bankTests, BankFieldBad, List.mem_cons, Prod.mk.injEq, List.not_mem_nil, or_false,
    eq_comm (a := true), decide_eq_true_eq]

theorem bankTests_sorted (ps : List Byte) : ((bankTests ps).map Prod.fst).Pairwise (· < ·) := by
  simp only [bankTests, List.map_cons, List.map_nil]
  decide

theorem bankParamsFault_eq {ps : List Byte} (hlen : ps.length = 15) :
    bankParamsFault ps = firstFailing (bankTests ps) none := by
  simp only [bankParamsFault, bankTests, firstFailing, hlen, ne_eq, not_true_eq_false, if_false, decide_eq_true_eq,
    Nat.lt_one_iff]

/-! ## LOAD_BANK -/

theorem exec_loadBank_refused {f : Request} {s : State} {n : Nat} (h : ForThisNode f s)
    (hfault : bankParamsFault f.params = some n) :
    exec (.loadBank f) s = .next (answered 0x10 f ⟨.eArg, [byteOf n]⟩ s) :=
  exec_answers rfl h (by rw [loadBankUnit, hfault]; rfl)

/-- R6, R143: the state after a LOAD_BANK that is taken, before the drivers choose. -/
def loadBankState (s : State) (q : BankParams) : State :=
  let r := loadedBank (s.bank q.bank) q (s.readback q.bank)
  if !(s.bank q.bank).fitted && r.fitted && r.homeOwed then owedInSafe (s.setBank q.bank r) else s.setBank q.bank r

theorem exec_loadBank_taken {f : Request} {s : State} {q : BankParams} (h : ForThisNode f s) (hq : BankParamsInRange q)
    (hps : f.params = bankLoadBytes q) (hholder : (s.bank q.bank).holder = none) (hflight : s.inFlight q.bank = false) :
    exec (.loadBank f) s =
      .next (answered 0x10 f
        ⟨.ok, [positionByte (loadedBank (s.bank q.bank) q (s.readback q.bank)).position,
          boolByte (loadedBank (s.bank q.bank) q (s.readback q.bank)).homeOwed]⟩ (react (loadBankState s q))) := by
  refine exec_answers rfl h ?_
  have hfree : ¬ ((s.bank q.bank).holder ≠ none ∨ s.inFlight q.bank = true) := by
    rw [hholder, hflight]
    decide
  simp only [loadBankUnit, hps, bankParamsFault_bankLoadBytes hq, bankParams_bankLoadBytes hq, if_neg hfree]
  rfl

theorem owedInSafe_eq (s : State) :
    owedInSafe s =
      { s with safe := if s.safe.state = .safe then { s.safe with state := .teardown } else s.safe } := by
  unfold owedInSafe
  split <;> rfl

theorem loadBankState_banks (s : State) (q : BankParams) :
    (loadBankState s q).banks = (s.setBank q.bank (loadedBank (s.bank q.bank) q (s.readback q.bank))).banks := by
  unfold loadBankState
  dsimp only
  split
  next => rw [owedInSafe_eq]
  next => rfl

theorem bank_loadBankState (s : State) (q : BankParams) (b : BankId) :
    (loadBankState s q).bank b =
      if b = q.bank then loadedBank (s.bank q.bank) q (s.readback q.bank) else s.bank b :=
  (bank_of_banks _ _ (loadBankState_banks s q) b).trans (bank_setBank s q.bank b _)

theorem loadBankState_frame (s : State) (q : BankParams) :
    loadBankState s q = { s with banks := (loadBankState s q).banks, safe := (loadBankState s q).safe } := by
  rw [loadBankState_banks]
  unfold loadBankState
  dsimp only
  split
  next => rw [owedInSafe_eq]; rfl
  next => rfl

theorem loadedBank_config (old : BankRecord) (q : BankParams) (x : Reading) :
    (loadedBank old q x).fitted = q.fitted ∧ (loadedBank old q x).plane = q.plane ∧
      (loadedBank old q x).throwsFitted = q.throwsFitted ∧ (loadedBank old q x).operate = q.operate ∧
      (loadedBank old q x).settle = q.settle ∧ (loadedBank old q x).lifeLimit = q.lifeLimit ∧
      (loadedBank old q x).lifeCount = (if q.setCount then q.lifeCount else old.lifeCount) ∧
      (loadedBank old q x).holder = old.holder := by
  unfold loadedBank
  cases hold : old.fitted <;> cases hnew : q.fitted <;> simp [fittedBank]

theorem loadedBank_fits {old : BankRecord} {q : BankParams} (x : Reading) (hold : old.fitted = false)
    (hnew : q.fitted = true) :
    (loadedBank old q x).position = x ∧ (loadedBank old q x).homeOwed = decide (x ≠ some .term) ∧
      (loadedBank old q x).hotDeferrals = 0 := by
  unfold loadedBank
  rw [hold, hnew]
  exact ⟨rfl, rfl, rfl⟩

theorem loadedBank_unfits {old : BankRecord} {q : BankParams} (x : Reading) (hold : old.fitted = true)
    (hnew : q.fitted = false) :
    (loadedBank old q x).position = none ∧ (loadedBank old q x).homeOwed = false ∧
      (loadedBank old q x).hotDeferrals = 0 := by
  unfold loadedBank
  rw [hold, hnew]
  exact ⟨rfl, rfl, rfl⟩

theorem loadedBank_stays {old : BankRecord} {q : BankParams} (x : Reading) (h : old.fitted = q.fitted) :
    (loadedBank old q x).position = old.position ∧ (loadedBank old q x).homeOwed = old.homeOwed ∧
      (loadedBank old q x).hotDeferrals = old.hotDeferrals := by
  unfold loadedBank
  rw [h]
  cases q.fitted <;> exact ⟨rfl, rfl, rfl⟩

/-- R143: a bank that the request does not fit leaves the Safe Controller. -/
theorem safe_loadBankState_of_not_fits {s : State} {q : BankParams}
    (h : (s.bank q.bank).fitted = true ∨ q.fitted = false) : (loadBankState s q).safe = s.safe := by
  have hconfig := (loadedBank_config (s.bank q.bank) q (s.readback q.bank)).1
  unfold loadBankState
  dsimp only
  rw [if_neg]
  · rfl
  · rw [hconfig]
    rcases h with h | h <;> simp [h]

theorem safe_loadBankState_of_fits {s : State} {q : BankParams} (hold : (s.bank q.bank).fitted = false)
    (hnew : q.fitted = true) :
    (loadBankState s q).safe =
      if s.safe.state = .safe ∧ s.readback q.bank ≠ some .term then { s.safe with state := .teardown } else s.safe := by
  have hconfig := (loadedBank_config (s.bank q.bank) q (s.readback q.bank)).1
  have howed := (loadedBank_fits (s.readback q.bank) hold hnew).2.1
  unfold loadBankState
  dsimp only
  rw [hconfig, howed, hold, hnew, owedInSafe_eq]
  by_cases hterm : s.readback q.bank = some .term <;> by_cases hsafe : s.safe.state = .safe <;> simp [hterm, hsafe]

/-- Settles O15: the record is `loadedBank`, read in the three cases of R6; `loadBankState` says the rest. -/
theorem loadBankWrites : Obligations.LoadBankWrites := by
  intro f s q h hq hps hholder hflight
  have hself : (loadBankState s q).bank q.bank = loadedBank (s.bank q.bank) q (s.readback q.bank) := by
    rw [bank_loadBankState, if_pos rfl]
  obtain ⟨hfitted, hplane, hthrows, hoperate, hsettle, hlimit, hlife, hkept⟩ :=
    loadedBank_config (s.bank q.bank) q (s.readback q.bank)
  refine ⟨loadBankState s q, ?_, loadBankState_frame s q, fun b hb => ?_, ?_⟩
  · rw [hself]
    exact exec_loadBank_taken h hq hps hholder hflight
  · rw [bank_loadBankState, if_neg hb]
  · rw [hself]
    refine ⟨hfitted, hplane, hthrows, hoperate, hsettle, hlimit, hlife, hkept.trans hholder, fun hold hnew => ?fits,
      fun hold hnew => ?unfits, fun hsame => ?stays⟩
    case fits =>
      obtain ⟨hposition, howed, hhot⟩ := loadedBank_fits (s.readback q.bank) hold hnew
      exact ⟨hposition, by rw [howed, decide_eq_true_iff], hhot, safe_loadBankState_of_fits hold hnew⟩
    case unfits =>
      obtain ⟨hposition, howed, hhot⟩ := loadedBank_unfits (s.readback q.bank) hold hnew
      exact ⟨hposition, howed, hhot, safe_loadBankState_of_not_fits (.inl hold)⟩
    case stays =>
      obtain ⟨hposition, howed, hhot⟩ := loadedBank_stays (s.readback q.bank) hsame
      refine ⟨hposition, howed, hhot, safe_loadBankState_of_not_fits ?_⟩
      cases hold : (s.bank q.bank).fitted with
      | true => exact .inl rfl
      | false => exact .inr (hsame.symm.trans hold)

/-- Settles O16: a bank that is held or under a leg is refused after the parameters have passed; a refusal of the
parameters is the first test that fails. -/
theorem loadBankRefused : Obligations.LoadBankRefused := by
  intro f s h
  refine ⟨fun q hq hps hbusy => ?busy, fun hlen => ?length, fun hlen n hbad hmin => ?field⟩
  case busy =>
    refine exec_answers rfl h ?_
    simp only [loadBankUnit, hps, bankParamsFault_bankLoadBytes hq, bankParams_bankLoadBytes hq, if_pos hbusy]
    rfl
  case length => exact exec_loadBank_refused h (if_pos hlen)
  case field =>
    refine exec_loadBank_refused h ?_
    rw [bankParamsFault_eq hlen]
    exact firstFailing_of_least (bankTests_sorted _) (mem_bankTests.mpr hbad) fun m hm =>
      mt mem_bankTests.mp (hmin m hm)

/-! ## What is read of the tables -/

theorem slotsOnRoute_length (s : State) (n : RouteId) :
    (slotsOnRoute s n).length =
      (List.finRange 16).countP fun p => decide ((s.path p).state ≠ .free) && decide ((s.path p).route = some n) :=
  (List.countP_eq_length_filter ..).symm

/-- The index that lies `i` after `first`, if there is one. -/
def indexFrom (n first i : Nat) : Option (Fin n) := if h : first + i < n then some ⟨first + i, h⟩ else none

theorem indexFrom_eq_some {n first i : Nat} {x : Fin n} : indexFrom n first i = some x ↔ x.1 = first + i := by
  unfold indexFrom
  split
  next => simp only [Option.some.injEq, Fin.ext_iff, eq_comm]
  next h =>
    have hx := x.isLt
    simp only [reduceCtorEq, false_iff]
    omega

/-- The indices asked for by a reading request are those of the range in their order. -/
theorem filterMap_indexFrom (n first count : Nat) :
    (List.range count).filterMap (indexFrom n first) =
      (List.finRange n).filter fun x => decide (first ≤ x.1) && decide (x.1 < first + count) := by
  refine List.Pairwise.eq_of_mem_iff (r := (· < ·)) ?_ ((List.pairwise_lt_finRange n).filter _) fun x => ?_
  · refine List.Pairwise.filterMap _ (fun i j hij m hm k hk => ?_) List.pairwise_lt_range
    rw [indexFrom_eq_some] at hm hk
    rw [Fin.lt_def]
    omega
  · simp only [List.mem_filterMap, List.mem_range, indexFrom_eq_some, List.mem_filter, List.mem_finRange, true_and,
      Bool.and_eq_true, decide_eq_true_eq]
    constructor
    · rintro ⟨i, hi, hx⟩
      omega
    · rintro ⟨hlow, hhigh⟩
      exact ⟨x.1 - first, by omega, by omega⟩

theorem flatMap_indexFrom {n : Nat} (g : Fin n → List Byte) (first : Nat) (l : List Nat) :
    (l.flatMap fun i => if h : first + i < n then g ⟨first + i, h⟩ else []) =
      (l.filterMap (indexFrom n first)).flatMap g := by
  induction l with
  | nil => rfl
  | cons i rest ih =>
    rw [List.flatMap_cons, ih, List.filterMap_cons]
    unfold indexFrom
    by_cases h : first + i < n <;> simp [h]

/-- Settles O17: each answer is the record's coding, and each refusal the test of the parameters. -/
theorem readTablesAnswer : Obligations.ReadTablesAnswer := by
  intro f s h
  refine ⟨fun b hps => ?bank, fun hbad => ?noBank, fun n hps => ?route, fun hbad => ?noRoute,
    fun first count hfirst hlow hhigh hps => ?steps, fun hbad => ?noSteps⟩
  case bank =>
    refine exec_answers rfl h ?_
    have hb := b.isLt
    have hbyte := ofNat_byteOf (by decide) b
    have hgood : ¬ ([byteOf b.1].length ≠ 1 ∨ 23 < val1 [byteOf b.1] 0) := by
      rw [val1_byteOf _ _ (by omega)]
      simp only [List.length_singleton, ne_eq, not_true_eq_false, false_or]
      omega
    rw [readBankUnit, hps, if_neg hgood, val1_cons_zero, hbyte]
    rfl
  case noBank => exact exec_answers rfl h (if_pos hbad)
  case route =>
    refine exec_answers rfl h ?_
    have hn := n.isLt
    have hbyte := ofNat_byteOf (by decide) n
    have hgood : ¬ ([byteOf n.1].length ≠ 1 ∨ 127 < val1 [byteOf n.1] 0) := by
      rw [val1_byteOf _ _ (by omega)]
      simp only [List.length_singleton, ne_eq, not_true_eq_false, false_or]
      omega
    rw [readRouteUnit, hps, if_neg hgood, val1_cons_zero, hbyte, ← slotsOnRoute_length]
    rfl
  case noRoute => exact exec_answers rfl h (if_pos hbad)
  case steps =>
    refine exec_answers rfl h ?_
    have hval : val2 (bytes2 first ++ [byteOf count]) 0 = first := by
      simp only [bytes2, val2, List.cons_append, List.nil_append, val1_cons_succ, val1_cons_zero, toNat_byteOf]
      exact two_bytes first (by omega)
    have hcount : val1 (bytes2 first ++ [byteOf count]) 2 = count := by
      simp only [bytes2, List.cons_append, List.nil_append, val1_cons_succ, val1_cons_zero, toNat_byteOf]
      omega
    have hgood : ¬ ((bytes2 first ++ [byteOf count]).length ≠ 3 ∨ 511 < first ∨ count < 1 ∨ 8 < count) := by
      simp only [List.length_append, length_bytes2, List.length_singleton, ne_eq, Nat.reduceAdd, not_true_eq_false,
        false_or]
      omega
    simp only [readStepsUnit, hps, hval, hcount]
    rw [if_neg hgood, flatMap_indexFrom fun n => stepBytes (s.step n), filterMap_indexFrom]
    rfl
  case noSteps => exact exec_answers rfl h (if_pos hbad)

/-! ## A readback (R3) -/

theorem termContact_ne : ∀ t : Fin 8, 1#9 ≠ 1#9 <<< (t.1 + 1) := by decide

theorem throwContact_injective : ∀ t u : Fin 8, 1#9 <<< (t.1 + 1) = 1#9 <<< (u.1 + 1) → t = u := by decide

theorem readingOf_term : readingOf 1#9 = some .term := rfl

theorem readingOf_throw (t : Fin 8) : readingOf (1#9 <<< (t.1 + 1)) = some (.thr t) := by
  have hfind : (List.finRange 8).find? (fun u => decide (1#9 <<< (t.1 + 1) = 1#9 <<< (u.1 + 1))) = some t :=
    (find_finRange_iff _ (fun u => u = t)
      (fun u => by rw [decide_eq_true_iff]; exact ⟨fun h => (throwContact_injective t u h).symm, fun h => by rw [h]⟩)
      t).mpr ⟨rfl, fun u hu => ne_of_lt hu⟩
  unfold readingOf
  rw [if_neg (termContact_ne t).symm, hfind]
  rfl

theorem readingOf_none {c : BitVec 9} (hterm : c ≠ 1#9) (hthrow : ∀ t : Fin 8, c ≠ 1#9 <<< (t.1 + 1)) :
    readingOf c = none := by
  have hfind : (List.finRange 8).find? (fun u => decide (c = 1#9 <<< (u.1 + 1))) = none :=
    List.find?_eq_none.mpr fun u _ => by
      rw [decide_eq_true_iff]
      exact hthrow u
  unfold readingOf
  rw [if_neg hterm, hfind]
  rfl

/-- Settles O18: the TERM contact alone, one throw contact alone, and every other state of the contacts. -/
theorem readbackOfContacts : Obligations.ReadbackOfContacts := by
  intro c
  by_cases hterm : c = 1#9
  · subst hterm
    rw [readingOf_term]
    exact ⟨by simp, fun t => ⟨nofun, fun h => absurd h (termContact_ne t)⟩, nofun, fun h => absurd rfl h.1⟩
  by_cases hthrow : ∃ t : Fin 8, c = 1#9 <<< (t.1 + 1)
  · obtain ⟨t, rfl⟩ := hthrow
    rw [readingOf_throw]
    refine ⟨⟨nofun, fun h => absurd h hterm⟩, fun u => ⟨fun h => ?_, fun h => ?_⟩, nofun, fun h => absurd rfl (h.2 t)⟩
    · cases h
      rfl
    · rw [throwContact_injective t u h]
  · have hthrow : ∀ t : Fin 8, c ≠ 1#9 <<< (t.1 + 1) := fun t ht => hthrow ⟨t, ht⟩
    rw [readingOf_none hterm hthrow]
    exact ⟨⟨nofun, fun h => absurd h hterm⟩, fun t => ⟨nofun, fun h => absurd h (hthrow t)⟩, fun _ => ⟨hterm, hthrow⟩,
      fun _ => rfl⟩

end Sys2Proof.Machine
end

section
/-! PROOF. LOAD_ROUTE and LOAD_STEPS (R15, R16, R76). -/

namespace Sys2Proof.Machine

/-! ## The bytes of a route (R15) -/

theorem toNat_byteOf_of_lt {n : Nat} (h : n < 256) : (byteOf n).toNat = n := by
  rw [toNat_byteOf, Nat.mod_eq_of_lt h]

theorem routeStationOfVal_byte (x : RouteStation) : routeStationOfVal (routeStationByte x).toNat = x := by
  cases x <;> rfl

theorem toNat_endpointByte_le (e : Endpoint) : (endpointByte e).toNat ≤ 0x43 := by
  cases e with
  | probe n =>
    have hn := n.isLt
    simp only [endpointByte, toNat_byteOf]
    omega
  | fixture n =>
    have hn := n.isLt
    simp only [endpointByte, fixtureByte, toNat_byteOf]
    omega

theorem endpointOfVal_endpointByte (e : Endpoint) : endpointOfVal (endpointByte e).toNat = e := by
  cases e with
  | probe n =>
    have hn := n.isLt
    have hval : (byteOf n.1).toNat = n.1 := toNat_byteOf_of_lt (by omega)
    simp only [endpointByte, endpointOfVal, hval, if_pos hn, Fin.ofNat_val_eq_self]
  | fixture n =>
    have hn := n.isLt
    have hval : (byteOf (0x40 + n.1)).toNat = 0x40 + n.1 := toNat_byteOf_of_lt (by omega)
    have hlarge : ¬ 0x40 + n.1 < 64 := by omega
    simp only [endpointByte, fixtureByte, endpointOfVal, hval, if_neg hlarge, Nat.add_sub_cancel_left,
      Fin.ofNat_val_eq_self]

theorem legPairs_legBytes (legs : List RouteLeg) :
    legPairs (legs.flatMap fun l => [byteOf l.bank.1, byteOf (l.thr.1 + 1)]) =
      legs.map fun l => (l.bank.1, l.thr.1 + 1) := by
  induction legs with
  | nil => rfl
  | cons l rest ih =>
    have hb := l.bank.isLt
    have ht := l.thr.isLt
    have hbank : (byteOf l.bank.1).toNat = l.bank.1 := toNat_byteOf_of_lt (by omega)
    have hthr : (byteOf (l.thr.1 + 1)).toNat = l.thr.1 + 1 := toNat_byteOf_of_lt (by omega)
    simp only [List.flatMap_cons, List.cons_append, List.nil_append, legPairs, ih, hbank, hthr, List.map_cons]

theorem legs_of_legPairs (legs : List RouteLeg) :
    (legs.map fun l => (l.bank.1, l.thr.1 + 1)).map
        (fun x => (⟨Fin.ofNat 24 x.1, Fin.ofNat 8 (x.2 - 1)⟩ : RouteLeg)) = legs := by
  rw [List.map_map]
  refine (List.map_congr_left fun l _ => ?_).trans (List.map_id legs)
  simp only [Function.comp_apply, Nat.add_sub_cancel, Fin.ofNat_val_eq_self, id_eq]

theorem length_legBytes (legs : List RouteLeg) :
    (legs.flatMap fun l => [byteOf l.bank.1, byteOf (l.thr.1 + 1)]).length = 2 * legs.length := by
  induction legs with
  | nil => rfl
  | cons l rest ih =>
    simp only [List.flatMap_cons, List.length_append, ih, List.length_cons, List.length_nil]
    omega

theorem routeParamsBad_iff (ps : List Byte) : routeParamsBad ps = true ↔ RouteFieldsBad ps := by
  simp only [routeParamsBad, RouteFieldsBad, Bool.or_eq_true, Bool.and_eq_true, decide_eq_true_eq, or_assoc,
    Nat.lt_one_iff]

theorem not_routeFieldsBad_routeBytes {s : State} {x : RouteRecord} (n : RouteId) (h : RouteLoadable s x) :
    ¬ RouteFieldsBad (routeBytes n x) := by
  obtain ⟨hdefined, hport, hportMax, hsettle, hlegs, hlegsMax, -, -⟩ := h
  have hn := n.isLt
  have hone : (boolByte x.defined).toNat = 1 := by rw [hdefined]; rfl
  have hstation : 1 ≤ (routeStationByte x.station).toNat ∧ (routeStationByte x.station).toNat ≤ 3 := by
    cases x.station <;> decide
  have hplane : (planeByte x.plane).toNat ≤ 1 := by cases x.plane <;> decide
  have hendpoint := toNat_endpointByte_le x.endpoint
  have hlength := length_legBytes x.legs
  simp only [RouteFieldsBad, routeBytes, List.cons_append, List.nil_append, List.length_cons, val1_cons_succ,
    val1_cons_zero, hlength, toNat_byteOf, hone]
  omega

theorem routeOfParams_routeBytes {s : State} {x : RouteRecord} (n : RouteId) (h : RouteLoadable s x) :
    routeOfParams (routeBytes n x) = x := by
  obtain ⟨hdefined, hport, hportMax, hsettle, -, -, -, -⟩ := h
  obtain ⟨defined, station, port, plane, endpoint, legs, extraSettle⟩ := x
  dsimp only at hdefined hport hportMax hsettle
  simp only [routeOfParams, RouteRecord.mk.injEq]
  simp only [routeBytes, List.cons_append, List.nil_append, List.drop_succ_cons, List.drop_zero, val1_cons_succ,
    val1_cons_zero, legPairs_legBytes, legs_of_legPairs]
  exact ⟨hdefined.symm, routeStationOfVal_byte station, toNat_byteOf_of_lt (by omega), planeOfVal_planeByte plane,
    endpointOfVal_endpointByte endpoint, trivial, toNat_byteOf_of_lt (by omega)⟩

/-! ## The legs against the Bank Map (R15, check 3) -/

theorem legLoadable_iff (s : State) (pl : Plane) (b t : Nat) :
    legLoadable s pl b t = true ↔
      ∃ h : b < 24, (s.bank ⟨b, h⟩).fitted = true ∧ (s.bank ⟨b, h⟩).plane = pl ∧ 1 ≤ t ∧
        t ≤ (s.bank ⟨b, h⟩).throwsFitted := by
  unfold legLoadable
  split
  next h =>
    simp only [Bool.and_eq_true, decide_eq_true_eq, and_assoc]
    exact ⟨fun hl => ⟨h, hl⟩, fun ⟨_, hl⟩ => hl⟩
  next h => exact ⟨nofun, fun ⟨hb, _⟩ => absurd hb h⟩

theorem firstBadLeg_legs {s : State} {pl : Plane} {legs : List RouteLeg} (seen : List Nat) (i : Nat)
    (hnodup : (legs.map RouteLeg.bank).Nodup) (hseen : ∀ l ∈ legs, l.bank.1 ∉ seen)
    (hlegs : ∀ l ∈ legs, (s.bank l.bank).fitted = true ∧ (s.bank l.bank).plane = pl ∧
      l.thr.1 + 1 ≤ (s.bank l.bank).throwsFitted) :
    firstBadLeg s pl (legs.map fun l => (l.bank.1, l.thr.1 + 1)) seen i = none := by
  induction legs generalizing seen i with
  | nil => rfl
  | cons l rest ih =>
    obtain ⟨hnew, hrest⟩ := List.nodup_cons.mp hnodup
    obtain ⟨hfitted, hplane, hthrow⟩ := hlegs l List.mem_cons_self
    have hgood : legLoadable s pl l.bank.1 (l.thr.1 + 1) = true :=
      (legLoadable_iff ..).mpr ⟨l.bank.isLt, hfitted, hplane, Nat.le_add_left .., hthrow⟩
    have hfresh : seen.contains l.bank.1 = false := by
      rw [List.contains_eq_mem, decide_eq_false_iff_not]
      exact hseen l List.mem_cons_self
    simp only [List.map_cons, firstBadLeg, hgood, hfresh, Bool.not_true, Bool.or_self, Bool.false_eq_true, if_false]
    refine ih _ _ hrest (fun m hm hmem => ?_) fun m hm => hlegs m (List.mem_cons_of_mem _ hm)
    rcases List.mem_cons.mp hmem with heq | hmem
    · exact hnew (Fin.ext heq ▸ List.mem_map_of_mem hm)
    · exact hseen m (List.mem_cons_of_mem _ hm) hmem

/-- The banks and throws of leg bytes, as numbers. -/
def legNumbers (l : List (Byte × Byte)) : List (Nat × Nat) := l.map fun x => (x.1.toNat, x.2.toNat)

theorem legPairs_flatMap (l : List (Byte × Byte)) : legPairs (l.flatMap fun x => [x.1, x.2]) = legNumbers l := by
  induction l with
  | nil => rfl
  | cons x rest ih =>
    simp only [List.flatMap_cons, List.cons_append, List.nil_append, legPairs, ih, legNumbers, List.map_cons]

theorem legBytesBad_iff (s : State) (pl : Plane) (seen : List Byte) (b t : Byte) :
    ((seen.map BitVec.toNat).contains b.toNat || !legLoadable s pl b.toNat t.toNat) = true ↔
      LegBytesBad s pl seen b t := by
  have hmem : b.toNat ∈ seen.map BitVec.toNat ↔ b ∈ seen := by
    rw [List.mem_map]
    exact ⟨fun ⟨c, hc, heq⟩ => BitVec.eq_of_toNat_eq heq ▸ hc, fun hb => ⟨b, hb, rfl⟩⟩
  have hzero : t = 0 ↔ ¬ 1 ≤ t.toNat := by
    rw [← BitVec.toNat_inj]
    simp
  rw [Bool.or_eq_true, List.contains_eq_mem, decide_eq_true_iff, hmem, Bool.not_eq_true', ← Bool.not_eq_true,
    legLoadable_iff]
  unfold LegBytesBad
  refine or_congr_right ?_
  by_cases hb : b.toNat < 24
  · have hle : ¬ 23 < b.toNat := by omega
    simp only [hb, hle, exists_true_left, false_or, hzero, not_and_or, Bool.not_eq_true, not_le, ne_eq]
  · have hle : 23 < b.toNat := by omega
    simp only [hb, hle, IsEmpty.exists_iff, not_false_eq_true, true_or]

/-- R15, check 3: of the legs from one on, the first that fails is reported with its place. -/
theorem firstBadLeg_first {s : State} {pl : Plane} {before after : List (Byte × Byte)} {b t : Byte} (seen : List Byte)
    (i : Nat)
    (hgood : ∀ (j : Nat) (c d : Byte), before[j]? = some (c, d) →
      ¬ LegBytesBad s pl (((before.take j).map Prod.fst).reverse ++ seen) c d)
    (hbad : LegBytesBad s pl ((before.map Prod.fst).reverse ++ seen) b t) :
    firstBadLeg s pl (legNumbers (before ++ (b, t) :: after)) (seen.map BitVec.toNat) i = some (i + before.length) := by
  induction before generalizing seen i with
  | nil => exact if_pos ((legBytesBad_iff ..).mpr hbad)
  | cons x rest ih =>
    obtain ⟨c, d⟩ := x
    have hfirst : ¬ LegBytesBad s pl seen c d := hgood 0 c d rfl
    have htail := ih (c :: seen) (i + 1)
      (fun j c' d' hj => by
        have := hgood (j + 1) c' d' hj
        rwa [List.take_succ_cons, List.map_cons, List.reverse_cons, List.append_assoc] at this)
      (by rwa [List.map_cons, List.reverse_cons, List.append_assoc] at hbad)
    refine (if_neg fun h => hfirst ((legBytesBad_iff ..).mp h)).trans (htail.trans ?_)
    rw [List.length_cons, Nat.add_right_comm, Nat.add_assoc]

theorem legBytesBad_reverse {s : State} {pl : Plane} {seen : List Byte} {b t : Byte} :
    LegBytesBad s pl (seen.reverse ++ []) b t ↔ LegBytesBad s pl seen b t := by
  unfold LegBytesBad
  rw [List.append_nil, List.mem_reverse]

/-! ## LOAD_ROUTE -/

theorem slotsOnRoute_eq_nil {s : State} {n : RouteId}
    (h : ∀ p, (s.path p).state ≠ .free → (s.path p).route ≠ some n) : slotsOnRoute s n = [] := by
  refine List.filter_eq_nil_iff.mpr fun p _ hp => ?_
  simp only [State.slotUsed, Bool.and_eq_true, decide_eq_true_eq] at hp
  exact h p hp.1 hp.2

/-- R16: the lowest slot that records the route heads the list. -/
theorem slotsOnRoute_head {s : State} {n : RouteId} {p : Slot} (hused : (s.path p).state ≠ .free)
    (hroute : (s.path p).route = some n) (hfirst : ∀ q, q < p → (s.path q).state = .free ∨ (s.path q).route ≠ some n) :
    ∃ more, slotsOnRoute s n = p :: more := by
  have hfind : (List.finRange 16).find? (fun q => s.slotUsed q && decide ((s.path q).route = some n)) = some p :=
    (find_finRange_iff _ (fun q => (s.path q).state ≠ .free ∧ (s.path q).route = some n)
      (fun q => by simp only [State.slotUsed, Bool.and_eq_true, decide_eq_true_eq]) p).mpr
      ⟨⟨hused, hroute⟩, fun q hq ⟨hqused, hqroute⟩ =>
        (hfirst q hq).elim (fun hfree => hqused hfree) fun hne => hne hqroute⟩
  rw [← List.head?_filter] at hfind
  exact (List.head?_eq_some_iff.mp hfind)

theorem exec_loadRoute_taken {f : Request} {s : State} {n : RouteId} (h : ForThisNode f s)
    (hfields : ¬ RouteFieldsBad f.params) (hlegs : routeLegFault s f.params = none) (hn : val1 f.params 0 = n.1)
    (hunused : ∀ p, (s.path p).state ≠ .free → (s.path p).route ≠ some n) :
    exec (.loadRoute f) s =
      .next (answered 0x12 f ⟨.ok, []⟩
        (s.setRoute n (if val1 f.params 1 = 1 then routeOfParams f.params else RouteRecord.undefined))) := by
  refine exec_answers rfl h ?_
  have hroute : Fin.ofNat 128 (val1 f.params 0) = n := by rw [hn, Fin.ofNat_val_eq_self]
  rw [loadRouteUnit, if_neg (mt (routeParamsBad_iff _).mp hfields)]
  simp only [hlegs, hroute, slotsOnRoute_eq_nil hunused]
  rfl

theorem exec_loadRoute_used {f : Request} {s : State} {n : RouteId} {p : Slot} (h : ForThisNode f s)
    (hfields : ¬ RouteFieldsBad f.params) (hlegs : routeLegFault s f.params = none) (hn : val1 f.params 0 = n.1)
    (hused : (s.path p).state ≠ .free) (hroute : (s.path p).route = some n)
    (hfirst : ∀ q, q < p → (s.path q).state = .free ∨ (s.path q).route ≠ some n) :
    exec (.loadRoute f) s = .next (answered 0x12 f ⟨.eState, [byteOf p.1]⟩ s) := by
  refine exec_answers rfl h ?_
  have hroute' : Fin.ofNat 128 (val1 f.params 0) = n := by rw [hn, Fin.ofNat_val_eq_self]
  obtain ⟨more, hmore⟩ := slotsOnRoute_head hused hroute hfirst
  rw [loadRouteUnit, if_neg (mt (routeParamsBad_iff _).mp hfields)]
  simp only [hlegs, hroute', hmore]
  rfl

theorem exec_loadRoute_badLeg {f : Request} {s : State} {i : Nat} (h : ForThisNode f s)
    (hfields : ¬ RouteFieldsBad f.params) (hlegs : routeLegFault s f.params = some i) :
    exec (.loadRoute f) s = .next (answered 0x12 f ⟨.eArg, [byteOf i]⟩ s) := by
  refine exec_answers rfl h ?_
  rw [loadRouteUnit, if_neg (mt (routeParamsBad_iff _).mp hfields)]
  simp only [hlegs]
  rfl

/-- A LOAD_ROUTE that undefines, or that defines a route that passes, has no fault and names route `n`. -/
theorem routeLoads {s : State} {n : RouteId} {ps : List Byte}
    (h : (∃ more, ps = byteOf n.1 :: 0 :: more) ∨ ∃ x : RouteRecord, RouteLoadable s x ∧ ps = routeBytes n x) :
    ¬ RouteFieldsBad ps ∧ routeLegFault s ps = none ∧ val1 ps 0 = n.1 := by
  have hn := n.isLt
  have hbyte : (byteOf n.1).toNat = n.1 := toNat_byteOf_of_lt (by omega)
  rcases h with ⟨more, rfl⟩ | ⟨x, hx, rfl⟩
  · have hzero : val1 (byteOf n.1 :: 0 :: more) 1 = 0 := rfl
    refine ⟨?_, if_neg (by rw [hzero]; decide), hbyte⟩
    simp only [RouteFieldsBad, hzero, List.length_cons, val1_cons_zero, hbyte]
    omega
  · refine ⟨not_routeFieldsBad_routeBytes n hx, ?_, hbyte⟩
    obtain ⟨hdefined, -, -, -, -, -, hnodup, hlegs⟩ := hx
    have hone : val1 (routeBytes n x) 1 = 1 := by
      show (boolByte x.defined).toNat = 1
      rw [hdefined]
      rfl
    have hplane : planeOfVal (val1 (routeBytes n x) 4) = x.plane := planeOfVal_planeByte x.plane
    have hpairs : legPairs ((routeBytes n x).drop 8) = x.legs.map fun l => (l.bank.1, l.thr.1 + 1) :=
      legPairs_legBytes x.legs
    unfold routeLegFault
    rw [if_pos hone, hplane, hpairs]
    exact firstBadLeg_legs [] 0 hnodup (fun _ _ => List.not_mem_nil) hlegs

/-- The leg bytes of a defining LOAD_ROUTE follow its first 8 bytes. -/
theorem drop_eight_of_legs {ps : List Byte} {x : Byte} {legs : List Byte} (hlen : 8 ≤ ps.length)
    (h : ps = [x, 1] ++ (ps.drop 2).take 6 ++ legs) : ps.drop 8 = legs := by
  have hhead : ([x, 1] ++ (ps.drop 2).take 6).length = 8 := by
    simp only [List.length_append, List.length_cons, List.length_nil, List.length_take, List.length_drop]
    omega
  have hdrop := List.drop_left (l₁ := [x, 1] ++ (ps.drop 2).take 6) (l₂ := legs)
  rwa [← h, hhead] at hdrop

/-- Settles O19: the three ways to a record written or refused share `routeLoads`; a failing leg is the first. -/
theorem loadRouteWrites : Obligations.LoadRouteWrites := by
  intro f s n h
  refine ⟨fun x hx hps hunused => ?defines, fun more hps hunused => ?undefines,
    fun p hps hused hroute hfirst => ?used, fun hbad => ?fields, fun before after b t hfields hps hgood hbad => ?leg⟩
  case defines =>
    obtain ⟨hfields, hlegs, hn⟩ := routeLoads (s := s) (.inr ⟨x, hx, hps⟩)
    have hone : val1 f.params 1 = 1 := by
      rw [hps]
      show (boolByte x.defined).toNat = 1
      rw [hx.1]
      rfl
    rw [exec_loadRoute_taken h hfields hlegs hn hunused, if_pos hone, hps, routeOfParams_routeBytes n hx]
  case undefines =>
    obtain ⟨hfields, hlegs, hn⟩ := routeLoads (s := s) (.inl ⟨more, hps⟩)
    have hzero : val1 f.params 1 ≠ 1 := by
      rw [hps]
      exact Nat.zero_ne_one
    rw [exec_loadRoute_taken h hfields hlegs hn hunused, if_neg hzero]
  case used =>
    obtain ⟨hfields, hlegs, hn⟩ := routeLoads hps
    exact exec_loadRoute_used h hfields hlegs hn hused hroute hfirst
  case fields =>
    refine exec_answers rfl h ?_
    rw [loadRouteUnit, if_pos ((routeParamsBad_iff _).mpr hbad)]
    rfl
  case leg =>
    refine exec_loadRoute_badLeg h hfields ?_
    have hone : val1 f.params 1 = 1 := by
      rw [hps]
      rfl
    have hlen : 8 ≤ f.params.length := by
      unfold RouteFieldsBad at hfields
      omega
    have hdrop := drop_eight_of_legs hlen hps
    unfold routeLegFault
    rw [if_pos hone, hdrop, legPairs_flatMap]
    have hfirst := firstBadLeg_first (after := after) [] 0
      (fun j c d hj => mt legBytesBad_reverse.mp (hgood j c d hj)) (legBytesBad_reverse.mpr hbad)
    rwa [Nat.zero_add] at hfirst

/-! ## The bytes of a step record (R76) -/

/-- The control byte, by what it codes. -/
def controlByte (cond : Condition) (jump mark hold : Bool) : Byte :=
  byteOf (conditionVal cond + boolVal jump 0x10 + boolVal mark 0x20 + boolVal hold 0x40)

/-- The record is a JUMP. -/
def StepRecord.isJump (r : StepRecord) : Bool := match r.kind with | .apply _ => false | .jump _ => true

theorem controlByte_eq (r : StepRecord) : byteOf (controlVal r + 0) = controlByte r.cond r.isJump r.mark r.hold := by
  unfold controlVal controlByte StepRecord.isJump
  cases r.kind <;> rfl

theorem controlByte_spare (cond : Condition) (jump mark hold : Bool) :
    (controlByte cond jump mark hold).getLsbD 3 = false ∧ (controlByte cond jump mark hold).getLsbD 7 = false := by
  cases cond <;> cases jump <;> cases mark <;> cases hold <;> decide

theorem controlByte_codes (cond : Condition) (jump mark hold : Bool) :
    (controlByte cond jump mark hold).getLsbD 4 = jump ∧ (controlByte cond jump mark hold).getLsbD 5 = mark ∧
      (controlByte cond jump mark hold).getLsbD 6 = hold ∧
      conditionOfVal ((controlByte cond jump mark hold).toNat % 8) = cond := by
  cases cond <;> cases jump <;> cases mark <;> cases hold <;> decide

theorem toNat_routeFieldByte_le (x : RouteField) : (routeFieldByte x).toNat ≤ 0x81 := by
  cases x with
  | route r =>
    have hr := r.isLt
    simp only [routeFieldByte, toNat_byteOf]
    omega
  | keep => decide
  | clear => decide

theorem routeFieldOfVal_byte (x : RouteField) : routeFieldOfVal (routeFieldByte x).toNat = x := by
  cases x with
  | route r =>
    have hr := r.isLt
    have hval : (byteOf r.1).toNat = r.1 := toNat_byteOf_of_lt (by omega)
    have hkeep : r.1 ≠ 0x80 := by omega
    have hclear : r.1 ≠ 0x81 := by omega
    simp only [routeFieldByte, routeFieldOfVal, hval, if_neg hkeep, if_neg hclear, Fin.ofNat_val_eq_self]
  | keep => rfl
  | clear => rfl

/-- The dwell of an APPLY record lies within R76. -/
def DwellInRange (r : StepRecord) : Prop := ∀ d, r.kind = .apply d → 1 ≤ d ∧ d ≤ 4096

theorem dwellOrTarget_le {r : StepRecord} (h : DwellInRange r) : dwellOrTarget r ≤ 4096 := by
  unfold dwellOrTarget
  cases hkind : r.kind with
  | apply d => exact (h d hkind).2
  | jump t =>
    have ht := t.isLt
    dsimp only
    omega

theorem val_of_stepBytes {r : StepRecord} (h : DwellInRange r) (more : List Byte) :
    val1 (stepBytes r ++ more) 0 = (routeFieldByte r.routeA).toNat ∧
      val1 (stepBytes r ++ more) 1 = (routeFieldByte r.routeB).toNat ∧
      (stepBytes r ++ more).getD 2 0 = controlByte r.cond r.isJump r.mark r.hold ∧
      val2 (stepBytes r ++ more) 3 = dwellOrTarget r := by
  have hle := dwellOrTarget_le h
  refine ⟨rfl, rfl, controlByte_eq r, ?_⟩
  have hval : val2 (stepBytes r ++ more) 3 = dwellOrTarget r / 256 % 256 * 256 + dwellOrTarget r % 256 := by
    simp only [stepBytes, stepBytesWith, bytes2, val2, List.cons_append, List.nil_append, val1_cons_succ,
      val1_cons_zero, toNat_byteOf]
  rw [hval]
  exact two_bytes _ (by omega)

theorem stepBad_iff (ps : List Byte) (i : Nat) : stepBad ps i = true ↔ StepRecordBad ps i := by
  unfold stepBad StepRecordBad
  cases (ps.getD (i + 2) 0).getLsbD 4 <;>
    simp only [Bool.or_eq_true, decide_eq_true_eq, or_assoc, if_true, if_false, Bool.false_eq_true, true_and,
      false_and, false_or, or_false, Bool.true_eq_false]

theorem stepBad_stepBytes {r : StepRecord} (h : DwellInRange r) (more : List Byte) :
    stepBad (stepBytes r ++ more) 0 = false := by
  obtain ⟨ha, hb, hcontrol, hdwell⟩ := val_of_stepBytes h more
  obtain ⟨hspare, hspare'⟩ := controlByte_spare r.cond r.isJump r.mark r.hold
  obtain ⟨hjump, -, -, -⟩ := controlByte_codes r.cond r.isJump r.mark r.hold
  have hle := toNat_routeFieldByte_le r.routeA
  have hle' := toNat_routeFieldByte_le r.routeB
  rw [← Bool.not_eq_true, stepBad_iff]
  unfold StepRecordBad
  rw [ha, hb, hcontrol, hdwell, hspare, hspare', hjump]
  unfold StepRecord.isJump dwellOrTarget
  cases hkind : r.kind with
  | apply d =>
    obtain ⟨hlow, hhigh⟩ := h d hkind
    dsimp only
    simp only [Bool.false_eq_true, true_and, false_and, false_or, or_false]
    omega
  | jump t =>
    have ht := t.isLt
    dsimp only
    simp only [Bool.false_eq_true, Bool.true_eq_false, true_and, false_and, false_or]
    omega

theorem stepOf_stepBytes {r : StepRecord} (h : DwellInRange r) (more : List Byte) :
    stepOf (stepBytes r ++ more) 0 = r := by
  obtain ⟨ha, hb, hcontrol, hdwell⟩ := val_of_stepBytes h more
  obtain ⟨hjump, hmark, hhold, hcond⟩ := controlByte_codes r.cond r.isJump r.mark r.hold
  have hbyte : val1 (stepBytes r ++ more) 2 = (controlByte r.cond r.isJump r.mark r.hold).toNat :=
    congrArg BitVec.toNat hcontrol
  unfold stepOf
  simp only [Nat.zero_add, ha, hb, hbyte, hcontrol, hdwell, hjump, hmark, hhold, hcond, routeFieldOfVal_byte]
  unfold StepRecord.isJump dwellOrTarget
  obtain ⟨kind, routeA, routeB, cond, mark, hold⟩ := r
  cases kind with
  | apply d => rfl
  | jump t => simp only [if_true, Fin.ofNat_val_eq_self]

theorem getD_append_add (pre l : List Byte) (k : Nat) : (pre ++ l).getD (pre.length + k) 0 = l.getD k 0 := by
  rw [List.getD_append_right _ _ _ _ (Nat.le_add_right ..), Nat.add_sub_cancel_left]

theorem val1_append_add (pre l : List Byte) (k : Nat) : val1 (pre ++ l) (pre.length + k) = val1 l k :=
  congrArg BitVec.toNat (getD_append_add pre l k)

theorem val1_append_length (pre l : List Byte) : val1 (pre ++ l) pre.length = val1 l 0 := val1_append_add pre l 0

theorem val2_append_add (pre l : List Byte) (k : Nat) : val2 (pre ++ l) (pre.length + k) = val2 l k := by
  unfold val2
  rw [Nat.add_assoc, val1_append_add, val1_append_add]

theorem stepBad_append (pre l : List Byte) : stepBad (pre ++ l) pre.length = stepBad l 0 := by
  simp only [stepBad, val2_append_add, val1_append_add, val1_append_length, getD_append_add, Nat.zero_add]

theorem stepOf_append (pre l : List Byte) : stepOf (pre ++ l) pre.length = stepOf l 0 := by
  simp only [stepOf, val2_append_add, val1_append_add, val1_append_length, getD_append_add, Nat.zero_add]

theorem length_flatMap_stepBytes (rs : List StepRecord) : (rs.flatMap stepBytes).length = 5 * rs.length := by
  induction rs with
  | nil => rfl
  | cons r rest ih =>
    rw [List.flatMap_cons, List.length_append, length_stepBytes, ih, List.length_cons]
    omega

/-- The record at place `i` stands at byte 3 + 5 * i of the parameters. -/
theorem record_of_stepParams {rs : List StepRecord} {i : Nat} (head : List Byte) (hhead : head.length = 3)
    (hi : i < rs.length) :
    ∃ pre more, head ++ rs.flatMap stepBytes = pre ++ (stepBytes rs[i] ++ more) ∧ pre.length = 3 + 5 * i := by
  refine ⟨head ++ (rs.take i).flatMap stepBytes, (rs.drop (i + 1)).flatMap stepBytes, ?_, ?_⟩
  · rw [List.append_assoc, ← List.flatMap_cons, ← List.drop_eq_getElem_cons hi, ← List.flatMap_append,
      List.take_append_drop]
  · rw [List.length_append, hhead, length_flatMap_stepBytes, List.length_take, Nat.min_eq_left (Nat.le_of_lt hi)]

/-! ## LOAD_STEPS -/

theorem writeSteps_frame (ps : List Byte) (first n : Nat) (s : State) :
    writeSteps ps first n s = { s with steps := (writeSteps ps first n s).steps } := by
  induction n with
  | zero => rfl
  | succ n ih =>
    unfold writeSteps
    rw [ih]
    rfl

theorem step_writeSteps (ps : List Byte) {first n : Nat} (h : first + n ≤ 512) (s : State) (m : StepId) :
    (writeSteps ps first n s).step m =
      if first ≤ m.1 ∧ m.1 < first + n then stepOf ps (3 + 5 * (m.1 - first)) else s.step m := by
  induction n with
  | zero => exact (if_neg (by omega)).symm
  | succ n ih =>
    have hval : (Fin.ofNat 512 (first + n)).1 = first + n := Nat.mod_eq_of_lt (by omega)
    unfold writeSteps
    rw [step_setStep, ih (by omega)]
    by_cases hm : m = Fin.ofNat 512 (first + n)
    · have hm' : m.1 = first + n := by rw [hm, hval]
      rw [if_pos hm, if_pos (by omega), hm', Nat.add_sub_cancel_left]
    · have hm' : m.1 ≠ first + n := fun heq => hm (Fin.ext (heq.trans hval.symm))
      rw [if_neg hm]
      exact if_congr (by omega) rfl rfl

/-- R76: the length, the count and the first step pass. -/
def StepParamsFit (ps : List Byte) : Prop :=
  ¬ (ps.length ≠ 3 + 5 * val1 ps 2 ∨ val1 ps 2 < 1 ∨ 8 < val1 ps 2 ∨ 511 < val2 ps 0 ∨ 512 < val2 ps 0 + val1 ps 2)

theorem exec_loadSteps_taken {f : Request} {s : State} (h : ForThisNode f s) (hfit : StepParamsFit f.params)
    (hgood : ∀ i, i < val1 f.params 2 → stepBad f.params (3 + 5 * i) = false) :
    exec (.loadSteps f) s =
      .next (answered 0x14 f ⟨.ok, []⟩ (writeSteps f.params (val2 f.params 0) (val1 f.params 2) s)) := by
  refine exec_answers rfl h ?_
  have hfind : (List.range (val1 f.params 2)).find? (fun i => stepBad f.params (3 + 5 * i)) = none :=
    List.find?_eq_none.mpr fun i hi =>
      Bool.not_eq_true _ ▸ hgood i (List.mem_range.mp hi)
  unfold loadStepsUnit
  dsimp only
  rw [if_neg hfit, hfind]
  rfl

theorem exec_loadSteps_badRecord {f : Request} {s : State} {i : Nat} (h : ForThisNode f s)
    (hfit : StepParamsFit f.params) (hi : i < val1 f.params 2) (hbad : StepRecordBad f.params (3 + 5 * i))
    (hfirst : ∀ j, j < i → ¬ StepRecordBad f.params (3 + 5 * j)) :
    exec (.loadSteps f) s = .next (answered 0x14 f ⟨.eArg, [byteOf i]⟩ s) := by
  refine exec_answers rfl h ?_
  have hfind : (List.range (val1 f.params 2)).find? (fun i => stepBad f.params (3 + 5 * i)) = some i :=
    List.find?_range_eq_some.mpr ⟨(stepBad_iff ..).mpr hbad, List.mem_range.mpr hi, fun j hj => by
      rw [Bool.not_eq_true', ← Bool.not_eq_true, stepBad_iff]
      exact hfirst j hj⟩
  unfold loadStepsUnit
  dsimp only
  rw [if_neg hfit, hfind]
  rfl

/-- Settles O20: each record is read back from its five bytes, and `step_writeSteps` says where it is written. -/
theorem loadStepsWrites : Obligations.LoadStepsWrites := by
  intro f s h
  refine ⟨fun first rs hlow hhigh hlast hdwell hps => ?taken, fun hbad => ?unfit,
    fun hlen hcount hlast hfirst i hi hbad hmin => ?record⟩
  case taken =>
    have hval : val2 f.params 0 = first := by
      simp only [hps, bytes2, val2, List.cons_append, List.nil_append, val1_cons_succ, val1_cons_zero, toNat_byteOf]
      exact two_bytes first (by omega)
    have hcount : val1 f.params 2 = rs.length := by
      simp only [hps, bytes2, List.cons_append, List.nil_append, val1_cons_succ, val1_cons_zero, toNat_byteOf]
      omega
    have hlen : f.params.length = 3 + 5 * rs.length := by
      simp only [hps, List.length_append, length_bytes2, List.length_singleton, length_flatMap_stepBytes]
    have hfit : StepParamsFit f.params := by
      unfold StepParamsFit
      rw [hval, hcount, hlen]
      omega
    have hrecord : ∀ i (hi : i < rs.length),
        stepBad f.params (3 + 5 * i) = false ∧ stepOf f.params (3 + 5 * i) = rs[i] := by
      intro i hi
      obtain ⟨pre, more, hsplit, hpre⟩ := record_of_stepParams (bytes2 first ++ [byteOf rs.length]) rfl hi
      have hrange : DwellInRange rs[i] := hdwell _ (List.getElem_mem hi)
      rw [hps, hsplit, ← hpre, stepBad_append, stepOf_append]
      exact ⟨stepBad_stepBytes hrange more, stepOf_stepBytes hrange more⟩
    have hexec := exec_loadSteps_taken h hfit fun i hi => (hrecord i (hcount ▸ hi)).1
    rw [hval, hcount] at hexec
    refine ⟨_, hexec, writeSteps_frame .., fun n => ?_⟩
    rw [step_writeSteps _ hlast]
    by_cases hn : first ≤ n.1
    · by_cases hn' : n.1 < first + rs.length
      · have hi : n.1 - first < rs.length := by omega
        rw [if_pos ⟨hn, hn'⟩, if_pos hn, (hrecord _ hi).2, List.getD_eq_getElem _ _ hi]
      · rw [if_neg fun hboth => hn' hboth.2, if_pos hn, List.getD_eq_default _ _ (by omega)]
    · rw [if_neg fun hboth => hn hboth.1, if_neg hn]
  case unfit => exact exec_answers rfl h (if_pos hbad)
  case record =>
    have hfit : StepParamsFit f.params := by
      unfold StepParamsFit
      omega
    exact exec_loadSteps_badRecord h hfit hi hbad hmin

end Sys2Proof.Machine
end

section
/-! PROOF. OPEN_PATH, SWAP_PATH, CLOSE_PATH and CANCEL_CHANGE (R21 to R28, R35 to R38, R53). -/

namespace Sys2Proof.Machine

/-! ## The parameters of the path requests (R21) -/

theorem val1_of_fin {n : Nat} (hn : n ≤ 256) (i : Fin n) (more : List Byte) : val1 (byteOf i.1 :: more) 0 = i.1 :=
  val1_byteOf _ _ (Nat.lt_of_lt_of_le i.isLt hn)

theorem isNormal_iff (s : State) : s.isNormal = true ↔ s.safe.state = .normal := decide_eq_true_iff

theorem stationOf_none {f : Request} (h : f.station ≠ 1 ∧ f.station ≠ 2) : stationOf f.station = none :=
  (stationOf_eq_none_iff _).mpr h

theorem openPathUnit_bad {f : Request} (s : State)
    (h : f.station ≠ 1 ∧ f.station ≠ 2 ∨ f.params.length ≠ 1 ∨ 127 < val1 f.params 0) :
    openPathUnit f.station f.params s = (⟨.eArg, [0xFF]⟩, s) := by
  unfold openPathUnit
  split
  next => rfl
  next st hst =>
    rcases h with h | h
    · rw [stationOf_none h] at hst
      cases hst
    · exact if_pos h

theorem openPathUnit_good {f : Request} {st : Station} {r : RouteId} (s : State) (hst : NamesStation f st)
    (hps : f.params = [byteOf r.1]) :
    openPathUnit f.station f.params s = if !s.isNormal then refuse .eSafe [] s else openChecked st r s := by
  have hval := val1_of_fin (by decide) r []
  have hgood : ¬ ([byteOf r.1].length ≠ 1 ∨ 127 < r.1) := by
    simp only [List.length_singleton, ne_eq, not_true_eq_false, false_or]
    omega
  unfold openPathUnit
  rw [stationOf_named f st hst, hps]
  dsimp only
  rw [hval, if_neg hgood, Fin.ofNat_val_eq_self]

theorem swapPathUnit_bad {f : Request} (s : State)
    (h : f.station ≠ 1 ∧ f.station ≠ 2 ∨ f.params.length ≠ 2 ∨ 15 < val1 f.params 0 ∨ 127 < val1 f.params 1) :
    swapPathUnit f.station f.params s = (⟨.eArg, [0xFF]⟩, s) := by
  unfold swapPathUnit
  split
  next => rfl
  next st hst =>
    rcases h with h | h
    · rw [stationOf_none h] at hst
      cases hst
    · exact if_pos h

theorem swapPathUnit_good {f : Request} {st : Station} {o : Slot} {r : RouteId} (s : State) (hst : NamesStation f st)
    (hps : f.params = [byteOf o.1, byteOf r.1]) :
    swapPathUnit f.station f.params s = if !s.isNormal then refuse .eSafe [] s else swapChecked st o r s := by
  have hval := val1_of_fin (by decide) o [byteOf r.1]
  have hval' : val1 [byteOf o.1, byteOf r.1] 1 = r.1 := val1_of_fin (by decide) r []
  have hgood : ¬ ([byteOf o.1, byteOf r.1].length ≠ 2 ∨ 15 < o.1 ∨ 127 < r.1) := by
    simp only [List.length_cons, List.length_nil, ne_eq, Nat.reduceAdd, not_true_eq_false, false_or]
    omega
  unfold swapPathUnit
  rw [stationOf_named f st hst, hps]
  dsimp only
  rw [hval, hval', if_neg hgood, Fin.ofNat_val_eq_self, Fin.ofNat_val_eq_self]

theorem slotParams_good (p : Slot) : ¬ ([byteOf p.1].length ≠ 1 ∨ 15 < p.1) := by
  simp only [List.length_singleton, ne_eq, not_true_eq_false, false_or]
  omega

theorem closePathUnit_bad {f : Request} (s : State)
    (h : f.station ≠ 1 ∧ f.station ≠ 2 ∨ f.params.length ≠ 1 ∨ 15 < val1 f.params 0) :
    closePathUnit f.station f.params s = (⟨.eArg, [0xFF]⟩, s) := by
  unfold closePathUnit
  split
  next => rfl
  next st hst =>
    rcases h with h | h
    · rw [stationOf_none h] at hst
      cases hst
    · exact if_pos h

theorem closePathUnit_good {f : Request} {st : Station} {p : Slot} (s : State) (hst : NamesStation f st)
    (hps : f.params = [byteOf p.1]) :
    closePathUnit f.station f.params s = if !s.isNormal then answer [] s else closeChecked st p s := by
  have hval := val1_of_fin (by decide) p []
  unfold closePathUnit
  rw [stationOf_named f st hst, hps]
  dsimp only
  rw [hval, if_neg (slotParams_good p), Fin.ofNat_val_eq_self]

theorem cancelChangeUnit_bad {f : Request} (s : State)
    (h : f.station ≠ 1 ∧ f.station ≠ 2 ∨ f.params.length ≠ 1 ∨ 15 < val1 f.params 0) :
    cancelChangeUnit f.station f.params s = (⟨.eArg, [0xFF]⟩, s) := by
  unfold cancelChangeUnit
  split
  next => rfl
  next st hst =>
    rcases h with h | h
    · rw [stationOf_none h] at hst
      cases hst
    · exact if_pos h

theorem cancelChangeUnit_good {f : Request} {st : Station} {p : Slot} (s : State) (hst : NamesStation f st)
    (hps : f.params = [byteOf p.1]) :
    cancelChangeUnit f.station f.params s = cancelChecked st p s := by
  have hval := val1_of_fin (by decide) p []
  unfold cancelChangeUnit
  rw [stationOf_named f st hst, hps]
  dsimp only
  rw [hval, if_neg (slotParams_good p), Fin.ofNat_val_eq_self]

/-! ## OPEN_PATH (R21 to R24) -/

theorem legsAny_iff (legs : List RouteLeg) (b : BankId) :
    (legs.any fun l => decide (l.bank = b)) = true ↔ b ∈ legs.map RouteLeg.bank := by
  simp only [List.any_eq_true, decide_eq_true_eq, List.mem_map]

theorem lowestFree_eq_none {s : State} (h : ∀ q, (s.path q).state ≠ .free) : s.lowestFree = none := by
  refine List.find?_eq_none.mpr fun q _ hq => ?_
  rw [Bool.not_eq_true', State.slotUsed, decide_eq_false_iff_not, not_not] at hq
  exact h q hq

theorem openChecked_refused {st : Station} {r : RouteId} {s : State} {x : Reply}
    (h : acceptanceRefusal s st (s.route r) none = some x) : openChecked st r s = (x, s) := by
  unfold openChecked acceptMake
  rw [h]

theorem openChecked_full {st : Station} {r : RouteId} {s : State}
    (h : acceptanceRefusal s st (s.route r) none = none) (hfull : ∀ q, (s.path q).state ≠ .free) :
    openChecked st r s = (⟨.eFull, []⟩, s) := by
  unfold openChecked acceptMake
  rw [h, lowestFree_eq_none hfull]

theorem openChecked_taken {st : Station} {r : RouteId} {s : State} {p : Slot}
    (h : acceptanceRefusal s st (s.route r) none = none) (hp : LowestFree s p) :
    openChecked st r s =
      (⟨.queued, [byteOf p.1, byteOf (aheadOn s (s.route r).plane)]⟩, react (placeMake s st (.request st) r p)) := by
  unfold openChecked acceptMake
  rw [h, (lowestFree_eq_some s p).mpr hp]
  rfl

theorem exec_openPath_normal {f : Request} {s t : State} {st : Station} {r : RouteId} {x : Reply}
    (h : ForThisNode f s) (hst : NamesStation f st) (hps : f.params = [byteOf r.1]) (hnormal : s.safe.state = .normal)
    (hopen : openChecked st r s = (x, t)) : exec (.openPath f) s = .next (answered 0x20 f x t) :=
  exec_answers rfl h (by
    rw [openPathUnit_good s hst hps, (isNormal_iff s).mpr hnormal]
    exact hopen)

/-- Settles O21: a MAKE that passes is placed in the lowest FREE slot, and the laws of `placeMake` say what that
writes. -/
theorem openPathAccepted : Obligations.OpenPathAccepted := by
  intro f s st r p h hst hnormal hps hacceptable hp
  have hpass := (acceptanceRefusal_eq_none s st (s.route r) none [] (.inl ⟨rfl, rfl⟩)).mpr hacceptable
  refine ⟨placeMake s st (.request st) r p, exec_openPath_normal h hst hps hnormal (openChecked_taken hpass hp),
    frame_placeMake .., ?_, fun q hq => ?_, fun b => ?_, queue_placeMake ..⟩
  · rw [path_placeMake, if_pos rfl]
    rfl
  · rw [path_placeMake, if_neg hq]
  · rw [bank_placeMake]
    exact if_congr (legsAny_iff _ b) rfl rfl

/-! ## SWAP_PATH (R26, R27) -/

theorem swapChecked_oldSlot {st : Station} {o : Slot} {r : RouteId} {s : State} {x : Reply}
    (h : oldSlotRefusal s st o = some x) : swapChecked st o r s = (x, s) := by
  unfold swapChecked acceptSwap
  rw [h]

theorem swapChecked_refused {st : Station} {o : Slot} {r : RouteId} {s : State} {x : Reply}
    (ho : oldSlotRefusal s st o = none) (h : acceptanceRefusal s st (s.route r) (some o) = some x) :
    swapChecked st o r s = (x, s) := by
  unfold swapChecked acceptSwap
  rw [ho, h]

theorem swapChecked_full {st : Station} {o : Slot} {r : RouteId} {s : State} (ho : oldSlotRefusal s st o = none)
    (h : acceptanceRefusal s st (s.route r) (some o) = none) (hfull : ∀ q, (s.path q).state ≠ .free) :
    swapChecked st o r s = (⟨.eFull, []⟩, s) := by
  unfold swapChecked acceptSwap
  rw [ho, h, lowestFree_eq_none hfull]

theorem swapChecked_taken {st : Station} {o : Slot} {r : RouteId} {s : State} {p : Slot}
    (ho : oldSlotRefusal s st o = none) (h : acceptanceRefusal s st (s.route r) (some o) = none)
    (hp : LowestFree s p) :
    swapChecked st o r s =
      (⟨.queued, [byteOf o.1, byteOf p.1, byteOf (aheadOn s (s.route r).plane)]⟩,
        react (placeSwap s st (.request st) o r p)) := by
  unfold swapChecked acceptSwap
  rw [ho, h, (lowestFree_eq_some s p).mpr hp]
  rfl

theorem exec_swapPath_normal {f : Request} {s t : State} {st : Station} {o : Slot} {r : RouteId} {x : Reply}
    (h : ForThisNode f s) (hst : NamesStation f st) (hps : f.params = [byteOf o.1, byteOf r.1])
    (hnormal : s.safe.state = .normal) (hswap : swapChecked st o r s = (x, t)) :
    exec (.swapPath f) s = .next (answered 0x22 f x t) :=
  exec_answers rfl h (by
    rw [swapPathUnit_good s hst hps, (isNormal_iff s).mpr hnormal]
    exact hswap)

theorem oldSlotRefusal_none {s : State} {st : Station} {o : Slot}
    (hstate : (s.path o).state = .live ∨ (s.path o).state = .settling) (hst : (s.path o).station = some st) :
    oldSlotRefusal s st o = none := by
  have hused : (s.path o).state ≠ .free := by
    rcases hstate with h | h <;> rw [h] <;> decide
  unfold oldSlotRefusal
  dsimp only
  rw [if_neg hused, if_neg (not_not.mpr hst), if_pos hstate]

theorem oldSlotRefusal_state {s : State} {st : Station} {o : Slot} {x : PathState} (hx : (s.path o).state = x)
    (hst : (s.path o).station = some st) (hused : x ≠ .free) (hlive : x ≠ .live) (hsettling : x ≠ .settling) :
    oldSlotRefusal s st o = some ⟨.eState, [pathStateByte x]⟩ := by
  unfold oldSlotRefusal
  dsimp only
  rw [hx, if_neg hused, if_neg (not_not.mpr hst), if_neg (not_or.mpr ⟨hlive, hsettling⟩)]

theorem slotRoute_of_route {s : State} {o : Slot} {r : RouteId} (h : (s.path o).route = some r) :
    s.slotRoute o = some (s.route r) := by
  unfold State.slotRoute
  rw [h]
  rfl

theorem slotLegs_of_route {s : State} {o : Slot} {r : RouteId} (h : (s.path o).route = some r) :
    s.slotLegs o = (s.route r).legs := by
  unfold State.slotLegs
  rw [slotRoute_of_route h]

theorem slotPlane_of_route {s : State} {o : Slot} {r : RouteId} (h : (s.path o).route = some r) :
    s.slotPlane o = (s.route r).plane := by
  unfold State.slotPlane
  rw [slotRoute_of_route h]

theorem swap_passes {s : State} {st : Station} {o : Slot} {r r0 : RouteId} (hroute : (s.path o).route = some r0)
    (hplane : (s.route r0).plane = (s.route r).plane)
    (h : Acceptable s st (s.route r) (some o) (s.route r0).legs) :
    acceptanceRefusal s st (s.route r) (some o) = none :=
  (acceptanceRefusal_eq_none s st (s.route r) (some o) (s.route r0).legs
    (.inr ⟨o, s.route r0, rfl, slotRoute_of_route hroute, hplane, rfl⟩)).mpr h

/-- Settles O22: each refusal leaves the state, and the order of the tests is that of the two units. -/
theorem openPathRefused : Obligations.OpenPathRefused := by
  intro f s h
  refine ⟨fun hbad => exec_answers rfl h (openPathUnit_bad s hbad),
    fun st r hst hps => ⟨fun houtside => ?openSafe,
      fun hnormal => ⟨fun k x hfirst => ?openFails, fun hok hfull => ?openFull⟩⟩,
    fun hbad => exec_answers rfl h (swapPathUnit_bad s hbad),
    fun st o r hst hps => ⟨fun houtside => ?swapSafe,
      fun hnormal => ⟨fun hfree => ?swapFree, fun hused hother => ?swapOther, fun hown =>
        ⟨fun hstate => ?forming, fun hstate => ?closing, fun hstate => ?failed,
        fun r0 hstate hroute => ⟨fun k x hfirst => ?swapFails, fun hplane hok hfull => ?swapFull⟩⟩⟩⟩⟩
  case openSafe =>
    have hnot : s.isNormal = false := decide_eq_false houtside
    exact exec_answers rfl h (by rw [openPathUnit_good s hst hps, hnot]; rfl)
  case openFails =>
    exact exec_openPath_normal h hst hps hnormal
      (openChecked_refused (acceptanceRefusal_of_firstFailure _ _ _ _ _ _ k x (.inl ⟨rfl, rfl, rfl⟩) hfirst))
  case openFull =>
    exact exec_openPath_normal h hst hps hnormal
      (openChecked_full ((acceptanceRefusal_eq_none s st (s.route r) none [] (.inl ⟨rfl, rfl⟩)).mpr hok) hfull)
  case swapSafe =>
    have hnot : s.isNormal = false := decide_eq_false houtside
    exact exec_answers rfl h (by rw [swapPathUnit_good s hst hps, hnot]; rfl)
  case swapFree => exact exec_swapPath_normal h hst hps hnormal (swapChecked_oldSlot (if_pos hfree))
  case swapOther =>
    exact exec_swapPath_normal h hst hps hnormal (swapChecked_oldSlot ((if_neg hused).trans (if_pos hother)))
  case forming =>
    exact exec_swapPath_normal h hst hps hnormal
      (swapChecked_oldSlot (oldSlotRefusal_state hstate hown (by decide) (by decide) (by decide)))
  case closing =>
    exact exec_swapPath_normal h hst hps hnormal
      (swapChecked_oldSlot (oldSlotRefusal_state hstate hown (by decide) (by decide) (by decide)))
  case failed =>
    exact exec_swapPath_normal h hst hps hnormal
      (swapChecked_oldSlot (oldSlotRefusal_state hstate hown (by decide) (by decide) (by decide)))
  case swapFails =>
    exact exec_swapPath_normal h hst hps hnormal
      (swapChecked_refused (oldSlotRefusal_none hstate hown)
        (acceptanceRefusal_of_firstFailure _ _ _ _ _ _ k x
          (.inr ⟨o, s.route r0, rfl, slotRoute_of_route hroute, rfl, rfl⟩) hfirst))
  case swapFull =>
    exact exec_swapPath_normal h hst hps hnormal
      (swapChecked_full (oldSlotRefusal_none hstate hown) (swap_passes hroute hplane hok) hfull)

theorem priorOf_live_or_settling {x : PathState} (h : x = .live ∨ x = .settling) :
    priorOf x = some (if x = .live then .live else .settling) := by
  rcases h with rfl | rfl <;> rfl

/-- Settles O23: a SWAP that passes is placed, and the laws of `placeSwap` say what that writes. -/
theorem swapPathAccepted : Obligations.SwapPathAccepted := by
  intro f s st o p r r0 h hst hnormal hps hstate hown hroute hplane hok hp
  have hlegs := slotLegs_of_route hroute
  have hne : o ≠ p := fun heq => by
    have hfree := hp.1
    rw [← heq] at hfree
    rcases hstate with hlive | hlive <;> rw [hfree] at hlive <;> cases hlive
  have htaken := swapChecked_taken (oldSlotRefusal_none hstate hown) (swap_passes hroute hplane hok) hp
  refine ⟨placeSwap s st (.request st) o r p, exec_swapPath_normal h hst hps hnormal htaken, frame_placeSwap ..,
    ?_, ?_, fun q hqo hqp => ?_, fun b => ?_, ?_⟩
  · rw [path_placeSwap, if_neg hne, if_pos rfl, hlegs, priorOf_live_or_settling hstate]
  · rw [path_placeSwap, if_pos rfl, hlegs]
    rfl
  · rw [path_placeSwap, if_neg hqp, if_neg hqo]
  · rw [bank_placeSwap, hlegs]
    exact if_congr (legsAny_iff _ b) (if_congr (legsAny_iff _ b) rfl rfl) rfl
  · rw [queue_placeSwap, hlegs]

/-- Settles O24: membership in the two leg lists, as the plan tests it. -/
theorem swapPlanOrder : Obligations.SwapPlanOrder := by
  intro olds news
  have hbank : ∀ l : RouteLeg,
      ((news.any fun x => decide (x.bank = l.bank)) = true) ↔ l.bank ∈ news.map RouteLeg.bank :=
    fun l => legsAny_iff news l.bank
  have hmem : ∀ (legs : List RouteLeg) (l : RouteLeg), (!legs.contains l) = decide (l ∉ legs) := fun legs l => by
    rw [List.contains_eq_mem, decide_not]
  simp only [swapPlan, makePlan, hmem, hbank]

end Sys2Proof.Machine
end

section
/-! PROOF. CLOSE_PATH and CANCEL_CHANGE (R28, R34 to R37, R84, R95). -/

namespace Sys2Proof.Machine

/-! ## CLOSE_PATH (R28, R36) -/

theorem exec_closePath_normal {f : Request} {s t : State} {st : Station} {p : Slot} {x : Reply}
    (h : ForThisNode f s) (hst : NamesStation f st) (hps : f.params = [byteOf p.1]) (hnormal : s.safe.state = .normal)
    (hclose : closeChecked st p s = (x, t)) : exec (.closePath f) s = .next (answered 0x21 f x t) :=
  exec_answers rfl h (by
    rw [closePathUnit_good s hst hps, (isNormal_iff s).mpr hnormal]
    exact hclose)

theorem closeChecked_free {s : State} (st : Station) {p : Slot} (h : (s.path p).state = .free) :
    closeChecked st p s = (⟨.eState, [0x00]⟩, s) := if_pos h

theorem closeChecked_other {s : State} {st : Station} {p : Slot} (hused : (s.path p).state ≠ .free)
    (h : (s.path p).station ≠ some st) : closeChecked st p s = (⟨.eClaim, [0xFF]⟩, s) :=
  (if_neg hused).trans (if_pos h)

theorem closeChecked_closing {s : State} {st : Station} {p : Slot} (h : (s.path p).state = .closing)
    (hst : (s.path p).station = some st) : closeChecked st p s = (⟨.eState, [0x04]⟩, s) := by
  have hused : (s.path p).state ≠ .free := by rw [h]; decide
  exact (if_neg hused).trans ((if_neg (not_not.mpr hst)).trans (if_pos h))

/-- The tests of R36 pass: what follows is the split on the path's state. -/
theorem closeChecked_passes {s : State} {st : Station} {p : Slot} (hused : (s.path p).state ≠ .free)
    (hclosing : (s.path p).state ≠ .closing) (hst : (s.path p).station = some st) :
    closeChecked st p s =
      if (s.path p).closeOwed then refuse .eState [0x06] s
      else
        match (s.path p).state, s.entryNaming p with
        | .forming, some e => closeForming p e s
        | _, _ =>
          settleRequest
            (⟨.queued, [byteOf p.1, byteOf (s.entriesOn (s.slotPlane p))]⟩,
             acceptBreak p (.request st) (priorOf (s.path p).state) s) :=
  (if_neg hused).trans ((if_neg (not_not.mpr hst)).trans (if_neg hclosing))

theorem closeChecked_owed {s : State} {st : Station} {p : Slot} (hused : (s.path p).state ≠ .free)
    (hclosing : (s.path p).state ≠ .closing) (hst : (s.path p).station = some st)
    (howed : (s.path p).closeOwed = true) : closeChecked st p s = (⟨.eState, [0x06]⟩, s) := by
  rw [closeChecked_passes hused hclosing hst]
  exact if_pos howed

theorem closeChecked_forming {s : State} {st : Station} {p : Slot} {e : Entry} (hforming : (s.path p).state = .forming)
    (hst : (s.path p).station = some st) (howed : (s.path p).closeOwed = false) (he : s.entryNaming p = some e) :
    closeChecked st p s = closeForming p e s := by
  rw [closeChecked_passes (by rw [hforming]; decide) (by rw [hforming]; decide) hst, howed, hforming, he]
  rfl

theorem closeChecked_breaks {s : State} {st : Station} {p : Slot} {r : RouteId}
    (hstate : (s.path p).state = .live ∨ (s.path p).state = .settling ∨ (s.path p).state = .failed)
    (hst : (s.path p).station = some st) (hroute : (s.path p).route = some r) (howed : (s.path p).closeOwed = false) :
    closeChecked st p s =
      (⟨.queued, [byteOf p.1, byteOf (aheadOn s (s.route r).plane)]⟩,
        react (acceptBreak p (.request st) (priorOf (s.path p).state) s)) := by
  have hused : (s.path p).state ≠ .free := by
    rcases hstate with h | h | h <;> rw [h] <;> decide
  have hclosing : (s.path p).state ≠ .closing := by
    rcases hstate with h | h | h <;> rw [h] <;> decide
  rw [closeChecked_passes hused hclosing hst, howed, slotPlane_of_route hroute]
  rcases hstate with h | h | h <;> rw [h] <;> rfl

/-- Settles O25: the BREAK is accepted, and the laws of `acceptBreak` say what that writes. -/
theorem closePathBreaks : Obligations.ClosePathBreaks := by
  intro f s st p r h hst hnormal hps hstate hown hroute howed
  have hpath : (acceptBreak p (.request st) (priorOf (s.path p).state) s).path p = _ :=
    (path_acceptBreak p (.request st) (priorOf (s.path p).state) s p).trans (if_pos rfl)
  refine ⟨acceptBreak p (.request st) (priorOf (s.path p).state) s,
    exec_closePath_normal h hst hps hnormal (closeChecked_breaks hstate hown hroute howed), frame_acceptBreak .., ?_⟩
  rw [hpath]
  refine ⟨rfl, ?_, rfl, rfl, ?_, rfl, rfl, fun q hq => ?_, ?_⟩
  · rcases hstate with hx | hx | hx <;> rw [hx] <;> rfl
  · show s.legsReleased p = _
    rw [State.legsReleased, slotLegs_of_route hroute]
  · rw [path_acceptBreak, if_neg hq]
  · rw [queue_acceptBreak, slotPlane_of_route hroute, State.heldBanks, slotLegs_of_route hroute]
    rfl

/-! ## A SWAP that becomes a BREAK (R36, R84) -/

/-- R84: the sequencer that made the SWAP drops the new slot from its pending record. -/
def conversionNoticed (e : Entry) (s : State) : State :=
  match e.origin with
  | .sequencer st => s.setRun st ((s.seq st).run.convertChange e)
  | _ => s

/-- R36: the new slot is freed, and its banks are returned or released. -/
def conversionFreed (e : Entry) (o n : Slot) (s : State) : State := freeSlot n (returnBanks o n (conversionNoticed e s))

/-- R28: the old slot counts the banks that it no longer holds. -/
def conversionCounted (e : Entry) (o n : Slot) (s : State) : State :=
  (conversionFreed e o n s).setPath o
    { (conversionFreed e o n s).path o with legsDone := (conversionFreed e o n s).legsReleased o }

/-- R60: the driver gives up the held leg of a head. -/
def giveUpHeld (e : Entry) (s : State) : State := if s.headOf e.plane = some e then clearHeld e.plane s else s

/-- The conversion up to the entry's own rewriting. -/
def conversionHeld (e : Entry) (o n : Slot) (s : State) : State := giveUpHeld e (conversionCounted e o n s)

theorem convertSwap_eq (e : Entry) (o n : Slot) (s : State) :
    convertSwap e o n s =
      (conversionHeld e o n s).setQueue
        (replaceFirst e
          { e with kind := .breakChange, new := none, plan := breakPlan ((conversionHeld e o n s).heldBanks o) }
          (conversionHeld e o n s).queue) := rfl

theorem conversionNoticed_frame (e : Entry) (s : State) :
    conversionNoticed e s = { s with seqs := (conversionNoticed e s).seqs } := by
  unfold conversionNoticed
  split <;> rfl

theorem conversionNoticed_keeps (e : Entry) (s : State) :
    (conversionNoticed e s).banks = s.banks ∧ (conversionNoticed e s).paths = s.paths ∧
      (conversionNoticed e s).routes = s.routes ∧ (conversionNoticed e s).queue = s.queue := by
  rw [conversionNoticed_frame]
  exact ⟨rfl, rfl, rfl, rfl⟩

theorem giveUpHeld_keeps (e : Entry) (s : State) :
    (giveUpHeld e s).banks = s.banks ∧ (giveUpHeld e s).paths = s.paths ∧ (giveUpHeld e s).routes = s.routes ∧
      (giveUpHeld e s).queue = s.queue ∧ (giveUpHeld e s).seqs = s.seqs ∧ (giveUpHeld e s).events = s.events := by
  unfold giveUpHeld
  split <;> exact ⟨rfl, rfl, rfl, rfl, rfl, rfl⟩

theorem driver_giveUpHeld {e : Entry} {s : State} (h : s.headOf e.plane = some e) :
    ((giveUpHeld e s).driver e.plane).held = none ∧ ((giveUpHeld e s).driver e.plane).waiting = none := by
  unfold giveUpHeld
  rw [if_pos h, clearHeld, driver_setDriver, if_pos rfl]
  exact ⟨rfl, rfl⟩

theorem routes_returnBanks (o n : Slot) (s : State) : (returnBanks o n s).routes = s.routes := routes_mapBanks s _

theorem routes_freeSlot (p : Slot) (s : State) : (freeSlot p s).routes = s.routes := by
  rw [pathWork_freeSlot]

theorem conversionFreed_keeps (e : Entry) (o n : Slot) (s : State) :
    (conversionFreed e o n s).routes = s.routes ∧ (conversionFreed e o n s).queue = s.queue := by
  obtain ⟨-, -, hroutes, hqueue⟩ := conversionNoticed_keeps e s
  refine ⟨?_, ?_⟩
  · rw [conversionFreed, routes_freeSlot, routes_returnBanks, hroutes]
  · rw [conversionFreed, queue_freeSlot, returnBanks, queue_mapBanks, hqueue]

theorem conversionHeld_keeps (e : Entry) (o n : Slot) (s : State) :
    (conversionHeld e o n s).banks = (conversionFreed e o n s).banks ∧
      (conversionHeld e o n s).paths = (conversionCounted e o n s).paths ∧
      (conversionHeld e o n s).routes = s.routes ∧ (conversionHeld e o n s).queue = s.queue ∧
      (conversionHeld e o n s).seqs = (conversionFreed e o n s).seqs ∧
      (conversionHeld e o n s).events = (conversionFreed e o n s).events := by
  obtain ⟨hbanks, hpaths, hroutes, hqueue, hseqs, hevents⟩ := giveUpHeld_keeps e (conversionCounted e o n s)
  obtain ⟨hroutes', hqueue'⟩ := conversionFreed_keeps e o n s
  exact ⟨hbanks.trans (banks_setPath _ _ _), hpaths, (hroutes.trans (routes_setPath _ _ _)).trans hroutes',
    (hqueue.trans (queue_setPath _ _ _)).trans hqueue', hseqs.trans (seqs_setPath _ _ _),
    hevents.trans (events_setPath _ _ _)⟩

theorem path_conversionFreed (e : Entry) (o n : Slot) (s : State) (q : Slot) :
    (conversionFreed e o n s).path q = if q = n then PathRecord.free else s.path q := by
  have hpaths : (returnBanks o n (conversionNoticed e s)).paths = s.paths :=
    (paths_mapBanks _ _).trans (conversionNoticed_keeps e s).2.1
  rw [conversionFreed, path_freeSlot, path_of_paths _ _ hpaths]

theorem slotLegs_of_path {s t : State} {p : Slot} (hpath : (t.path p).route = (s.path p).route)
    (hroutes : t.routes = s.routes) : t.slotLegs p = s.slotLegs p := by
  have hroute : t.route = s.route := by
    funext r
    unfold State.route
    rw [hroutes]
  unfold State.slotLegs State.slotRoute
  rw [hpath, hroute]

/-- R35, R36: the banks of the new slot go back to the old slot or are released. -/
theorem bank_conversionFreed (e : Entry) (o n : Slot) (s : State) (hne : o ≠ n) (b : BankId) :
    (conversionFreed e o n s).bank b =
      if (s.bank b).holder = some n then
        (if b ∈ (s.slotLegs o).map RouteLeg.bank then { s.bank b with holder := some o }
         else
           { s.bank b with
             holder := none, homeOwed := (s.bank b).homeOwed || decide ((s.bank b).position ≠ some .term) })
      else s.bank b := by
  obtain ⟨hbanks, hpaths, hroutes, -⟩ := conversionNoticed_keeps e s
  have hbank := bank_of_banks _ _ hbanks b
  have hlegs : (conversionNoticed e s).slotLegs o = s.slotLegs o :=
    slotLegs_of_path (congrArg PathRecord.route (path_of_paths _ _ hpaths o)) hroutes
  have hnot : ¬ some o = some n := fun heq => hne (Option.some.inj heq)
  rw [conversionFreed, bank_freeSlot, returnBanks, bank_mapBanks, hbank, hlegs]
  by_cases hheld : (s.bank b).holder = some n
  · by_cases hmem : b ∈ (s.slotLegs o).map RouteLeg.bank
    · have hany := (legsAny_iff _ b).mpr hmem
      simp only [hheld, hmem, hany, if_true, hnot, if_false]
    · have hany : ¬ ((s.slotLegs o).any fun l => decide (l.bank = b)) = true := mt (legsAny_iff _ b).mp hmem
      simp only [hheld, hmem, hany, if_true, if_false, releasedBank, reduceCtorEq]
  · simp only [hheld, if_false]

theorem eq_append_of_replaceFirst {e : Entry} {q : List Entry} (e' : Entry) (h : e ∈ q) :
    ∃ before after, q = before ++ e :: after ∧ e ∉ before ∧ replaceFirst e e' q = before ++ e' :: after := by
  induction q with
  | nil => cases h
  | cons x rest ih =>
    by_cases hx : x = e
    · exact ⟨[], rest, by rw [hx]; rfl, List.not_mem_nil, if_pos hx⟩
    · obtain ⟨before, after, hrest, hnot, hreplaced⟩ := ih ((List.mem_cons.mp h).resolve_left (Ne.symm hx))
      refine ⟨x :: before, after, by rw [hrest]; rfl, fun hmem => ?_, ?_⟩
      · rcases List.mem_cons.mp hmem with heq | hmem
        · exact hx heq.symm
        · exact hnot hmem
      · exact (if_neg hx).trans (congrArg (x :: ·) hreplaced)

theorem seq_conversionNoticed (e : Entry) (s : State) (st : Station) :
    (conversionNoticed e s).run st = if e.origin = .sequencer st then (s.run st).convertChange e else s.run st := by
  unfold conversionNoticed
  split
  next x hx =>
    unfold State.run
    rw [seq_setRun, hx]
    by_cases hst : st = x
    · rw [if_pos hst, if_pos (by rw [hst]), hst]
    · rw [if_neg hst, if_neg fun h => hst (ChangeOrigin.sequencer.inj h).symm]
  next hno => rw [if_neg (hno st)]

theorem changes_convertChange {e : Entry} {n : Slot} (r : SeqRun) (h : e.new = some n) :
    (r.convertChange e).changes = r.changes.map fun c => if c.new = some n then { c with new := none } else c := by
  unfold SeqRun.convertChange PendingChange.isFor
  rw [h]
  simp only [decide_eq_true_eq]

theorem run_convertSwap (e : Entry) (o n : Slot) (s : State) (st : Station) :
    (convertSwap e o n s).run st = (conversionFreed e o n s).run st := by
  obtain ⟨-, -, -, -, hseqs, -⟩ := conversionHeld_keeps e o n s
  exact congrArg (fun q : ByStation Sequencer => (q.get st).run) hseqs

theorem currentsDrop_convertSwap (e : Entry) (o n : Slot) (s : State) : CurrentsDrop n s (convertSwap e o n s) := by
  intro st pl
  have hnoticed : ((conversionNoticed e s).run st).current.get pl = (s.run st).current.get pl := by
    rw [seq_conversionNoticed]
    split <;> rfl
  rw [run_convertSwap, conversionFreed, current_freeSlot, returnBanks, current_of_seqs (seqs_mapBanks _ _), hnoticed]

theorem changes_convertSwap {e : Entry} {o n : Slot} {st : Station} (s : State) (hn : e.new = some n)
    (ho : e.origin = .sequencer st) :
    ((convertSwap e o n s).run st).changes =
      (s.run st).changes.map fun c => if c.new = some n then { c with new := none } else c := by
  have hfreed : ((conversionFreed e o n s).run st).changes = ((conversionNoticed e s).run st).changes := by
    have honly : CurrentOnly (conversionNoticed e s) (conversionFreed e o n s) :=
      (currentOnly_mapBanks _ _).trans (currentOnly_freeSlot _ _)
    have hrun := congrArg (fun q : Sequencer => q.run.changes) (honly st)
    exact hrun
  rw [run_convertSwap, hfreed, seq_conversionNoticed, if_pos ho, changes_convertChange _ hn]

theorem driver_convertSwap {e : Entry} {o n : Slot} {s : State} (h : s.headOf e.plane = some e) :
    ((convertSwap e o n s).driver e.plane).held = none ∧ ((convertSwap e o n s).driver e.plane).waiting = none := by
  have hqueue : (conversionCounted e o n s).queue = s.queue :=
    (queue_setPath _ _ _).trans (conversionFreed_keeps e o n s).2
  exact driver_giveUpHeld ((headOf_of_queue hqueue e.plane).trans h)

theorem bank_convertSwap (e : Entry) (o n : Slot) (s : State) (b : BankId) :
    (convertSwap e o n s).bank b = (conversionFreed e o n s).bank b :=
  bank_of_banks _ _ ((banks_setQueue _ _).trans (conversionHeld_keeps e o n s).1) b

theorem path_convertSwap (e : Entry) (o n : Slot) (s : State) (q : Slot) :
    (convertSwap e o n s).path q = (conversionCounted e o n s).path q :=
  path_of_paths _ _ ((paths_setQueue _ _).trans (conversionHeld_keeps e o n s).2.1) q

/-- The route of the old slot stands. -/
theorem slotLegs_conversionHeld (e : Entry) {o n : Slot} (s : State) (hne : o ≠ n) :
    (conversionHeld e o n s).slotLegs o = s.slotLegs o := by
  obtain ⟨-, hpaths, hroutes, -, -, -⟩ := conversionHeld_keeps e o n s
  refine slotLegs_of_path ?_ hroutes
  rw [path_of_paths _ _ hpaths, conversionCounted, path_setPath, if_pos rfl]
  show ((conversionFreed e o n s).path o).route = _
  rw [path_conversionFreed, if_neg hne]

/-- R36: the BREAK that the entry becomes. -/
theorem heldBanks_conversionHeld (e : Entry) {o n : Slot} (s : State) (hne : o ≠ n) :
    (conversionHeld e o n s).heldBanks o =
      ((s.slotLegs o).map RouteLeg.bank).filter fun b =>
        decide (((convertSwap e o n s).bank b).holder = some o) := by
  have hbank : ∀ b, (conversionHeld e o n s).bank b = (convertSwap e o n s).bank b := fun b =>
    (bank_of_banks _ _ (banks_setQueue _ _) b).symm
  simp only [State.heldBanks, slotLegs_conversionHeld e s hne, hbank]

theorem entry_of_entryNaming {s : State} {p : Slot} {e : Entry} (h : s.entryNaming p = some e) : e ∈ s.queue :=
  List.mem_of_find?_eq_some h

/-- Settles O26: the units' tests in order; the conversion of a SWAP in its stages. -/
theorem closePathOther : Obligations.ClosePathOther := by
  refine ⟨fun f s h hbad => exec_answers rfl h (closePathUnit_bad s hbad),
    fun f s st p h hst hps => ⟨fun houtside => ?outside,
      fun hnormal => ⟨fun hfree => ?free, fun hused hother => ?other, fun hclosing hown => ?closing,
        fun hused hclosing hown howed => ?owed, fun e hforming hown howed he =>
          ⟨fun hactive => ?active, fun o hwaiting hkind hold hnew hne => ?converts⟩⟩⟩⟩
  case outside =>
    have hnot : s.isNormal = false := decide_eq_false houtside
    exact exec_answers rfl h (by rw [closePathUnit_good s hst hps, hnot]; rfl)
  case free => exact exec_closePath_normal h hst hps hnormal (closeChecked_free st hfree)
  case other => exact exec_closePath_normal h hst hps hnormal (closeChecked_other hused hother)
  case closing => exact exec_closePath_normal h hst hps hnormal (closeChecked_closing hclosing hown)
  case owed => exact exec_closePath_normal h hst hps hnormal (closeChecked_owed hused hclosing hown howed)
  case active =>
    exact exec_closePath_normal h hst hps hnormal ((closeChecked_forming hforming hown howed he).trans (if_pos hactive))
  case converts =>
    have hexec : closeChecked st p s = (⟨.ok, []⟩, react (convertSwap e o p s)) := by
      rw [closeChecked_forming hforming hown howed he, closeForming, hwaiting, hkind, hold]
      rfl
    have hlegs : (conversionFreed e o p s).slotLegs o = s.slotLegs o :=
      slotLegs_of_path (by rw [path_conversionFreed, if_neg hne]) (conversionFreed_keeps e o p s).1
    obtain ⟨-, -, -, hkept, -, hevents⟩ := conversionHeld_keeps e o p s
    obtain ⟨before, after, hqueue, hnot, hreplaced⟩ := eq_append_of_replaceFirst
      { e with kind := .breakChange, new := none, plan := breakPlan ((conversionHeld e o p s).heldBanks o) }
      (entry_of_entryNaming he)
    refine ⟨convertSwap e o p s, before, after, exec_closePath_normal h hst hps hnormal hexec, ?_, ?_,
      fun q hqo hqp => ?_, fun b => ?_, hqueue, hnot, ?_, ?_, driver_convertSwap, currentsDrop_convertSwap e o p s,
      fun x hx => changes_convertSwap s hnew hx⟩
    · rw [path_convertSwap, conversionCounted, path_setPath, if_neg (Ne.symm hne), path_conversionFreed, if_pos rfl]
    · rw [path_convertSwap, conversionCounted, path_setPath, if_pos rfl, path_conversionFreed, if_neg hne]
      simp only [bank_convertSwap, State.legsReleased, hlegs]
    · rw [path_convertSwap, conversionCounted, path_setPath, if_neg hqo, path_conversionFreed, if_neg hqp]
    · rw [bank_convertSwap, bank_conversionFreed e o p s hne]
    · refine (congrArg (replaceFirst e _) hkept).trans (hreplaced.trans ?_)
      rw [heldBanks_conversionHeld e s hne]
      rfl
    · have hraised : (convertSwap e o p s).events = (conversionFreed e o p s).events := hevents
      rw [flagSet_of_events hraised]
      exact flagSet_pathFreed_freeSlot _ _

/-! ## Cancellation (R35, R37) -/

theorem cancelChecked_taken {s : State} {st : Station} {p : Slot} {e : Entry} (he : s.entryNaming p = some e)
    (hst : (s.path p).station = some st) (hwaiting : e.active = false) :
    cancelChecked st p s =
      (⟨.ok, [pathStateByte ((cancelEntry e s).path (cancelledSlot e p)).state]⟩, react (cancelEntry e s)) := by
  unfold cancelChecked
  rw [he]
  dsimp only
  rw [if_neg (not_not.mpr hst), hwaiting]
  rfl

theorem exec_cancelChange_taken {f : Request} {s : State} {st : Station} {p : Slot} {e : Entry}
    (h : ForThisNode f s) (hst : NamesStation f st) (hps : f.params = [byteOf p.1]) (he : s.entryNaming p = some e)
    (hown : (s.path p).station = some st) (hwaiting : e.active = false) :
    exec (.cancelChange f) s =
      .next (answered 0x23 f ⟨.ok, [pathStateByte ((cancelEntry e s).path (cancelledSlot e p)).state]⟩
        (react (cancelEntry e s))) :=
  exec_answers rfl h (by rw [cancelChangeUnit_good s hst hps, cancelChecked_taken he hown hwaiting])

theorem cancelledSlot_of_not_swap {e : Entry} (p : Slot) (h : e.kind ≠ .swapChange) : cancelledSlot e p = p := by
  unfold cancelledSlot
  split
  next hk _ => exact absurd hk h
  next => rfl

theorem cancelledSlot_of_swap {e : Entry} {o : Slot} (p : Slot) (hk : e.kind = .swapChange) (ho : e.old = some o) :
    cancelledSlot e p = o := by
  unfold cancelledSlot
  rw [hk, ho]

/-- Settles O27: both requests cancel the entry, and `MakeCancelled` says what that does. -/
theorem cancelMake : Obligations.CancelMake := by
  intro f s st p e h hst hps hforming hown he hkind hnew hold hwaiting
  obtain ⟨hfree, hothers, hraised, hbanks, -⟩ := makeCancelled_cancelEntry e s p hkind hnew
  have hslot : cancelledSlot e p = p := cancelledSlot_of_not_swap p (by rw [hkind]; decide)
  refine ⟨cancelEntry e s, fun hnormal howed => ?_, ?_, hfree, hothers, fun b hheld => ?_, fun b hheld => ?_,
    queue_cancelEntry e s, hraised, cancelled_cancelEntry e s⟩
  · refine exec_closePath_normal h hst hps hnormal ?_
    rw [closeChecked_forming hforming hown howed he, closeForming, hwaiting, hkind]
    rfl
  · have hexec := exec_cancelChange_taken h hst hps he hown hwaiting
    rwa [hslot, hfree] at hexec
  · rw [hbanks b, if_pos hheld]
    refine ⟨rfl, rfl, ?_⟩
    rw [Bool.or_eq_true, decide_eq_true_iff]
  · rw [hbanks b, if_neg hheld]

/-- Settles O28: `BreakCancelled` and `SwapCancelled` say what the cancellation does; the refusals leave the state. -/
theorem cancelBreak : Obligations.CancelBreak := by
  refine ⟨fun f s h hbad => exec_answers rfl h (cancelChangeUnit_bad s hbad), fun f s st p h hst hps =>
    ⟨fun e r x he hkind hold hnew hwaiting hown hroute hprior => ?breaks,
      fun e o n r x he hkind hold hnew hne hwaiting hown hroute hprior hx => ?swaps,
      fun hnone => ?none, fun e he hother => ?other, fun e he hown hactive => ?active⟩⟩
  case breaks =>
    obtain ⟨hpath, hothers, hbanks, -, -⟩ := breakCancelled_cancelEntry e s p r x hkind hold hroute hprior
    have hslot : cancelledSlot e p = p := cancelledSlot_of_not_swap p (by rw [hkind]; decide)
    have hexec := exec_cancelChange_taken h hst hps he hown hwaiting
    rw [hslot, hpath] at hexec
    refine ⟨cancelEntry e s, ?_, hbanks, queue_cancelEntry e s, hothers, ?_⟩
    · rw [hexec]
      cases x <;> rfl
    · rw [hpath]
      cases x with
      | settling => exact ⟨rfl, fun _ => rfl, rfl, rfl, rfl, cancelled_cancelEntry e s⟩
      | live => exact ⟨rfl, nofun, rfl, rfl, rfl, cancelled_cancelEntry e s⟩
      | failed => exact ⟨rfl, nofun, rfl, rfl, rfl, cancelled_cancelEntry e s⟩
  case swaps =>
    obtain ⟨hfree, hpath, hothers, hraised, hbanks, -⟩ :=
      swapCancelled_cancelEntry e s o n r x hkind hold hnew hne hroute hprior
    have hexec := exec_cancelChange_taken h hst hps he hown hwaiting
    rw [cancelledSlot_of_swap p hkind hold, hpath] at hexec
    refine ⟨cancelEntry e s, ?_, hfree, ?_, hothers, hbanks, queue_cancelEntry e s, hraised, cancelled_cancelEntry e s⟩
    · rw [hexec]
      cases x with
      | settling => rfl
      | live => rfl
      | failed => exact absurd rfl hx
    · rw [hpath]
      cases x with
      | settling => rfl
      | live => rfl
      | failed => exact absurd rfl hx
  case none =>
    refine exec_answers rfl h ?_
    rw [cancelChangeUnit_good s hst hps, cancelChecked, hnone]
    rfl
  case other =>
    refine exec_answers rfl h ?_
    rw [cancelChangeUnit_good s hst hps, cancelChecked, he]
    exact if_pos hother
  case active =>
    refine exec_answers rfl h ?_
    rw [cancelChangeUnit_good s hst hps, cancelChecked, he]
    exact (if_neg (not_not.mpr hown)).trans (if_pos hactive)

end Sys2Proof.Machine
end

section
/-! PROOF. READ_PATHS and READ_QUEUE (R40, R74), the end of a settle timer (R31), and the drivers' choice (R48, R57 to
R63). -/

namespace Sys2Proof.Machine

/-! ## READ_PATHS and READ_QUEUE -/

theorem queueBytes_eq (q : List Entry) (first count : Nat) :
    queueBytes q first count =
      (List.range count).flatMap fun i =>
        match q[first + i]? with
        | some e => entryBytes (first + i) e
        | none => [] := by
  unfold queueBytes
  induction count generalizing first with
  | zero => rw [List.take_zero]; rfl
  | succ n ih =>
    have hshift : (fun i => match q[first + (i + 1)]? with
        | some e => entryBytes (first + (i + 1)) e
        | none => []) = fun i => match q[first + 1 + i]? with
        | some e => entryBytes (first + 1 + i) e
        | none => [] := by
      funext i
      rw [← Nat.add_assoc, Nat.add_right_comm]
    rw [List.range_succ_eq_map, List.flatMap_cons, List.flatMap_map]
    simp only [Nat.succ_eq_add_one, Nat.add_zero, hshift]
    rw [← ih (first + 1)]
    by_cases hfirst : first < q.length
    · rw [List.drop_eq_getElem_cons hfirst, List.take_succ_cons, List.zipIdx_cons, List.flatMap_cons,
        List.getElem?_eq_getElem hfirst]
    · rw [List.drop_eq_nil_of_le (Nat.le_of_not_lt hfirst), List.drop_eq_nil_of_le (by omega),
        List.getElem?_eq_none (Nat.le_of_not_lt hfirst), List.take_nil, List.take_nil]
      rfl

theorem pathBytes_eq (x : PathRecord) : pathBytes x =
    [match x.state with
     | .free => 0x00 | .forming => 0x01 | .settling => 0x02 | .live => 0x03 | .closing => 0x04 | .failed => 0x05,
     match x.route with | some r => byteOf r.1 | none => 0xFF,
     match x.station, x.origin with
     | some .s1, some .request => 0x11 | some .s2, some .request => 0x21
     | some .s1, some .sequencer => 0x12 | some .s2, some .sequencer => 0x22 | _, _ => 0x00,
     byteOf x.legsDone,
     byteOf ((if x.closeOwed = true then 0x01 else 0) +
       (match x.prior with | none => 0 | some .settling => 0x10 | some .live => 0x20 | some .failed => 0x30) +
       (if x.closeOwedCause = some .fixtureLoss then 0x40 else 0)),
     match x.failure with
     | none => 0x00 | some .makeFailed => 0x01 | some .bankFault => 0x02 | some .fixtureLost => 0x03
     | some .breakFailed => 0x04] ++
      bytes2 (match x.established with | some n => n.toNat | none => 0xFFFF) := by
  obtain ⟨state, route, station, origin, legsDone, closeOwed, closeOwedCause, failure, prior, priorLegs, settleTimer,
    established⟩ := x
  unfold pathBytes
  dsimp only
  refine congrArg₂ (· ++ ·) ?_ ?_
  · simp only [List.cons.injEq, and_true, true_and]
    refine ⟨?state, ?route, ?station, ?owed, ?failure⟩
    case state => cases state <;> rfl
    case route => cases route <;> rfl
    case station =>
      rcases station with - | (- | -)
      · rfl
      · rcases origin with - | (- | -) <;> rfl
      · rcases origin with - | (- | -) <;> rfl
    case owed =>
      have hcause : boolVal (decide (closeOwedCause = some .fixtureLoss)) 0x40 =
          if closeOwedCause = some .fixtureLoss then 0x40 else 0 := by
        unfold boolVal
        simp only [decide_eq_true_eq]
      rw [hcause]
      rcases prior with - | (- | - | -) <;> rfl
    case failure => rcases failure with - | (- | - | - | -) <;> rfl
  · cases established <;> rfl

theorem trackerBytes_eq (x : Tracker) : trackerBytes x =
    [if x.isOpen = true then (if x.closingHeld = true then 0x02 else 0x01) else 0x00,
     match x.tag with | some g => g | none => 0xFF] ++ bytes2 x.budget := by
  obtain ⟨isOpen, tag, budget, closingHeld, due⟩ := x
  cases tag <;> rfl

theorem driverBytes_eq (x : Driver) : driverBytes x =
    [byteOf ((match x.phase with | .idle => 0 | .driving => 1 | .settling => 2 | .checking => 3) +
       (match x.waiting with | none => 0 | some .noFit => 0x10 | some .hot => 0x20) +
       (if x.pause.isSome = true then 0x40 else 0) + (if x.forced = true then 0x80 else 0)),
     match x.leg, x.held, x.pause with
     | some l, _, _ => byteOf l.bank.1
     | none, some l, _ => byteOf l.bank.1
     | none, none, some y => byteOf y.leg.bank.1
     | none, none, none => 0xFF] := by
  obtain ⟨phase, leg, left, held, waiting, passed, forced, pause⟩ := x
  unfold driverBytes
  simp only [List.cons.injEq, and_true]
  refine ⟨?bits, ?bank⟩
  case bits => cases phase <;> rcases waiting with - | (- | -) <;> rfl
  case bank =>
    cases leg with
    | some l => rfl
    | none =>
      cases held with
      | some l => rfl
      | none => cases pause <;> rfl

theorem entryBytes_eq (i : Nat) (e : Entry) : entryBytes i e =
    [byteOf i, match e.kind with | .makeChange => 0x01 | .breakChange => 0x02 | .swapChange => 0x03,
     byteOf ((match e.plane with | .a => 0 | .b => 1) + (if e.active = true then 0x10 else 0)),
     match e.origin with
     | .request .s1 => 0x11 | .request .s2 => 0x21 | .sequencer .s1 => 0x12 | .sequencer .s2 => 0x22 | .part => 0x30,
     match e.old with | some p => byteOf p.1 | none => 0xFF,
     match e.new with | some p => byteOf p.1 | none => 0xFF, byteOf e.plan.length] := by
  obtain ⟨kind, old, new, plane, origin, active, plan⟩ := e
  unfold entryBytes
  simp only [List.cons.injEq, and_true, true_and]
  refine ⟨?kind, ?plane, ?origin, ?old, ?new⟩
  case kind => cases kind <;> rfl
  case plane => cases plane <;> rfl
  case origin => rcases origin with (- | -) | (- | -) | - <;> rfl
  case old => cases old <;> rfl
  case new => cases new <;> rfl

theorem val1_pair {first count : Nat} (hfirst : first < 256) (hcount : count < 256) :
    val1 [byteOf first, byteOf count] 0 = first ∧ val1 [byteOf first, byteOf count] 1 = count :=
  ⟨val1_byteOf first [byteOf count] hfirst, val1_byteOf count [] hcount⟩

/-- Settles O29: the codings field by field, and the two units on good and on bad parameters. -/
theorem readPathsAndQueueAnswer : Obligations.ReadPathsAndQueueAnswer := by
  refine ⟨pathBytes_eq, trackerBytes_eq, driverBytes_eq, entryBytes_eq, fun f s h =>
    ⟨fun first count hfirst hlow hhigh hps => ?paths, fun hbad => exec_answers rfl h (if_pos hbad),
      fun first count hfirst hhigh hps => ?queue, fun hbad => exec_answers rfl h (if_pos hbad)⟩⟩
  case paths =>
    refine exec_answers rfl h ?_
    obtain ⟨hval, hval'⟩ := val1_pair (first := first) (count := count) (by omega) (by omega)
    have hgood : ¬ ([byteOf first, byteOf count].length ≠ 2 ∨ 15 < first ∨ count < 1 ∨ 7 < count) := by
      simp only [List.length_cons, List.length_nil, ne_eq, Nat.reduceAdd, not_true_eq_false, false_or]
      omega
    simp only [readPathsUnit, hps, hval, hval']
    rw [if_neg hgood, flatMap_indexFrom fun p => pathBytes (s.path p), filterMap_indexFrom]
    rfl
  case queue =>
    refine exec_answers rfl h ?_
    obtain ⟨hval, hval'⟩ := val1_pair (first := first) (count := count) (by omega) (by omega)
    have hgood : ¬ ([byteOf first, byteOf count].length ≠ 2 ∨ 15 < first ∨ 6 < count) := by
      simp only [List.length_cons, List.length_nil, ne_eq, Nat.reduceAdd, not_true_eq_false, false_or]
      omega
    simp only [readQueueUnit, hps, hval, hval']
    rw [if_neg hgood, queueBytes_eq]
    rfl

/-! ## The end of a settle timer (R31) -/

/-- A command that performs `g` out of reset leaves what `g` does, the outputs following. -/
theorem exec_performs {c : Instr} {g : State → State} {s : State} (hc : exec c s = perform g s)
    (h : s.inReset = false) : exec c s = .next (g s).driveOutputs := by
  rw [hc, perform_awake g s h]

theorem path_elapse (n : Nat) (s : State) (q : Slot) :
    (s.elapse n).path q = { s.path q with settleTimer := elapseTimer n (s.path q).settleTimer } :=
  vector_get_ofFn _ q

theorem path_goLive (p : Slot) (s : State) (q : Slot) :
    (goLive p s).path q =
      if q = p then { s.path p with state := .live, settleTimer := none, established := s.ring.lastCadence }
      else s.path q :=
  path_setPath s p q _

/-- Settles O30: the time left passes, and the path goes LIVE. -/
theorem settleTimerEndGoesLive : Obligations.SettleTimerEndGoesLive := by
  intro s p n hreset hstate htimer
  have hend : settleTimerEnd p s = goLive p (s.elapse n) := by
    unfold settleTimerEnd
    rw [htimer]
    exact if_pos hstate
  refine ⟨_, exec_performs (g := settleTimerEnd p) rfl hreset, ?_⟩
  rw [hend]
  refine ⟨?_, flagSet_raise_self _ _, fun q hq => ?_, rfl, rfl, rfl, rfl⟩
  · show (goLive p (s.elapse n)).path p = _
    rw [path_goLive, if_pos rfl, path_elapse]
    rfl
  · show (goLive p (s.elapse n)).path q = _
    rw [path_goLive, if_neg hq]

/-! ## The drivers' choice (R57 to R63) -/

theorem deferHot_eq (b : BankId) (s : State) : deferHot b s = deferred s b := rfl

theorem isHot_iff (s : State) (b : BankId) : isHot s b = true ↔ DetectorHot s b := decide_eq_true_iff

/-- The choice goes on after a piece of work that ends without a drive. -/
theorem choosePlane_goes_on {s t : State} {pl : Plane} {e : Entry} (h : TakesHead s pl e)
    (ht : takeEntry pl e s = (true, t)) : choosePlane pl s = chooseLoop pl (chooseFuel s - 1) t := by
  rw [choosePlane_once s pl h.1, chooseOnce_head s pl e h, ht]

/-- The choice ends with a drive or with a wait. -/
theorem choosePlane_ends {s t : State} {pl : Plane} {e : Entry} (h : TakesHead s pl e)
    (ht : takeEntry pl e s = (false, t)) : choosePlane pl s = t := by
  rw [choosePlane_once s pl h.1, chooseOnce_head s pl e h, ht]

theorem takeEntry_cons {pl : Plane} {e : Entry} {l : PlanLeg} {rest : List PlanLeg} (s : State)
    (h : e.plan = l :: rest) : takeEntry pl e s = takeLeg pl e l s := by
  unfold takeEntry
  rw [h]

theorem breakSkipped_iff (s : State) (b : BankId) :
    s.breakSkipped b = true ↔ s.faultValid b .coil = true ∧ (s.bank b).position ≠ some .term := by
  unfold State.breakSkipped
  rw [Bool.and_eq_true, decide_eq_true_iff]

theorem takeLeg_released {pl : Plane} {e : Entry} {l : PlanLeg} {s : State} (hterm : l.target = .term)
    (hat : (s.bank l.bank).position = some .term) : takeLeg pl e l s = (true, endLeg e l s) := by
  unfold takeLeg
  rw [if_pos hterm, if_pos hat]

theorem takeLeg_skipped {pl : Plane} {e : Entry} {l : PlanLeg} {s : State} (hterm : l.target = .term)
    (hat : (s.bank l.bank).position ≠ some .term) (hcoil : s.faultValid l.bank .coil = true) :
    takeLeg pl e l s = (true, endLeg e l (s.setBank l.bank { s.bank l.bank with position := none })) := by
  unfold takeLeg
  rw [if_pos hterm, if_neg hat, if_pos ((breakSkipped_iff s l.bank).mpr ⟨hcoil, hat⟩)]
  rfl

theorem checkLeg_noFit {pl : Plane} {e : Entry} {l : PlanLeg} {s : State} (h : legFits s l.bank = false) :
    checkLeg pl e l s =
      (false, s.setDriver pl { s.driver pl with held := some l, waiting := some .noFit }) := by
  unfold checkLeg
  rw [h]
  rfl

theorem inhibitedMake_iff (s : State) (l : PlanLeg) :
    (decide (l.target ≠ .term) && s.inhibited l.bank) = true ↔ l.target ≠ .term ∧ s.faultsOf l.bank ≠ 0 := by
  unfold State.inhibited
  rw [Bool.and_eq_true, decide_eq_true_iff, decide_eq_true_iff]

theorem checkLeg_inhibited {pl : Plane} {e : Entry} {l : PlanLeg} {s : State} (hfits : legFits s l.bank = true)
    (hmake : l.target ≠ .term) (hfault : s.faultsOf l.bank ≠ 0) :
    checkLeg pl e l s = (true, failEntry e .inhibited (some l.bank) s) := by
  unfold checkLeg
  rw [hfits, if_pos ((inhibitedMake_iff s l).mpr ⟨hmake, hfault⟩)]
  rfl

/-- R62: a leg that fits and is not inhibited meets a hot detector or starts. -/
theorem checkLeg_fits {pl : Plane} {e : Entry} {l : PlanLeg} {s : State} (hfits : legFits s l.bank = true)
    (hsound : l.target = .term ∨ s.faultsOf l.bank = 0) :
    checkLeg pl e l s = if isHot s l.bank then meetHot pl e l s else (false, startEntryLeg pl e l s) := by
  have hnot : ¬ (decide (l.target ≠ .term) && s.inhibited l.bank) = true := fun hboth => by
    obtain ⟨hmake, hfault⟩ := (inhibitedMake_iff s l).mp hboth
    exact hsound.elim (fun hterm => hmake hterm) fun hnone => hfault hnone
  unfold checkLeg
  rw [hfits, if_neg hnot]
  rfl

theorem faultValid_deferred (s : State) (b c : BankId) (k : FaultKind) :
    (deferred s b).faultValid c k = s.faultValid c k := rfl

theorem meetHot_valid {pl : Plane} {e : Entry} {l : PlanLeg} {s : State} (h : s.faultValid l.bank .hot = true) :
    meetHot pl e l s = (true, failEntry e .hot (some l.bank) (deferred s l.bank)) :=
  if_pos ((faultValid_deferred s l.bank l.bank .hot).trans h)

/-- A kind outside the safe mask leaves the Safe Controller when it becomes valid. -/
theorem safe_becameValid {b : BankId} {k : FaultKind} {s w : State} (h : BecameValid b k s w)
    (hmask : kindIn k s.settings.safeMask = false) : w.safe = s.safe := by
  obtain ⟨v, ⟨hframe, -⟩, -, hsame⟩ := h
  rw [hsame hmask, hframe]

/-- R139, R140: a cause that joins leaves the Supervision Unit. -/
theorem sup_causeJoins {m : BitVec 5} {s w : State} (h : CauseJoins m s w) : w.sup = s.sup := by
  by_cases hnormal : s.safe.state = .normal
  · obtain ⟨x, hx, hw⟩ := h.1 hnormal
    have hsup : ∀ {a b : State}, a.aside = b.aside → a.sup = b.sup := fun hab => congrArg (fun q => q.2.2.1) hab
    have hx' : x.sup = s.sup := by
      rw [hx]
      exact (hsup (aside_cancelAll _ _)).trans rfl
    rcases hw with rfl | rfl
    · exact (hsup ((aside_failIdleHead _ _).trans (aside_failIdleHead _ _))).trans hx'
    · exact (hsup ((aside_failIdleHead _ _).trans (aside_failIdleHead _ _))).trans hx'
  · rw [h.2 hnormal]
    rfl

theorem faultValid_becameValid {b : BankId} {k : FaultKind} {s w : State} (h : BecameValid b k s w) :
    w.faultValid b k = true := by
  obtain ⟨v, ⟨-, -, hfaults, -⟩, hjoins, hsame⟩ := h
  have hsup : w.sup = v.sup := by
    cases hmask : kindIn k s.settings.safeMask with
    | true => exact sup_causeJoins (hjoins hmask)
    | false => rw [hsame hmask]
  have hself : w.faultsOf b = s.faultsOf b ||| k.mask := by
    have hv := hfaults b
    rw [if_pos rfl] at hv
    unfold State.faultsOf
    rw [hsup]
    exact hv
  unfold State.faultValid
  rw [hself]
  cases k <;> simp [kindIn, FaultKind.mask, FaultKind.bit]

theorem safe_takeMiss {b : BankId} {k : FaultKind} {s : State} (hmask : kindIn k s.settings.safeMask = false) :
    (takeMiss b k s).safe = s.safe := by
  by_cases h : MissMakesValid s b k
  · exact (safe_becameValid (becameValid_takeMiss b k s h) hmask).trans rfl
  · rw [takeMiss_counts b k s h]
    split <;> rfl

/-- R128: a miss that leaves the fault not valid is only counted. -/
theorem drivers_takeMiss {b : BankId} {k : FaultKind} {s : State} (h : (takeMiss b k s).faultValid b k = false) :
    (takeMiss b k s).drivers = s.drivers := by
  by_cases hvalid : MissMakesValid s b k
  · rw [faultValid_becameValid (becameValid_takeMiss b k s hvalid)] at h
    cases h
  · rw [takeMiss_counts b k s hvalid]
    split <;> rfl

theorem meetHot_counts {pl : Plane} {e : Entry} {l : PlanLeg} {s : State} (h : s.faultValid l.bank .hot = false) :
    meetHot pl e l s =
      if (takeMiss l.bank .hot (deferred s l.bank)).faultValid l.bank .hot then
        (if (takeMiss l.bank .hot (deferred s l.bank)).isNormal then
          (true, failEntry e .hot (some l.bank) (takeMiss l.bank .hot (deferred s l.bank)))
         else (false, takeMiss l.bank .hot (deferred s l.bank)))
      else (false, holdLeg pl l .hot (takeMiss l.bank .hot (deferred s l.bank))) := by
  have hnot : ¬ (deferred s l.bank).faultValid l.bank .hot = true := by
    rw [faultValid_deferred, h]
    decide
  exact if_neg hnot

theorem meetHot_holds {pl : Plane} {e : Entry} {l : PlanLeg} {s : State} (h : s.faultValid l.bank .hot = false)
    (hmiss : (takeMiss l.bank .hot (deferred s l.bank)).faultValid l.bank .hot = false) :
    meetHot pl e l s =
      (false, (takeMiss l.bank .hot (deferred s l.bank)).setDriver pl
        { s.driver pl with held := some l, waiting := some .hot }) := by
  have hdriver : (takeMiss l.bank .hot (deferred s l.bank)).driver pl = s.driver pl :=
    congrArg (fun d : ByPlane Driver => d.get pl) (drivers_takeMiss hmiss)
  rw [meetHot_counts h, hmiss, holdLeg, hdriver]
  rfl

theorem meetHot_fails {pl : Plane} {e : Entry} {l : PlanLeg} {s : State} (h : s.faultValid l.bank .hot = false)
    (hmiss : (takeMiss l.bank .hot (deferred s l.bank)).faultValid l.bank .hot = true)
    (hmask : kindIn .hot s.settings.safeMask = false) (hnormal : s.safe.state = .normal) :
    meetHot pl e l s =
      (true, failEntry e .hot (some l.bank) (takeMiss l.bank .hot (deferred s l.bank))) := by
  have hsafe : (takeMiss l.bank .hot (deferred s l.bank)).isNormal = true := by
    rw [isNormal_iff, safe_takeMiss (s := deferred s l.bank) hmask]
    exact hnormal
  rw [meetHot_counts h, hmiss, hsafe]
  rfl

theorem anyBreakPart_iff (plan : List PlanLeg) :
    (plan.any fun x => decide (x.part = .breakPart)) = true ↔ ∃ k ∈ plan, k.part = .breakPart := by
  simp only [List.any_eq_true, decide_eq_true_eq]

/-- R63: an entry's leg that leaves the old slot alone. -/
theorem startEntryLeg_plain {pl : Plane} {e : Entry} {l : PlanLeg} (s : State)
    (h : e.old = none ∨ ∃ k ∈ e.plan, k.part = .breakPart) :
    startEntryLeg pl e l s =
      startLeg pl { bank := l.bank, target := l.target, source := .entry }
        (s.setQueue (replaceFirst e { e with active := true } s.queue)) := by
  unfold startEntryLeg
  dsimp only
  split
  next o hold hany =>
    rw [hold, ← anyBreakPart_iff, hany] at h
    rcases h with h | h <;> cases h
  next => rfl

/-- R68: the first make leg of a SWAP with no break leg left frees its old slot. -/
theorem startEntryLeg_frees {pl : Plane} {e : Entry} {l : PlanLeg} {o : Slot} (s : State) (hold : e.old = some o)
    (hmake : ∀ k ∈ e.plan, k.part = .makePart) :
    startEntryLeg pl e l s =
      startLeg pl { bank := l.bank, target := l.target, source := .entry }
        ((freeSlot o s).setQueue (replaceFirst e { e with active := true, old := none } s.queue)) := by
  have hany : (e.plan.any fun x => decide (x.part = .breakPart)) = false := by
    rw [← Bool.not_eq_true, anyBreakPart_iff]
    rintro ⟨k, hk, hpart⟩
    rw [hmake k hk] at hpart
    cases hpart
  unfold startEntryLeg
  dsimp only
  rw [hold, hany]
  dsimp only
  rw [updateEntry, queue_freeSlot]

/-- Settles O31: one lemma for each outcome of the check of a leg, given to the one choice that the driver makes. -/
theorem legFitRule : Obligations.LegFitRule := by
  refine ⟨legFits_iff, fun s => ?reacts, fun s pl => ⟨choosePlane_idle s pl, fun hhead hhome => ?nothing,
    fun e h => ⟨fun hplan => ?empty, fun l rest hplan => ⟨fun hterm hat => ?released, fun hterm hat hcoil => ?skipped,
      fun hdriven => ⟨fun hfits => ?noFit, fun hfits hmake hfault => ?inhibited, fun hfits hsound =>
        ⟨fun hhot hvalid => ?hot, fun hhot hvalid hmiss => ?defers, fun hhot hvalid hmiss hmask => ?fails, fun hcold =>
          ⟨fun hplain => ?plain, fun o hold hmake => ?frees⟩⟩⟩⟩⟩⟩⟩
  case reacts =>
    obtain ⟨hstill, hnormal, -⟩ := react_cases s
    exact ⟨hstill, hnormal⟩
  case nothing =>
    by_cases h : MayChoose s pl
    · rw [choosePlane_once s pl h, chooseOnce_nothing s pl hhead hhome]
    · exact choosePlane_idle s pl h
  case empty =>
    refine choosePlane_goes_on h ?_
    unfold takeEntry
    rw [hplan]
  case released => exact choosePlane_goes_on h ((takeEntry_cons s hplan).trans (takeLeg_released hterm hat))
  case skipped => exact choosePlane_goes_on h ((takeEntry_cons s hplan).trans (takeLeg_skipped hterm hat hcoil))
  all_goals have hcheck : takeEntry pl e s = checkLeg pl e l s :=
    (takeEntry_cons s hplan).trans (takeLeg_driven s pl e l hdriven)
  case noFit => exact choosePlane_ends h (hcheck.trans (checkLeg_noFit hfits))
  case inhibited => exact choosePlane_goes_on h (hcheck.trans (checkLeg_inhibited hfits hmake hfault))
  all_goals have hmeets := hcheck.trans (checkLeg_fits hfits hsound)
  case hot =>
    rw [if_pos ((isHot_iff s l.bank).mpr hhot), meetHot_valid hvalid] at hmeets
    exact choosePlane_goes_on h hmeets
  case defers =>
    rw [if_pos ((isHot_iff s l.bank).mpr hhot), meetHot_holds hvalid hmiss] at hmeets
    exact choosePlane_ends h hmeets
  case fails =>
    have ⟨⟨_, _, _, _, _, hnormal⟩, _⟩ := h
    rw [if_pos ((isHot_iff s l.bank).mpr hhot), meetHot_fails hvalid hmiss hmask hnormal] at hmeets
    exact choosePlane_goes_on h hmeets
  case plain =>
    rw [if_neg (mt (isHot_iff s l.bank).mp hcold), startEntryLeg_plain s hplain] at hmeets
    exact choosePlane_ends h hmeets
  case frees =>
    rw [if_neg (mt (isHot_iff s l.bank).mp hcold), startEntryLeg_frees s hold hmake] at hmeets
    exact choosePlane_ends h hmeets

end Sys2Proof.Machine
end

section
/-! PROOF. WINDOW_OPEN and WINDOW_SHUT, the budget end, and the end of a leg's drive (R41 to R46, R58, R64, R67). -/

namespace Sys2Proof.Machine

/-! ## What both planes do within one step (log 3) -/

theorem eachPlane_orders (f : Plane → State → State) (s : State) :
    ∃ p q : Plane, p ≠ q ∧ eachPlane f s = f q (f p s.redraw) := by
  unfold eachPlane
  split
  · exact ⟨.b, .a, by decide, rfl⟩
  · exact ⟨.a, .b, by decide, rfl⟩

theorem plane_eq_or {p q : Plane} (h : p ≠ q) (pl : Plane) : pl = p ∨ pl = q := by
  cases p <;> cases q <;> cases pl <;> simp_all

/-- A ready part takes a frame. -/
theorem perform_receive_ready (g : State → State) {s : State} (hs : Ready s) :
    perform (receive g) s = .next (g s).driveOutputs := by
  rw [perform_awake _ _ hs.1, receive_ready _ _ hs.2]

/-! ## WINDOW_OPEN (R42, R43, R58) -/

theorem openWindow_eq (tag : Byte) (n : Nat) (pl : Plane) (v : State) :
    openWindow tag n pl v =
      if (v.driver pl).forced = true then
        v.setTracker pl { isOpen := true, tag := some tag, budget := n, closingHeld := false }
      else
        choosePlane pl
          ((v.setTracker pl { isOpen := true, tag := some tag, budget := n, closingHeld := false }).setDriver pl
            { v.driver pl with waiting := none, passed := 0 }) := rfl

theorem tracker_openWindow (tag : Byte) (n : Nat) (pl q : Plane) (v : State) :
    (openWindow tag n pl v).tracker q =
      if q = pl then { isOpen := true, tag := some tag, budget := n, closingHeld := false } else v.tracker q := by
  have htrackers : (openWindow tag n pl v).trackers =
      (v.setTracker pl { isOpen := true, tag := some tag, budget := n, closingHeld := false }).trackers := by
    rw [openWindow_eq]
    split
    · rfl
    · rw [trackers_choosePlane]
      rfl
  have htracker := tracker_setTracker v pl q { isOpen := true, tag := some tag, budget := n, closingHeld := false }
  rw [← htracker]
  exact congrArg (fun x : ByPlane Tracker => x.get q) htrackers

theorem windowOpenBad_iff (planes : Byte) (budget : Word16) :
    windowOpenBad planes budget = true ↔ planes = 0 ∨ 3 < planes.toNat ∨ budget = 0 ∨ 4095 < budget.toNat := by
  simp only [windowOpenBad, Bool.or_eq_true, decide_eq_true_eq, or_assoc]

theorem deliverWindowOpen_opens (h : Header) (tag : Byte) {planes : Byte} {budget : Word16} {s : State}
    (ha : s.ring.address ≠ none) (hgood : ¬ windowOpenBad planes budget = true) :
    deliverWindowOpen h tag planes budget s =
      finishFrame (windowOpenBytes (hopped h) tag planes budget) (openNamed tag planes budget s) := by
  obtain ⟨a, ha⟩ := Option.ne_none_iff_exists'.mp ha
  unfold deliverWindowOpen
  rw [ha]
  exact if_neg hgood

theorem deliverWindowOpen_bad (h : Header) (tag : Byte) {planes : Byte} {budget : Word16} {s : State}
    (ha : s.ring.address ≠ none) (hbad : windowOpenBad planes budget = true) :
    deliverWindowOpen h tag planes budget s = noteBad (windowOpenBytes h tag planes budget) s := by
  obtain ⟨a, ha⟩ := Option.ne_none_iff_exists'.mp ha
  unfold deliverWindowOpen
  rw [ha]
  exact if_pos hbad

theorem ring_redraw_eq (s : State) : s.redraw.ring = s.ring := rfl

/-- Settles O32: the frame opens its windows one by one, each by `openWindow`. -/
theorem windowOpenOpens : Obligations.WindowOpenOpens := by
  intro h tag planes budget s hs ha hplanes hlow hhigh
  have hgood : ¬ windowOpenBad planes budget = true := by
    rw [windowOpenBad_iff]
    rintro (rfl | hlarge | rfl | hlarge)
    · rcases hplanes with hp | hp | hp <;> cases hp
    · rcases hplanes with rfl | rfl | rfl <;> exact absurd hlarge (by decide)
    · exact absurd hlow (by decide)
    · omega
  have hexec : exec (.windowOpen h tag planes budget) s = perform (receive (deliverWindowOpen h tag planes budget)) s :=
    rfl
  rw [perform_receive_ready _ hs, deliverWindowOpen_opens h tag ha hgood] at hexec
  have htracker : ∀ (pl q : Plane) (v : State), (openWindow tag budget.toNat pl v).tracker q = _ :=
    fun pl q v => tracker_openWindow tag budget.toNat pl q v
  refine ⟨_, _, hexec, rfl, ?_⟩
  rcases hplanes with rfl | rfl | rfl
  · have hnamed : openNamed tag 1 budget s = openWindow tag budget.toNat .a s := rfl
    rw [hnamed]
    refine ⟨fun _ => htracker .a .a s, nofun, fun hne => absurd rfl hne, fun _ => htracker .a .b s, ?_, fun _ => rfl,
      nofun, nofun, openWindow_eq tag _⟩
    show (openWindow tag budget.toNat .a s).ring.forward ++ _ = _
    rw [ring_openWindow]
  · have hnamed : openNamed tag 2 budget s = openWindow tag budget.toNat .b s := rfl
    rw [hnamed]
    refine ⟨fun hne => absurd rfl hne, fun _ => htracker .b .a s, fun _ => htracker .b .b s, nofun, ?_, nofun,
      fun _ => rfl, nofun, openWindow_eq tag _⟩
    show (openWindow tag budget.toNat .b s).ring.forward ++ _ = _
    rw [ring_openWindow]
  · have hnamed : openNamed tag 3 budget s = eachPlane (openWindow tag budget.toNat) s := rfl
    obtain ⟨p, q, hne, horder⟩ := eachPlane_orders (openWindow tag budget.toNat) s
    rw [hnamed, horder]
    have hopen : ∀ pl : Plane, (openWindow tag budget.toNat q (openWindow tag budget.toNat p s.redraw)).tracker pl =
        { isOpen := true, tag := some tag, budget := budget.toNat, closingHeld := false } := fun pl => by
      rcases plane_eq_or hne pl with rfl | rfl
      · rw [htracker, if_neg hne, htracker, if_pos rfl]
      · rw [htracker, if_pos rfl]
    refine ⟨fun _ => hopen .a, nofun, fun _ => hopen .b, nofun, ?_, nofun, nofun, fun _ => ?_, openWindow_eq tag _⟩
    · show (openWindow tag budget.toNat q (openWindow tag budget.toNat p s.redraw)).ring.forward ++ _ = _
      rw [ring_openWindow, ring_openWindow, ring_redraw_eq]
    · cases p <;> cases q
      · exact absurd rfl hne
      · exact .inl rfl
      · exact .inr rfl
      · exact absurd rfl hne

theorem countBad_eq (s : State) :
    countBad s =
      ({ s with ring := { s.ring with badFrames := min 255 (s.ring.badFrames + 1) } } : State).raise .ringError := rfl

theorem finishFrame_addressed (bytes : List Byte) {s : State} (ha : s.ring.address ≠ none) :
    finishFrame bytes s =
      { s with
        ring :=
          { s.ring with
            forward := s.ring.forward ++ [bytes]
            keepalive :=
              if s.settings.keepalivePeriod = 0 then none else some (s.settings.keepalivePeriod * 100) } } := by
  have hkeepalive : (if s.ring.address.isSome = true ∧ s.settings.keepalivePeriod ≠ 0 then
      some (s.settings.keepalivePeriod * Config.ticksPerMs) else none) =
      if s.settings.keepalivePeriod = 0 then none else some (s.settings.keepalivePeriod * 100) := by
    by_cases hzero : s.settings.keepalivePeriod = 0
    · rw [if_neg fun hboth => hboth.2 hzero, if_pos hzero]
    · rw [if_pos ⟨Option.isSome_iff_ne_none.mpr ha, hzero⟩, if_neg hzero]
      rfl
  rw [← hkeepalive]
  rfl

/-- Settles O33: the frame is counted as bad and forwarded as it came. -/
theorem windowOpenMalformed : Obligations.WindowOpenMalformed := by
  intro h tag planes budget s hs ha hbad
  have hexec : exec (.windowOpen h tag planes budget) s = perform (receive (deliverWindowOpen h tag planes budget)) s :=
    rfl
  rw [perform_receive_ready _ hs, deliverWindowOpen_bad h tag ha ((windowOpenBad_iff planes budget).mpr hbad)] at hexec
  exact ⟨hexec, countBad_eq s, fun bytes => finishFrame_addressed bytes ha⟩

/-! ## Closing a window (R44 to R46, R67) -/

theorem isForced_eq_false {x : LegSource} : x.isForced = false ↔ x = .entry ∨ x = .home := by
  cases x <;> simp [LegSource.isForced]

theorem heldAtClosing_iff (d : Driver) :
    heldAtClosing d = true ↔ d.phase = .driving ∧ ∃ l, d.leg = some l ∧ (l.source = .entry ∨ l.source = .home) := by
  unfold heldAtClosing
  rw [Bool.and_eq_true, decide_eq_true_iff]
  refine and_congr_right fun _ => ?_
  cases d.leg with
  | none => exact ⟨nofun, fun ⟨_, h, _⟩ => nomatch h⟩
  | some l =>
    rw [Bool.not_eq_true', isForced_eq_false]
    exact ⟨fun h => ⟨l, rfl, h⟩, fun ⟨_, hl, h⟩ => Option.some.inj hl ▸ h⟩

/-- R46: what a window becomes when it closes. -/
def closedTracker (d : Driver) : Tracker :=
  if d.phase = .driving ∧ ∃ l, d.leg = some l ∧ (l.source = .entry ∨ l.source = .home) then
    { isOpen := true, tag := none, budget := 0, closingHeld := true }
  else { isOpen := false, tag := none, budget := 0, closingHeld := false }

theorem closeWindow_eq (pl : Plane) (s : State) :
    closeWindow pl s = noteOverrun pl (s.setTracker pl (closedTracker (s.driver pl))) := by
  unfold closeWindow closedTracker
  dsimp only
  congr 2
  exact if_congr (heldAtClosing_iff _) rfl rfl

/-- R67: a closing notice of the driver is an overrun. -/
def Overruns (d : Driver) : Prop := d.leg ≠ none ∧ (d.phase = .driving ∨ d.phase = .settling)

theorem noteOverrun_notes {pl : Plane} {s : State} {l : FlightLeg} (hl : (s.driver pl).leg = some l)
    (hphase : (s.driver pl).phase = .driving ∨ (s.driver pl).phase = .settling) :
    noteOverrun pl s =
      State.raise { s with events := { s.events with lastOverrun := some (overrunOf pl (s.driver pl) l) } }
        .windowOverrun := by
  unfold noteOverrun
  dsimp only
  rw [hl]
  exact if_pos hphase

theorem noteOverrun_still {pl : Plane} {s : State} (h : ¬ Overruns (s.driver pl)) : noteOverrun pl s = s := by
  unfold noteOverrun
  dsimp only
  split
  next l hl => exact if_neg fun hphase => h ⟨by rw [hl]; exact Option.some_ne_none l, hphase⟩
  next => rfl

theorem noteOverrun_frame (pl : Plane) (s : State) :
    noteOverrun pl s = { s with events := (noteOverrun pl s).events } := by
  by_cases h : Overruns (s.driver pl)
  · obtain ⟨l, hl⟩ := Option.ne_none_iff_exists'.mp h.1
    rw [noteOverrun_notes hl h.2]
    rfl
  · rw [noteOverrun_still h]

theorem windowOverrun_noteOverrun (pl : Plane) (s : State) :
    (noteOverrun pl s).flagSet .windowOverrun = true ↔
      s.flagSet .windowOverrun = true ∨ Overruns (s.driver pl) := by
  by_cases h : Overruns (s.driver pl)
  · obtain ⟨l, hl⟩ := Option.ne_none_iff_exists'.mp h.1
    rw [noteOverrun_notes hl h.2, flagSet_raise_self]
    exact ⟨fun _ => .inr h, fun _ => rfl⟩
  · rw [noteOverrun_still h]
    exact ⟨.inl, fun hor => hor.resolve_right h⟩

/-! ## WINDOW_SHUT (R45) -/

/-- R45: the plane has an open window with the tag. -/
def CarriesTag (tag : Byte) (s : State) (pl : Plane) : Prop :=
  (s.tracker pl).isOpen = true ∧ (s.tracker pl).closingHeld = false ∧ (s.tracker pl).tag = some tag

theorem shutWindow_closes {tag : Byte} {pl : Plane} {s : State} (h : CarriesTag tag s pl) :
    shutWindow tag pl s = closeWindow pl s := by
  obtain ⟨hopen, hheld, htag⟩ := h
  unfold shutWindow
  dsimp only
  rw [if_pos]
  rw [hopen, hheld, htag]
  simp only [decide_true, Bool.not_false, Bool.and_self]

theorem shutWindow_still {tag : Byte} {pl : Plane} {s : State} (h : ¬ CarriesTag tag s pl) :
    shutWindow tag pl s = s := by
  unfold shutWindow
  refine if_neg fun hall => h ?_
  simp only [Bool.and_eq_true, Bool.not_eq_true', decide_eq_true_eq, and_assoc] at hall
  exact hall

theorem shutWindow_frame (tag : Byte) (pl : Plane) (s : State) :
    shutWindow tag pl s =
      { s with trackers := (shutWindow tag pl s).trackers, events := (shutWindow tag pl s).events } := by
  by_cases h : CarriesTag tag s pl
  · rw [shutWindow_closes h, closeWindow_eq, noteOverrun_frame]
    rfl
  · rw [shutWindow_still h]

theorem driver_shutWindow (tag : Byte) (pl q : Plane) (s : State) : (shutWindow tag pl s).driver q = s.driver q := by
  rw [shutWindow_frame]
  rfl

theorem ring_shutWindow (tag : Byte) (pl : Plane) (s : State) : (shutWindow tag pl s).ring = s.ring := by
  rw [shutWindow_frame]

theorem tracker_closeWindow (pl q : Plane) (s : State) :
    (closeWindow pl s).tracker q = if q = pl then closedTracker (s.driver pl) else s.tracker q := by
  rw [closeWindow_eq, noteOverrun_frame]
  exact tracker_setTracker s pl q _

theorem tracker_shutWindow_other (tag : Byte) {pl q : Plane} (s : State) (h : q ≠ pl) :
    (shutWindow tag pl s).tracker q = s.tracker q := by
  by_cases hc : CarriesTag tag s pl
  · rw [shutWindow_closes hc, tracker_closeWindow, if_neg h]
  · rw [shutWindow_still hc]

theorem windowOverrun_shutWindow (tag : Byte) (pl : Plane) (s : State) :
    (shutWindow tag pl s).flagSet .windowOverrun = true ↔
      s.flagSet .windowOverrun = true ∨ (CarriesTag tag s pl ∧ Overruns (s.driver pl)) := by
  by_cases hc : CarriesTag tag s pl
  · rw [shutWindow_closes hc, closeWindow_eq, windowOverrun_noteOverrun]
    exact or_congr Iff.rfl ⟨fun h => ⟨hc, h⟩, fun h => h.2⟩
  · rw [shutWindow_still hc]
    exact ⟨.inl, fun h => h.resolve_right fun hboth => hc hboth.1⟩

theorem events_shutWindow {tag : Byte} {pl : Plane} {s : State}
    (h : (s.tracker pl).tag = some tag → (s.driver pl).leg = none) : (shutWindow tag pl s).events = s.events := by
  by_cases hc : CarriesTag tag s pl
  · have hnone : ¬ Overruns ((s.setTracker pl (closedTracker (s.driver pl))).driver pl) := fun hover =>
      hover.1 (h hc.2.2)
    rw [shutWindow_closes hc, closeWindow_eq, noteOverrun_still hnone]
    rfl
  · rw [shutWindow_still hc]

theorem carriesTag_of_tracker {tag : Byte} {s t : State} {pl : Plane} (h : t.tracker pl = s.tracker pl) :
    CarriesTag tag t pl ↔ CarriesTag tag s pl := by
  unfold CarriesTag
  rw [h]

/-- Both windows shut, in one order: each plane is what its own shutting makes of it. -/
theorem tracker_shutBoth {tag : Byte} {p q : Plane} (h : p ≠ q) (s : State) (pl : Plane) :
    (CarriesTag tag s pl →
      (shutWindow tag q (shutWindow tag p s)).tracker pl = closedTracker (s.driver pl)) ∧
    (¬ CarriesTag tag s pl → (shutWindow tag q (shutWindow tag p s)).tracker pl = s.tracker pl) := by
  have hq : (shutWindow tag p s).tracker q = s.tracker q := tracker_shutWindow_other tag s (Ne.symm h)
  rcases plane_eq_or h pl with rfl | rfl
  · rw [tracker_shutWindow_other tag _ h]
    refine ⟨fun hc => ?_, fun hc => ?_⟩
    · rw [shutWindow_closes hc, tracker_closeWindow, if_pos rfl]
    · rw [shutWindow_still hc]
  · refine ⟨fun hc => ?_, fun hc => ?_⟩
    · rw [shutWindow_closes ((carriesTag_of_tracker hq).mpr hc), tracker_closeWindow, if_pos rfl, driver_shutWindow]
    · rw [shutWindow_still (mt (carriesTag_of_tracker hq).mp hc), hq]

theorem windowOverrun_shutBoth {tag : Byte} {p q : Plane} (h : p ≠ q) (s : State) :
    (shutWindow tag q (shutWindow tag p s)).flagSet .windowOverrun = true ↔
      s.flagSet .windowOverrun = true ∨ ∃ pl, CarriesTag tag s pl ∧ Overruns (s.driver pl) := by
  have hq : (shutWindow tag p s).tracker q = s.tracker q := tracker_shutWindow_other tag s (Ne.symm h)
  rw [windowOverrun_shutWindow, windowOverrun_shutWindow, carriesTag_of_tracker hq, driver_shutWindow, or_assoc]
  refine or_congr Iff.rfl ⟨fun hor => hor.elim (fun hp => ⟨p, hp⟩) fun hq => ⟨q, hq⟩, fun ⟨pl, hpl⟩ => ?_⟩
  rcases plane_eq_or h pl with rfl | rfl
  · exact .inl hpl
  · exact .inr hpl

theorem deliverWindowShut_addressed (h : Header) (tag : Byte) {s : State} (ha : s.ring.address ≠ none) :
    deliverWindowShut h tag s =
      finishFrame (windowShutBytes (hopped h) tag) (eachPlane (shutWindow tag) s) := by
  obtain ⟨a, ha⟩ := Option.ne_none_iff_exists'.mp ha
  unfold deliverWindowShut
  rw [ha]

/-- Settles O34: the two windows are shut one by one, in either order. -/
theorem windowShutCloses : Obligations.WindowShutCloses := by
  intro h tag s hs ha
  have hexec : exec (.windowShut h tag) s = perform (receive (deliverWindowShut h tag)) s := rfl
  obtain ⟨p, q, hne, horder⟩ := eachPlane_orders (shutWindow tag) s
  rw [perform_receive_ready _ hs, deliverWindowShut_addressed h tag ha, horder] at hexec
  refine ⟨_, hexec, ?_, ?_, fun pl => ⟨fun hnot => ?_, fun hopen hheld htag => ?_⟩, ?_, fun hnone => ?_⟩
  · show (shutWindow tag q (shutWindow tag p s.redraw)).drivers = _
    rw [shutWindow_frame, shutWindow_frame]
    rfl
  · show (shutWindow tag q (shutWindow tag p s.redraw)).ring.forward ++ _ = _
    rw [ring_shutWindow, ring_shutWindow]
    rfl
  · refine (tracker_shutBoth hne s.redraw pl).2 fun ⟨hopen, hheld, htag⟩ => ?_
    rcases hnot with hclosed | hclosing | hother
    · exact Bool.false_ne_true (hclosed.symm.trans hopen)
    · exact Bool.false_ne_true (hheld.symm.trans hclosing)
    · exact hother htag
  · exact (tracker_shutBoth hne s.redraw pl).1 ⟨hopen, hheld, htag⟩
  · refine (windowOverrun_shutBoth (tag := tag) hne s.redraw).trans (or_congr Iff.rfl (exists_congr fun pl => ?_))
    exact ⟨fun ⟨⟨hopen, hheld, htag⟩, hleg, hphase⟩ => ⟨hopen, hheld, htag, hleg, hphase⟩,
      fun ⟨hopen, hheld, htag, hleg, hphase⟩ => ⟨⟨hopen, hheld, htag⟩, hleg, hphase⟩⟩
  · show (shutWindow tag q (shutWindow tag p s.redraw)).events = s.events
    have hq : (shutWindow tag p s.redraw).tracker q = s.tracker q :=
      tracker_shutWindow_other tag s.redraw (Ne.symm hne)
    rw [events_shutWindow (by rw [hq, driver_shutWindow]; exact hnone q), events_shutWindow (s := s.redraw) (hnone p)]
    rfl

/-! ## The budget end (R44) -/

theorem driver_elapse (n : Nat) (s : State) (pl : Plane) : (s.elapse n).driver pl = (s.driver pl).elapse n := by
  cases pl <;> rfl

theorem tracker_elapse (n : Nat) (s : State) (pl : Plane) : (s.elapse n).tracker pl = (s.tracker pl).elapse n := by
  cases pl <;> rfl

theorem closedTracker_elapse (n : Nat) (d : Driver) : closedTracker (d.elapse n) = closedTracker d := rfl

theorem budgetEnd_closes {pl : Plane} {s : State} (hopen : (s.tracker pl).isOpen = true)
    (hheld : (s.tracker pl).closingHeld = false) :
    budgetEnd pl s = closeWindow pl (s.elapse (s.tracker pl).timeLeft) := by
  unfold budgetEnd
  rw [if_pos]
  rw [hopen, hheld]
  rfl

/-- Settles O35: the time left passes, and the window closes. -/
theorem budgetEndCloses : Obligations.BudgetEndCloses := by
  intro s pl hreset hopen hheld
  have hexec := exec_performs (c := .windowBudgetEnd pl) (g := budgetEnd pl) rfl hreset
  rw [budgetEnd_closes hopen hheld] at hexec
  refine ⟨_, hexec, ?_, fun q hq => ?_, ?_, ?_, ?_, ?_⟩
  · show (closeWindow pl (s.elapse (s.tracker pl).timeLeft)).tracker pl = closedTracker (s.driver pl)
    rw [tracker_closeWindow, if_pos rfl, driver_elapse, closedTracker_elapse]
  · show (closeWindow pl (s.elapse (s.tracker pl).timeLeft)).tracker q = _
    rw [tracker_closeWindow, if_neg hq]
  · show (closeWindow pl (s.elapse (s.tracker pl).timeLeft)).drivers = _
    rw [closeWindow_eq, noteOverrun_frame]
    rfl
  · show (closeWindow pl (s.elapse (s.tracker pl).timeLeft)).banks = _
    rw [closeWindow_eq, noteOverrun_frame]
    rfl
  · show (closeWindow pl (s.elapse (s.tracker pl).timeLeft)).queue = _
    rw [closeWindow_eq, noteOverrun_frame]
    rfl
  · show (closeWindow pl (s.elapse (s.tracker pl).timeLeft)).events = _
    rw [closeWindow_eq]
    generalize hw : (s.elapse (s.tracker pl).timeLeft).setTracker pl _ = w
    have hdriver : w.driver pl = (s.driver pl).elapse (s.tracker pl).timeLeft := by
      rw [← hw]
      exact driver_elapse _ s pl
    have hevents : w.events = s.events := by
      rw [← hw]
      rfl
    have hleg : (w.driver pl).leg = (s.driver pl).leg := by
      rw [hdriver]
      rfl
    have hphase : (w.driver pl).phase = (s.driver pl).phase := by
      rw [hdriver]
      rfl
    cases hl : (s.driver pl).leg with
    | none =>
      rw [noteOverrun_still fun hover => hover.1 (hleg.trans hl), hevents]
    | some l =>
      by_cases hover : (s.driver pl).phase = .driving ∨ (s.driver pl).phase = .settling
      · rw [noteOverrun_notes (hleg.trans hl) (by rw [hphase]; exact hover)]
        simp only [if_pos hover, State.raise, overrunOf, hphase, hevents]
        cases l.source <;> rfl
      · rw [noteOverrun_still fun hw' => hover (hphase ▸ hw'.2), hevents]
        exact (if_neg hover).symm

/-! ## The end of a drive (R46, R64) -/

theorem driveEnd_ends {pl : Plane} {s : State} (h : (s.driver pl).phase = .driving) :
    driveEnd pl s = endDrive pl (s.elapse (s.driver pl).left) := if_pos h

theorem endDrive_leg {pl : Plane} {s : State} {l : FlightLeg} (h : (s.driver pl).leg = some l) :
    endDrive pl s =
      if (s.tracker pl).closingHeld = true then
        (s.setDriver pl { s.driver pl with phase := .settling, left := (s.bank l.bank).settle * 10 }).setTracker pl
          Tracker.shut
      else s.setDriver pl { s.driver pl with phase := .settling, left := (s.bank l.bank).settle * 10 } := by
  unfold endDrive
  rw [h]
  rfl

theorem closingHeld_elapse (n : Nat) (x : Tracker) : (x.elapse n).closingHeld = x.closingHeld := by
  unfold Tracker.elapse
  split
  · split <;> rfl
  · rfl

/-- Settles O36: the time left passes, and the drive ends. -/
theorem driveEndSettles : Obligations.DriveEndSettles := by
  intro s pl l hreset hphase hl
  have hexec := exec_performs (c := .legDriveEnd pl) (g := driveEnd pl) rfl hreset
  rw [driveEnd_ends hphase] at hexec
  have hleg : ((s.elapse (s.driver pl).left).driver pl).leg = some l := by
    rw [driver_elapse]
    exact hl
  have hheld : ((s.elapse (s.driver pl).left).tracker pl).closingHeld = (s.tracker pl).closingHeld := by
    rw [tracker_elapse, closingHeld_elapse]
  have hdriver : ∀ x : Driver, ((s.elapse (s.driver pl).left).setDriver pl x).driver pl = x := fun x =>
    (driver_setDriver _ pl pl x).trans (if_pos rfl)
  rw [endDrive_leg hleg, hheld] at hexec
  refine ⟨_, hexec, ?_⟩
  by_cases hclosing : (s.tracker pl).closingHeld = true
  · rw [if_pos hclosing, if_pos hclosing]
    refine ⟨congrArg Driver.phase (hdriver _), (congrArg Driver.leg (hdriver _)).trans hleg,
      congrArg Driver.left (hdriver _), ?_, rfl, rfl, rfl, rfl⟩
    exact (tracker_setTracker _ pl pl _).trans (if_pos rfl)
  · rw [if_neg hclosing, if_neg hclosing]
    exact ⟨congrArg Driver.phase (hdriver _), (congrArg Driver.leg (hdriver _)).trans hleg,
      congrArg Driver.left (hdriver _), rfl, rfl, rfl, rfl, rfl⟩

end Sys2Proof.Machine
end

section
/-! PROOF. What the end of an entry and safe entry never write: of a bank its place and its wear, of a driver its phase
and its leg in flight. One lemma per operation, as in the Laws on what stands aside. -/

namespace Sys2Proof.Machine

/-- What a bank is, its place and its wear. -/
def BankRecord.worn (r : BankRecord) : Position × Nat × Nat × Nat × Nat × Bool :=
  (r.position, r.lifeCount, r.operate, r.settle, r.lifeLimit, r.fitted)

/-- A bank's place and wear, and a driver's phase and leg. -/
def State.worn (s : State) :
    (BankId → Position × Nat × Nat × Nat × Nat × Bool) × (Plane → DriverPhase × Option FlightLeg) :=
  (fun b => (s.bank b).worn, fun pl => ((s.driver pl).phase, (s.driver pl).leg))

theorem worn_of_parts {s t : State} (hb : t.banks = s.banks) (hd : t.drivers = s.drivers) : t.worn = s.worn := by
  unfold State.worn State.bank State.driver
  rw [hb, hd]

theorem worn_setBank (s : State) (b : BankId) (x : BankRecord) (h : x.worn = (s.bank b).worn) :
    (s.setBank b x).worn = s.worn := by
  refine Prod.ext (funext fun c => ?_) rfl
  show ((s.setBank b x).bank c).worn = (s.bank c).worn
  rw [bank_setBank]
  by_cases hc : c = b
  · rw [if_pos hc, h, hc]
  · rw [if_neg hc]

theorem worn_mapBanks (s : State) (f : BankId → BankRecord → BankRecord) (h : ∀ b r, (f b r).worn = r.worn) :
    (s.mapBanks f).worn = s.worn := by
  have hdrivers : (s.mapBanks f).drivers = s.drivers := drivers_mapBanks s f
  refine Prod.ext (funext fun b => ?_) (funext fun pl => by unfold State.worn State.driver; rw [hdrivers])
  show ((s.mapBanks f).bank b).worn = (s.bank b).worn
  rw [bank_mapBanks, h]

theorem worn_setDriver (s : State) (pl : Plane) (d : Driver)
    (h : d.phase = (s.driver pl).phase ∧ d.leg = (s.driver pl).leg) : (s.setDriver pl d).worn = s.worn := by
  refine Prod.ext rfl (funext fun q => ?_)
  show (((s.setDriver pl d).driver q).phase, ((s.setDriver pl d).driver q).leg) = _
  rw [driver_setDriver]
  by_cases hq : q = pl
  · rw [if_pos hq, h.1, h.2, hq]
    rfl
  · rw [if_neg hq]
    rfl

@[simp] theorem worn_setPath (s : State) (p : Slot) (x : PathRecord) : (s.setPath p x).worn = s.worn := rfl

@[simp] theorem worn_setQueue (s : State) (x : List Entry) : (s.setQueue x).worn = s.worn := rfl

@[simp] theorem worn_raise (s : State) (e : Event) : (s.raise e).worn = s.worn := rfl

@[simp] theorem worn_setSafe (s : State) (x : SafeController) : (s.setSafe x).worn = s.worn := rfl

@[simp] theorem worn_redraw (s : State) : (s.redraw).worn = s.worn := rfl

@[simp] theorem worn_setRun (s : State) (st : Station) (r : SeqRun) : (s.setRun st r).worn = s.worn := rfl

@[simp] theorem worn_setHolder (s : State) (b : BankId) (x : Option Slot) : (s.setHolder b x).worn = s.worn :=
  worn_setBank s b _ rfl

@[simp] theorem worn_setHomeOwed (s : State) (b : BankId) (x : Bool) : (s.setHomeOwed b x).worn = s.worn :=
  worn_setBank s b _ rfl

@[simp] theorem worn_freeSlot (s : State) (p : Slot) : (freeSlot p s).worn = s.worn := by
  unfold freeSlot
  simp only [worn_raise, worn_setRun, worn_setPath]
  exact worn_mapBanks s _ fun b r => by split <;> rfl

@[simp] theorem worn_freeOpt (s : State) (p : Option Slot) : (freeOpt p s).worn = s.worn := by
  unfold freeOpt
  split <;> simp

@[simp] theorem worn_acceptBreak (s : State) (p : Slot) (org : ChangeOrigin) (x : Option PriorState) :
    (acceptBreak p org x s).worn = s.worn := rfl

@[simp] theorem worn_applyCloseOwed (s : State) (p : Slot) : (applyCloseOwed p s).worn = s.worn := by
  unfold applyCloseOwed
  dsimp only
  split <;> simp

@[simp] theorem worn_settleFormed (s : State) (p : Slot) : (settleFormed p s).worn = s.worn := by
  unfold settleFormed startSettling
  dsimp only
  split
  · split <;> rfl
  · rfl

@[simp] theorem worn_failSlot (s : State) (p : Slot) (why : FailReason) : (failSlot p why s).worn = s.worn := by
  unfold failSlot
  dsimp only
  split <;> rfl

@[simp] theorem worn_notifyEnded (s : State) (e : Entry) (c : Bool) : (notifyEnded e c s).worn = s.worn := by
  unfold notifyEnded
  split <;> rfl

@[simp] theorem worn_clearHeld (s : State) (pl : Plane) : (clearHeld pl s).worn = s.worn :=
  worn_setDriver s pl _ ⟨rfl, rfl⟩

@[simp] theorem worn_removeEntry (s : State) (e : Entry) : (removeEntry e s).worn = s.worn := by
  unfold removeEntry
  dsimp only
  split <;> simp

@[simp] theorem worn_completeEntry (s : State) (e : Entry) : (completeEntry e s).worn = s.worn := by
  unfold completeEntry
  dsimp only
  split <;> simp

@[simp] theorem worn_failPaths (s : State) (e : Entry) : (failPaths e s).worn = s.worn := by
  unfold failPaths
  repeat' split
  all_goals simp

@[simp] theorem worn_recordFailure (s : State) (e : Entry) (why : EntryFailure) (b : Option BankId)
    (r : Option RouteId) : (recordFailure e why b r s).worn = s.worn := rfl

@[simp] theorem worn_failEntry (s : State) (e : Entry) (why : EntryFailure) (b : Option BankId) :
    (failEntry e why b s).worn = s.worn := by
  unfold failEntry
  dsimp only
  split <;> simp

@[simp] theorem worn_returnBanks (s : State) (o n : Slot) : (returnBanks o n s).worn = s.worn := by
  unfold returnBanks
  refine worn_mapBanks s _ fun b r => ?_
  split
  · split <;> rfl
  · rfl

@[simp] theorem worn_undoAcceptance (s : State) (e : Entry) : (undoAcceptance e s).worn = s.worn := by
  unfold undoAcceptance
  split
  · rw [worn_freeSlot]
    exact worn_mapBanks s _ fun b r => by split <;> rfl
  · rfl
  · simp
  · rfl

@[simp] theorem worn_cancelEntry (s : State) (e : Entry) : (cancelEntry e s).worn = s.worn := by
  simp [cancelEntry]

@[simp] theorem worn_cancelAll (s : State) (es : List Entry) : (cancelAll es s).worn = s.worn := by
  unfold cancelAll
  induction es generalizing s with
  | nil => rfl
  | cons e rest ih => rw [List.foldl_cons, ih, worn_cancelEntry]

@[simp] theorem worn_failIdleHead (s : State) (pl : Plane) : (failIdleHead pl s).worn = s.worn := by
  unfold failIdleHead
  repeat' split
  all_goals simp

@[simp] theorem worn_updateEntry (s : State) (e e' : Entry) : (updateEntry e e' s).worn = s.worn := rfl

@[simp] theorem worn_addLegDone (s : State) (p : Slot) : (addLegDone p s).worn = s.worn := rfl

@[simp] theorem worn_afterLeg (s : State) (e : Entry) : (afterLeg e s).worn = s.worn := by
  unfold afterLeg
  repeat' split
  all_goals simp

@[simp] theorem worn_endLeg (s : State) (e : Entry) (l : PlanLeg) : (endLeg e l s).worn = s.worn := by
  unfold endLeg
  dsimp only
  rw [worn_afterLeg]
  split <;> simp

@[simp] theorem worn_failSafeHead (s : State) (pl : Plane) (b : BankId) : (failSafeHead pl b s).worn = s.worn := by
  unfold failSafeHead
  repeat' split
  all_goals simp

@[simp] theorem worn_endForcedBreak (s : State) (p : Slot) (b : BankId) : (endForcedBreak p b s).worn = s.worn := by
  unfold endForcedBreak
  dsimp only
  repeat' split
  all_goals simp

@[simp] theorem worn_passHome (s : State) (pl : Plane) (b : BankId) : (passHome pl b s).worn = s.worn :=
  worn_setDriver s pl _ ⟨rfl, rfl⟩

/-- R139, R140: a cause that joins, with the safe entry it may bring. -/
theorem worn_causeJoins {m : BitVec 5} {s w : State} (h : CauseJoins m s w) : w.worn = s.worn := by
  by_cases hnormal : s.safe.state = .normal
  · obtain ⟨x, hx, hw⟩ := h.1 hnormal
    have hx' : x.worn = s.worn := by
      rw [hx, worn_redraw, worn_cancelAll]
      rfl
    rcases hw with rfl | rfl <;> simp [hx']
  · rw [h.2 hnormal, worn_setSafe]

/-- R130: a fault that becomes valid. -/
theorem worn_becameValid {b : BankId} {k : FaultKind} {s w : State} (h : BecameValid b k s w) : w.worn = s.worn := by
  obtain ⟨v, ⟨hframe, -⟩, hjoins, hsame⟩ := h
  have hv : v.worn = s.worn := by
    rw [hframe]
    rfl
  cases hmask : kindIn k s.settings.safeMask with
  | true => rw [worn_causeJoins (hjoins hmask), hv]
  | false => rw [hsame hmask, hv]

theorem counters_becameValid {b : BankId} {k : FaultKind} {s w : State} (h : BecameValid b k s w) :
    w.sup.counters = s.sup.counters := by
  obtain ⟨v, ⟨-, hsup, -⟩, hjoins, hsame⟩ := h
  have hv : v.sup.counters = s.sup.counters := by rw [hsup]
  cases hmask : kindIn k s.settings.safeMask with
  | true => rw [sup_causeJoins (hjoins hmask), hv]
  | false => rw [hsame hmask, hv]

/-! ## What stands aside at the end of a leg -/

@[simp] theorem aside_updateEntry (s : State) (e e' : Entry) : (updateEntry e e' s).aside = s.aside := rfl

@[simp] theorem aside_addLegDone (s : State) (p : Slot) : (addLegDone p s).aside = s.aside := rfl

@[simp] theorem aside_afterLeg (s : State) (e : Entry) : (afterLeg e s).aside = s.aside := by
  unfold afterLeg
  repeat' split
  all_goals simp

@[simp] theorem aside_endLeg (s : State) (e : Entry) (l : PlanLeg) : (endLeg e l s).aside = s.aside := by
  unfold endLeg
  dsimp only
  rw [aside_afterLeg]
  split <;> simp

@[simp] theorem aside_failSafeHead (s : State) (pl : Plane) (b : BankId) :
    (failSafeHead pl b s).aside = s.aside := by
  unfold failSafeHead
  repeat' split
  all_goals simp

@[simp] theorem aside_endForcedBreak (s : State) (p : Slot) (b : BankId) :
    (endForcedBreak p b s).aside = s.aside := by
  unfold endForcedBreak
  dsimp only
  repeat' split
  all_goals simp

@[simp] theorem aside_passHome (s : State) (pl : Plane) (b : BankId) : (passHome pl b s).aside = s.aside := rfl

theorem safe_of_aside {s t : State} (h : t.aside = s.aside) : t.safe = s.safe := congrArg (fun x => x.2.2.2) h

theorem sup_of_aside {s t : State} (h : t.aside = s.aside) : t.sup = s.sup := congrArg (fun x => x.2.2.1) h

theorem worn_endMatched (pl : Plane) (l : FlightLeg) (s : State) : (endMatched pl l s).worn = s.worn := by
  unfold endMatched
  repeat' split
  all_goals simp

theorem aside_endMatched (pl : Plane) (l : FlightLeg) (s : State) : (endMatched pl l s).aside = s.aside := by
  unfold endMatched
  repeat' split
  all_goals simp

theorem worn_endMismatched (pl : Plane) (l : FlightLeg) (s : State) : (endMismatched pl l s).worn = s.worn := by
  unfold endMismatched
  dsimp only
  have hpause : ∀ x : Option ForcedPause, (s.setDriver pl { s.driver pl with pause := x }).worn = s.worn := fun x =>
    worn_setDriver s pl _ ⟨rfl, rfl⟩
  repeat' split
  all_goals simp [hpause]

theorem aside_endMismatched (pl : Plane) (l : FlightLeg) (s : State) : (endMismatched pl l s).aside = s.aside := by
  unfold endMismatched
  dsimp only
  repeat' split
  all_goals simp

end Sys2Proof.Machine
end

section
/-! PROOF. A readback that equals the target (R29 to R31, R34, R55, R65, R68, R71, R73, R84, R95). -/

namespace Sys2Proof.Machine

/-! ## The end of an entry, after its paths have been settled (R55, R68) -/

/-- R55: the entry leaves the queue, and its sequencer has the notice. -/
def entryGone (e : Entry) (s : State) : State := notifyEnded e false (removeEntry e s)

theorem entryGone_keeps (e : Entry) (s : State) :
    (entryGone e s).banks = s.banks ∧ (entryGone e s).paths = s.paths ∧ (entryGone e s).events = s.events := by
  obtain ⟨hbanks, hpaths, hevents⟩ := rest_removeEntry e s
  obtain ⟨hbanks', hpaths', hevents', -⟩ := rest_notifyEnded e false (removeEntry e s)
  exact ⟨hbanks'.trans hbanks, hpaths'.trans hpaths, hevents'.trans hevents⟩

theorem queue_entryGone (e : Entry) (s : State) : (entryGone e s).queue = s.queue.erase e := by
  rw [entryGone, queue_notifyEnded, queue_removeEntry]

theorem aside_entryGone (e : Entry) (s : State) : (entryGone e s).aside = s.aside := by
  rw [entryGone, aside_notifyEnded, aside_removeEntry]

theorem completeEntry_break {e : Entry} {o : Slot} (s : State) (ho : e.old = some o) (hn : e.new = none) :
    completeEntry e s = entryGone e (freeSlot o s) := by
  unfold completeEntry
  rw [ho, hn]
  rfl

/-- The state in which the close owed of a new slot is looked at. -/
def formedState (n : Slot) (e : Entry) (s : State) : State := entryGone e (settleFormed n (freeOpt e.old s))

theorem completeEntry_new {e : Entry} {n : Slot} (s : State) (hn : e.new = some n) :
    completeEntry e s = applyCloseOwed n (formedState n e s) := by
  unfold completeEntry
  rw [hn]
  rfl

theorem path_freeOpt_other {o : Option Slot} {n : Slot} (s : State) (h : o ≠ some n) :
    (freeOpt o s).path n = s.path n := by
  cases o with
  | none => rfl
  | some q => exact (path_freeSlot q s n).trans (if_neg fun heq => h (congrArg some heq.symm))

theorem queue_freeOpt (o : Option Slot) (s : State) : (freeOpt o s).queue = s.queue := by
  cases o with
  | none => rfl
  | some q => exact queue_freeSlot q s

theorem pathWork_freeOpt (o : Option Slot) (s : State) : PathWork s (freeOpt o s) := by
  cases o with
  | none => rfl
  | some q => exact pathWork_freeSlot q s

theorem pathLive_freeOpt (o : Option Slot) (s : State) : (freeOpt o s).flagSet .pathLive = s.flagSet .pathLive := by
  cases o with
  | none => rfl
  | some q =>
    unfold freeOpt freeSlot State.flagSet State.raise
    simp [Event.mask, Event.bit]

theorem queue_settleFormed (n : Slot) (s : State) : (settleFormed n s).queue = s.queue := by
  unfold settleFormed startSettling
  dsimp only
  split
  · split <;> rfl
  · rfl

theorem path_settleFormed_other {n q : Slot} (s : State) (h : q ≠ n) : (settleFormed n s).path q = s.path q := by
  unfold settleFormed startSettling
  dsimp only
  split
  · split
    · rw [path_goLive, if_neg h, path_setPath, if_neg h]
    · rw [path_setPath, if_neg h]
  · rfl

theorem queue_formedState (n : Slot) (e : Entry) (s : State) : (formedState n e s).queue = s.queue.erase e := by
  rw [formedState, queue_entryGone, queue_settleFormed, queue_freeOpt]

theorem path_formedState (n : Slot) (e : Entry) (s : State) (q : Slot) :
    (formedState n e s).path q = (settleFormed n (freeOpt e.old s)).path q :=
  path_of_paths _ _ (entryGone_keeps e _).2.1 q

theorem flagSet_formedState (n : Slot) (e : Entry) (s : State) (x : Event) :
    (formedState n e s).flagSet x = (settleFormed n (freeOpt e.old s)).flagSet x :=
  flagSet_of_events (entryGone_keeps e _).2.2 x

theorem safe_formedState (n : Slot) (e : Entry) (s : State) : (formedState n e s).safe = s.safe := by
  refine safe_of_aside ?_
  rw [formedState, aside_entryGone, aside_settleFormed, aside_freeOpt]

/-! ## The close owed (R34) -/

/-- R34: no BREAK is owed, or the state is not NORMAL. -/
theorem applyCloseOwed_still {n : Slot} {s : State} (h : (s.path n).closeOwed = false ∨ s.safe.state ≠ .normal) :
    applyCloseOwed n s = s := by
  unfold applyCloseOwed
  refine if_neg fun hboth => ?_
  rw [Bool.and_eq_true, isNormal_iff] at hboth
  exact h.elim (fun hnot => Bool.false_ne_true (hnot.symm.trans hboth.1)) fun hnot => hnot hboth.2

theorem applyCloseOwed_breaks {n : Slot} {s : State} (howed : (s.path n).closeOwed = true)
    (hnormal : s.safe.state = .normal) :
    applyCloseOwed n s =
      acceptBreak n (owedOrigin (s.path n))
        (if (s.path n).state = .failed then some .failed else some .settling) s := by
  unfold applyCloseOwed
  refine if_pos ?_
  rw [howed, (isNormal_iff s).mpr hnormal]
  rfl

theorem owedOrigin_closePath {x : PathRecord} {st : Station} (hc : x.closeOwedCause = some .closePath)
    (hst : x.station = some st) : owedOrigin x = .request st := by
  unfold owedOrigin
  simp only [hc, hst]

theorem owedOrigin_fixtureLoss {x : PathRecord} (hc : x.closeOwedCause = some .fixtureLoss) : owedOrigin x = .part := by
  unfold owedOrigin
  simp only [hc]

theorem path_applyCloseOwed_other {n q : Slot} (s : State) (h : q ≠ n) : (applyCloseOwed n s).path q = s.path q := by
  unfold applyCloseOwed
  dsimp only
  split
  · rw [path_acceptBreak, if_neg h]
  · rfl

/-! ## A formed path settles (R30) -/

theorem settleFormed_settles {n : Slot} {s : State} (hforming : (s.path n).state = .forming)
    (h : (s.path n).closeOwed = false ∨ s.safe.state ≠ .normal) : settleFormed n s = startSettling n s := by
  unfold settleFormed
  refine if_pos ?_
  rw [hforming, Bool.and_eq_true, Bool.not_eq_true', Bool.and_eq_false_iff]
  exact ⟨rfl, h.imp id decide_eq_false⟩

theorem settleFormed_still {n : Slot} {s : State}
    (h : (s.path n).state ≠ .forming ∨ ((s.path n).closeOwed = true ∧ s.safe.state = .normal)) :
    settleFormed n s = s := by
  unfold settleFormed
  refine if_neg fun hboth => ?_
  rw [Bool.and_eq_true, decide_eq_true_iff, Bool.not_eq_true', Bool.and_eq_false_iff] at hboth
  rcases h with hstate | ⟨howed, hnormal⟩
  · exact hstate hboth.1
  · rcases hboth.2 with hnot | hnot
    · exact Bool.false_ne_true (hnot.symm.trans howed)
    · exact Bool.false_ne_true (hnot.symm.trans ((isNormal_iff s).mpr hnormal))

theorem extraSettleTicks_of_route {s : State} {n : Slot} {r : RouteId} (h : (s.path n).route = some r) :
    s.extraSettleTicks n = (s.route r).extraSettle * 10 := by
  unfold State.extraSettleTicks
  simp only [slotRoute_of_route h, Config.ticksPer100us]

theorem startSettling_timed {s : State} {n : Slot} {r : RouteId} (h : (s.path n).route = some r)
    (hsettle : (s.route r).extraSettle ≠ 0) :
    (startSettling n s).path n =
      { s.path n with state := .settling, settleTimer := some ((s.route r).extraSettle * 10) } := by
  have hticks := extraSettleTicks_of_route h
  unfold startSettling
  dsimp only
  rw [hticks, if_neg (by omega), path_setPath, if_pos rfl]

theorem startSettling_atOnce {s : State} {n : Slot} {r : RouteId} (h : (s.path n).route = some r)
    (hsettle : (s.route r).extraSettle = 0) :
    (startSettling n s).path n =
        { s.path n with state := .live, settleTimer := none, established := s.ring.lastCadence } ∧
      (startSettling n s).flagSet .pathLive = true := by
  have hticks := extraSettleTicks_of_route h
  unfold startSettling
  dsimp only
  rw [hticks, if_pos (by omega)]
  refine ⟨?_, flagSet_raise_self _ _⟩
  rw [path_goLive, if_pos rfl, path_setPath, if_pos rfl]
  rfl

/-! ## The completion of an entry (R68) -/

/-- R84: the sequencer whose only pending record is the entry's. -/
theorem NoticeTaken.of_single {e : Entry} {s w : State} {st : Station} {c : PendingChange} (h : NoticeTaken e s w)
    (ho : e.origin = .sequencer st) (hchanges : (s.run st).changes = [c]) (hc : RecordOf e c) :
    (w.run st).changes = [] ∧
      ((s.run st).state = .waiting → (w.run st).state = .dwelling ∧ (w.run st).dwell = (s.run st).copyDwell) ∧
      ((s.run st).state ≠ .waiting → (w.run st).state = (s.run st).state) := by
  have hrun : w.run st = _ := congrArg Sequencer.run (h st)
  rw [hrun]
  have hends : (s.run st).state = .waiting → EndsWaiting e st s := fun hwaiting =>
    ⟨ho, hwaiting, by rw [hchanges]; exact List.cons_ne_nil _ _, fun x hx => by
      rw [hchanges] at hx
      exact List.mem_singleton.mp hx ▸ hc⟩
  refine ⟨?_, fun hwaiting => ⟨if_pos (hends hwaiting), if_pos (hends hwaiting)⟩,
    fun hnot => if_neg fun hw => hnot hw.2.1⟩
  dsimp only
  rw [if_pos ho, hchanges, List.filter_eq_nil_iff]
  intro x hx
  rw [List.mem_singleton.mp hx, decide_eq_true_iff, not_not]
  exact hc

section New

variable {s : State} {e : Entry} {n : Slot}

/-- The close owed finds the new slot as the entry's start left it, but for its settling. -/
theorem completeEntry_settles {r : RouteId} (hn : e.new = some n) (hold : e.old ≠ some n)
    (hforming : (s.path n).state = .forming) (hroute : (s.path n).route = some r)
    (h : (s.path n).closeOwed = false ∨ s.safe.state ≠ .normal) :
    (completeEntry e s).queue = s.queue.erase e ∧
      ((s.route r).extraSettle ≠ 0 →
        (completeEntry e s).path n =
          { s.path n with state := .settling, settleTimer := some ((s.route r).extraSettle * 10) }) ∧
      ((s.route r).extraSettle = 0 →
        (completeEntry e s).path n =
            { s.path n with state := .live, settleTimer := none, established := s.ring.lastCadence } ∧
          (completeEntry e s).flagSet .pathLive = true) := by
  have hwork := pathWork_freeOpt e.old s
  have hpath := path_freeOpt_other s hold
  have hsafe : (freeOpt e.old s).safe = s.safe := by rw [hwork]
  have hring : (freeOpt e.old s).ring = s.ring := by rw [hwork]
  have hroutes : (freeOpt e.old s).route r = s.route r := by rw [hwork]; rfl
  have hsettles : settleFormed n (freeOpt e.old s) = startSettling n (freeOpt e.old s) :=
    settleFormed_settles (by rw [hpath]; exact hforming) (by rw [hpath, hsafe]; exact h)
  have hroute' : ((freeOpt e.old s).path n).route = some r := by rw [hpath]; exact hroute
  have howed : ((formedState n e s).path n).closeOwed = (s.path n).closeOwed := by
    rw [path_formedState, hsettles]
    by_cases hzero : ((freeOpt e.old s).route r).extraSettle = 0
    · rw [(startSettling_atOnce hroute' hzero).1, hpath]
    · rw [startSettling_timed hroute' hzero, hpath]
  have hsame : completeEntry e s = formedState n e s :=
    (completeEntry_new s hn).trans (applyCloseOwed_still (by rw [howed, safe_formedState]; exact h))
  rw [hsame]
  refine ⟨queue_formedState n e s, fun hne => ?_, fun hzero => ?_⟩
  · rw [path_formedState, hsettles, startSettling_timed hroute' (by rw [hroutes]; exact hne), hpath, hroutes]
  · obtain ⟨hlive, hraised⟩ := startSettling_atOnce hroute' (by rw [hroutes]; exact hzero)
    rw [path_formedState, flagSet_formedState, hsettles, hlive, hpath, hring]
    exact ⟨rfl, hraised⟩

/-- R34: in NORMAL with close owed the new slot is what it was, and its BREAK follows. -/
theorem formedState_owed (hold : e.old ≠ some n) (howed : (s.path n).closeOwed = true)
    (hnormal : s.safe.state = .normal) :
    (formedState n e s).path n = s.path n ∧
      (formedState n e s).flagSet .pathLive = s.flagSet .pathLive ∧ (formedState n e s).safe.state = .normal := by
  have hpath := path_freeOpt_other s hold
  have hsafe : (freeOpt e.old s).safe = s.safe := by rw [pathWork_freeOpt e.old s]
  have hstill : settleFormed n (freeOpt e.old s) = freeOpt e.old s :=
    settleFormed_still (.inr ⟨by rw [hpath]; exact howed, by rw [hsafe]; exact hnormal⟩)
  rw [path_formedState, flagSet_formedState, safe_formedState, hstill]
  exact ⟨hpath, pathLive_freeOpt e.old s, hnormal⟩

theorem completeEntry_closes (hn : e.new = some n) (hold : e.old ≠ some n)
    (hforming : (s.path n).state = .forming) (howed : (s.path n).closeOwed = true) (hnormal : s.safe.state = .normal) :
    ((completeEntry e s).path n).state = .closing ∧ ((completeEntry e s).path n).prior = some .settling ∧
      ((completeEntry e s).path n).closeOwed = false ∧ ((completeEntry e s).path n).closeOwedCause = none ∧
      ∃ y : Entry, (completeEntry e s).queue = s.queue.erase e ++ [y] ∧ y.kind = .breakChange ∧ y.old = some n ∧
        y.new = none ∧ y.active = false ∧
        y.origin = owedOrigin (s.path n) ∧ (completeEntry e s).flagSet .pathLive = s.flagSet .pathLive := by
  obtain ⟨hpath, hlive, hnormal'⟩ := formedState_owed (e := e) hold howed hnormal
  have hnotFailed : ((formedState n e s).path n).state ≠ .failed := by rw [hpath, hforming]; decide
  have hsame := applyCloseOwed_breaks (by rw [hpath]; exact howed) hnormal'
  rw [if_neg hnotFailed, hpath] at hsame
  rw [completeEntry_new s hn, hsame]
  have hself := (path_acceptBreak n (owedOrigin (s.path n)) (some .settling) (formedState n e s) n).trans (if_pos rfl)
  rw [hself]
  have hqueue := (queue_acceptBreak n (owedOrigin (s.path n)) (some .settling) (formedState n e s)).trans
    (congrArg (· ++ _) (queue_formedState n e s))
  exact ⟨rfl, rfl, rfl, rfl, _, hqueue, rfl, rfl, rfl, rfl, rfl, hlive⟩

theorem completeEntry_frees_old {o : Slot} (hn : e.new = some n) (hold : e.old ≠ some n) (ho : e.old = some o) :
    (completeEntry e s).path o = PathRecord.free ∧ (completeEntry e s).flagSet .pathFreed = true := by
  have hne : o ≠ n := fun heq => hold (ho.trans (congrArg some heq))
  rw [completeEntry_new s hn]
  refine ⟨?_, ?_⟩
  · rw [path_applyCloseOwed_other _ hne, path_formedState, path_settleFormed_other _ hne, ho]
    exact (path_freeSlot o s o).trans (if_pos rfl)
  · refine flagSet_applyCloseOwed _ _ _ ?_
    rw [flagSet_formedState, ho]
    exact flagSet_settleFormed _ _ _ (flagSet_pathFreed_freeSlot o s)

/-- R34: a new slot that a fixture loss has made FAILED. -/
theorem completeEntry_failed (hn : e.new = some n) (hold : e.old ≠ some n) (hfailed : (s.path n).state = .failed)
    (howed : (s.path n).closeOwed = true) :
    (s.safe.state ≠ .normal →
        (completeEntry e s).path n = s.path n ∧ (completeEntry e s).queue = s.queue.erase e) ∧
      (s.safe.state = .normal → FailedThenClosing n s (completeEntry e s) (s.queue.erase e)) := by
  refine ⟨fun hnot => ?_, fun hnormal => ?_⟩
  · have hpath := path_freeOpt_other s hold
    have hstill : settleFormed n (freeOpt e.old s) = freeOpt e.old s :=
      settleFormed_still (.inl (by rw [hpath, hfailed]; decide))
    rw [completeEntry_new s hn, applyCloseOwed_still (.inr (by rw [safe_formedState]; exact hnot)), path_formedState,
      hstill]
    exact ⟨hpath, queue_formedState n e s⟩
  · obtain ⟨hpath, hlive, hnormal'⟩ := formedState_owed (e := e) hold howed hnormal
    obtain ⟨hrecord, hraised, y, hqueue, hy⟩ := failedThenClosing_applyCloseOwed n (formedState n e s)
      (by rw [hpath]; exact hfailed) (by rw [hpath]; exact howed) hnormal'
    rw [hpath] at hrecord hy
    rw [completeEntry_new s hn]
    refine ⟨hrecord, hraised.trans hlive, y, ?_, hy⟩
    rw [hqueue, queue_formedState]

end New

/-! ## A leg that leaves the plan (R29) -/

theorem endLeg_last_new {s : State} {e : Entry} {l : PlanLeg} {n : Slot} (hplan : e.plan = [l])
    (hcounts : l.counts = .newSlot) (hn : e.new = some n) :
    endLeg e l s =
      completeEntry { e with active := true, plan := [] }
        ((s.setPath n { s.path n with legsDone := (s.path n).legsDone + 1 }).setQueue
          (replaceFirst e { e with active := true, plan := [] } s.queue)) := by
  unfold endLeg
  rw [hcounts, hn, hplan]
  rfl

theorem endLeg_last_old {s : State} {e : Entry} {l : PlanLeg} {o : Slot} (hplan : e.plan = [l])
    (hcounts : l.counts = .oldSlot) (ho : e.old = some o) :
    endLeg e l s =
      completeEntry { e with active := true, plan := [] }
        (((s.setBank l.bank { s.bank l.bank with holder := none }).setPath o
            { s.path o with legsDone := (s.path o).legsDone + 1 }).setQueue
          (replaceFirst e { e with active := true, plan := [] } s.queue)) := by
  unfold endLeg
  rw [hcounts, ho, hplan]
  rfl

/-- What a leg's end writes before the entry is looked at again. -/
def legCounted (e : Entry) (l : PlanLeg) (s : State) : State :=
  match l.counts, e.old, e.new with
  | .oldSlot, some o, _ => addLegDone o (s.setHolder l.bank none)
  | .newSlot, _, some n => addLegDone n s
  | _, _, _ => s

theorem endLeg_eq (e : Entry) (l : PlanLeg) (s : State) :
    endLeg e l s =
      afterLeg { e with active := true, plan := e.plan.tail }
        (legCounted e l (updateEntry e { e with active := true, plan := e.plan.tail } s)) := rfl

theorem legCounted_new {e : Entry} {l : PlanLeg} {n : Slot} (s : State) (hcounts : l.counts = .newSlot)
    (hn : e.new = some n) : legCounted e l s = addLegDone n s := by
  unfold legCounted
  rw [hcounts, hn]

theorem legCounted_old {e : Entry} {l : PlanLeg} {o : Slot} (s : State) (hcounts : l.counts = .oldSlot)
    (ho : e.old = some o) : legCounted e l s = addLegDone o (s.setHolder l.bank none) := by
  unfold legCounted
  rw [hcounts, ho]

theorem legCounted_neither {e : Entry} {l : PlanLeg} (s : State) (hcounts : l.counts = .neither) :
    legCounted e l s = s := by
  unfold legCounted
  rw [hcounts]

theorem queue_legCounted (e : Entry) (l : PlanLeg) (s : State) : (legCounted e l s).queue = s.queue := by
  unfold legCounted
  split <;> rfl

theorem afterLeg_goes_on {e : Entry} {x : PlanLeg} {rest : List PlanLeg} (s : State) (hplan : e.plan = x :: rest)
    (h : e.old = none ∨ ∃ k ∈ x :: rest, k.part = .breakPart) : afterLeg e s = s := by
  unfold afterLeg
  rw [hplan]
  refine (if_neg Bool.false_ne_true).trans ?_
  cases ho : e.old with
  | none => rfl
  | some o =>
    rcases h with h | h
    · rw [ho] at h
      cases h
    · exact if_pos ((anyBreakPart_iff _).mpr h)

/-- R29: the break part of a SWAP has ended. -/
theorem afterLeg_frees {e : Entry} {x : PlanLeg} {rest : List PlanLeg} {o : Slot} (s : State)
    (hplan : e.plan = x :: rest) (ho : e.old = some o) (hmake : ∀ k ∈ x :: rest, k.part = .makePart) :
    afterLeg e s = updateEntry e { e with old := none } (freeSlot o s) := by
  have hany : ¬ ((x :: rest).any fun k => decide (k.part = .breakPart)) = true := by
    rw [anyBreakPart_iff]
    rintro ⟨k, hk, hpart⟩
    rw [hmake k hk] at hpart
    cases hpart
  unfold afterLeg
  rw [hplan]
  refine (if_neg Bool.false_ne_true).trans ?_
  rw [ho]
  exact if_neg hany

theorem mem_replaceFirst {e e' : Entry} {q : List Entry} (h : e ∈ q) : e' ∈ replaceFirst e e' q := by
  obtain ⟨before, after, -, -, hreplaced⟩ := eq_append_of_replaceFirst e' h
  rw [hreplaced]
  exact List.mem_append_right _ List.mem_cons_self

theorem holder_legCounted {e : Entry} {l : PlanLeg} {s : State} {o : Slot} {b : BankId}
    (h : (s.bank b).holder = some o) :
    ((legCounted e l s).bank b).holder = some o ∨ ((legCounted e l s).bank b).holder = none := by
  unfold legCounted
  split
  next =>
    show (((s.setHolder l.bank none).bank b).holder = _) ∨ _
    unfold State.setHolder
    by_cases hb : b = l.bank
    · exact .inr (by show ((s.setBank l.bank _).bank b).holder = none; rw [bank_setBank, if_pos hb])
    · exact .inl (by rw [bank_setBank, if_neg hb]; exact h)
  next => exact .inl h
  next => exact .inl h

theorem path_legCounted_new {e : Entry} {l : PlanLeg} {s : State} {o n : Slot} (ho : e.old = some o)
    (hn : e.new = some n) (hne : o ≠ n) :
    (legCounted e l s).path n =
      if l.counts = .newSlot then { s.path n with legsDone := (s.path n).legsDone + 1 } else s.path n := by
  cases hcounts : l.counts with
  | newSlot =>
    rw [legCounted_new s hcounts hn, if_pos rfl]
    exact (path_setPath s n n _).trans (if_pos rfl)
  | oldSlot =>
    rw [legCounted_old s hcounts ho, if_neg (by decide)]
    exact (path_setPath _ o n _).trans (if_neg (Ne.symm hne))
  | neither => rw [legCounted_neither s hcounts, if_neg (by decide)]

/-- R29: the break part of a SWAP has ended: the old slot goes, and the entry holds it no more. -/
def breakEnded (e e' : Entry) (o : Slot) (s : State) : State := updateEntry e e' (freeSlot o s)

theorem updateEntry_keeps (e e' : Entry) (s : State) :
    (updateEntry e e' s).paths = s.paths ∧ (updateEntry e e' s).banks = s.banks ∧
      (updateEntry e e' s).events = s.events := ⟨rfl, rfl, rfl⟩

theorem path_breakEnded (e e' : Entry) (o q : Slot) (s : State) :
    (breakEnded e e' o s).path q = if q = o then PathRecord.free else s.path q := by
  rw [breakEnded, path_of_paths _ _ (updateEntry_keeps e e' _).1, path_freeSlot]

theorem pathFreed_breakEnded (e e' : Entry) (o : Slot) (s : State) :
    (breakEnded e e' o s).flagSet .pathFreed = true := by
  rw [breakEnded, flagSet_of_events (updateEntry_keeps e e' _).2.2, flagSet_pathFreed_freeSlot]

theorem queue_breakEnded (e e' : Entry) (o : Slot) (s : State) :
    (breakEnded e e' o s).queue = replaceFirst e e' s.queue := congrArg (replaceFirst e e') (queue_freeSlot o s)

theorem holder_breakEnded {o : Slot} {s : State} {b : BankId} (e e' : Entry)
    (h : (s.bank b).holder = some o ∨ (s.bank b).holder = none) : ((breakEnded e e' o s).bank b).holder = none := by
  rw [breakEnded, bank_of_banks _ _ (updateEntry_keeps e e' _).2.1, bank_freeSlot]
  rcases h with h | h
  · rw [if_pos h]
  · rw [if_neg (by rw [h]; exact (Option.some_ne_none o).symm)]
    exact h

/-- R29, R68: the end of a leg that frees the old slot of a SWAP. -/
theorem endLeg_frees {s : State} {e : Entry} {l x : PlanLeg} {rest : List PlanLeg} {o n : Slot}
    (hplan : e.plan = l :: x :: rest) (he : e ∈ s.queue) (ho : e.old = some o) (hn : e.new = some n) (hne : o ≠ n)
    (hmake : ∀ k ∈ x :: rest, k.part = .makePart) :
    (endLeg e l s).path o = PathRecord.free ∧ (endLeg e l s).flagSet .pathFreed = true ∧
      { e with active := true, old := none, plan := x :: rest } ∈ (endLeg e l s).queue ∧
      (∀ b, (s.bank b).holder = some o → ((endLeg e l s).bank b).holder = none) ∧
      (endLeg e l s).path n =
        (if l.counts = .newSlot then { s.path n with legsDone := (s.path n).legsDone + 1 } else s.path n) := by
  have htail : e.plan.tail = x :: rest := by rw [hplan]; rfl
  have hend : endLeg e l s = breakEnded { e with active := true, plan := x :: rest }
      { e with active := true, old := none, plan := x :: rest } o
      (legCounted e l (updateEntry e { e with active := true, plan := x :: rest } s)) := by
    rw [endLeg_eq, htail]
    exact afterLeg_frees _ rfl ho hmake
  have hcounted := path_legCounted_new (l := l)
    (s := updateEntry e { e with active := true, plan := x :: rest } s) ho hn hne
  rw [hend, path_breakEnded, path_breakEnded, if_pos rfl, if_neg (Ne.symm hne), pathFreed_breakEnded, queue_breakEnded,
    queue_legCounted]
  exact ⟨rfl, rfl, mem_replaceFirst (mem_replaceFirst he),
    fun b hb => holder_breakEnded _ _ (holder_legCounted hb), hcounted⟩

theorem endLeg_goes_on {s : State} {e : Entry} {l x : PlanLeg} {rest : List PlanLeg} (hplan : e.plan = l :: x :: rest)
    (h : e.old = none ∨ ∃ k ∈ x :: rest, k.part = .breakPart) :
    endLeg e l s = legCounted e l (updateEntry e { e with active := true, plan := x :: rest } s) := by
  have htail : e.plan.tail = x :: rest := by rw [hplan]; rfl
  rw [endLeg_eq, htail]
  exact afterLeg_goes_on _ rfl h

/-! ## What the end of a matched leg does (R65, R71, R73) -/

theorem settleEnd_takes {pl : Plane} {s : State} (h : (s.driver pl).phase = .settling) :
    settleEnd pl s = takeReadback pl (s.elapse (s.driver pl).left) := if_pos h

theorem endMatched_entry {pl : Plane} {l : FlightLeg} {w : State} {e : Entry} {z : PlanLeg} {rest : List PlanLeg}
    (hsource : l.source = .entry) (hhead : w.headOf pl = some e) (hplan : e.plan = z :: rest) :
    endMatched pl l w = failSafeHead pl l.bank (endLeg e z w) := by
  unfold endMatched
  rw [hsource, hhead]
  dsimp only
  rw [hplan]

theorem endMatched_home {pl : Plane} {l : FlightLeg} {w : State} (h : l.source = .home ∨ l.source = .forcedHome) :
    endMatched pl l w = w.setBank l.bank { w.bank l.bank with homeOwed := false } := by
  unfold endMatched
  rcases h with h | h <;> rw [h] <;> rfl

theorem endMatched_forced {pl : Plane} {l : FlightLeg} {w : State} {p : Slot} (h : l.source = .forcedBreak p) :
    endMatched pl l w = endForcedBreak p l.bank w := by
  unfold endMatched
  rw [h]

theorem failSafeHead_normal {pl : Plane} {b : BankId} {s : State} (h : s.safe.state = .normal) :
    failSafeHead pl b s = s := if_pos ((isNormal_iff s).mpr h)

theorem failSafeHead_active {pl : Plane} {b : BankId} {s : State} {q : Entry} (h : s.safe.state ≠ .normal)
    (hq : s.headOf pl = some q) (hactive : q.active = true) :
    failSafeHead pl b s = failEntry q .safe (some b) s := by
  unfold failSafeHead
  rw [if_neg (mt (isNormal_iff s).mp h), hq]
  exact if_pos hactive

theorem failSafeHead_waiting {pl : Plane} {b : BankId} {s : State}
    (hq : ∀ q, s.headOf pl = some q → q.active = false) : failSafeHead pl b s = s := by
  unfold failSafeHead
  split
  next => rfl
  next =>
    cases hhead : s.headOf pl with
    | none => rfl
    | some q => exact if_neg (by rw [hq q hhead]; decide)

/-- What is read of a bank and a driver through `worn`. -/
theorem bank_of_worn {s t : State} (h : t.worn = s.worn) (b : BankId) :
    (t.bank b).position = (s.bank b).position ∧ (t.bank b).lifeCount = (s.bank b).lifeCount ∧
      (t.bank b).operate = (s.bank b).operate ∧ (t.bank b).settle = (s.bank b).settle ∧
      (t.bank b).lifeLimit = (s.bank b).lifeLimit ∧ (t.bank b).fitted = (s.bank b).fitted := by
  have hb : (t.bank b).worn = (s.bank b).worn := congrArg (fun x => x.1 b) h
  simpa only [BankRecord.worn, Prod.mk.injEq] using hb

theorem driver_of_worn {s t : State} (h : t.worn = s.worn) (pl : Plane) :
    (t.driver pl).phase = (s.driver pl).phase ∧ (t.driver pl).leg = (s.driver pl).leg := by
  have hd : ((t.driver pl).phase, (t.driver pl).leg) = _ := congrArg (fun x => x.2 pl) h
  simpa only [State.worn, Prod.mk.injEq] using hd

theorem driver_rested (y : State) (pl : Plane) :
    (y.setDriver pl { y.driver pl with phase := .idle, leg := none, left := 0 }).driver pl =
      { y.driver pl with phase := .idle, leg := none, left := 0 } :=
  (driver_setDriver y pl pl _).trans (if_pos rfl)

/-- A validity that may have followed the readback leaves what the leg reports. -/
theorem reported_of_maybeValid {Q : Prop} {b : BankId} {k : FaultKind} {v y : State} (hvalid : Q → BecameValid b k v y)
    (hsame : ¬ Q → y = v) : y.worn = v.worn ∧ y.sup.counters = v.sup.counters := by
  by_cases h : Q
  · exact ⟨worn_becameValid (hvalid h), counters_becameValid (hvalid h)⟩
  · rw [hsame h]
    exact ⟨rfl, rfl⟩

/-- What the readback has left, and an IDLE driver, are there when the leg's end has been taken. -/
theorem reported_kept {u v w y : State} {pl : Plane} (hy : y.worn = v.worn ∧ y.sup.counters = v.sup.counters)
    (hw : w = y.setDriver pl { y.driver pl with phase := .idle, leg := none, left := 0 }) (hworn : u.worn = w.worn)
    (haside : u.aside = w.aside) :
    (∀ b, (u.bank b).position = (v.bank b).position ∧ (u.bank b).lifeCount = (v.bank b).lifeCount) ∧
      (∀ b k, u.counter b k = v.counter b k) ∧ (u.driver pl).phase = .idle ∧ (u.driver pl).leg = none := by
  obtain ⟨hyworn, hycounters⟩ := hy
  obtain ⟨hphase, hleg⟩ := driver_of_worn hworn pl
  have hrested := driver_rested y pl
  rw [← hw] at hrested
  refine ⟨fun b => ?_, fun b k => ?_, by rw [hphase, hrested], by rw [hleg, hrested]⟩
  · obtain ⟨hposition, hlife, -, -⟩ := bank_of_worn hworn b
    obtain ⟨hposition', hlife', -, -⟩ := bank_of_worn hyworn b
    rw [hposition, hlife, hw]
    exact ⟨hposition', hlife'⟩
  · unfold State.counter
    rw [sup_of_aside haside, hw]
    exact congrArg (fun c : Vector MissCounters 24 => (c.get b).get k) hycounters

/-- Settles O37: the readback by `takeReadback_match`, the leg's end by the lemmas on `endLeg` and `completeEntry`. -/
theorem readbackMatches : Obligations.ReadbackMatches := by
  refine ⟨fun s x pl l hreset hphase hleg hread hx => ?readback, fun s e l hplan => ?last,
    fun s e l x rest hplan => ?more, fun s e he hplan => ?complete⟩
  case readback =>
    have hexec := exec_performs (c := .legReadback pl) (g := settleEnd pl) rfl hreset
    have hleg' : (x.driver pl).leg = some l := by
      rw [hx, driver_elapse]
      exact hleg
    have hread' : x.readback l.bank = some l.target := by
      rw [hx]
      exact hread
    have hbank : ∀ b, x.bank b = s.bank b := fun b => by rw [hx]; rfl
    have hvalid : ∀ b k, x.faultValid b k = s.faultValid b k := fun b k => by rw [hx]; rfl
    have hcounter : ∀ b k, x.counter b k = s.counter b k := fun b k => by rw [hx]; rfl
    have hworn : NewlyWorn x l.bank ↔ NewlyWorn s l.bank := by unfold NewlyWorn; rw [hbank, hvalid]
    obtain ⟨v, y, w, htaken, hv, hself, hothers, hcounts, hnew, hold, hw⟩ := takeReadback_match pl x l hleg' hread'
    rw [settleEnd_takes hphase, ← hx, htaken] at hexec
    obtain ⟨hubank, hucounter, huphase, huleg⟩ := reported_kept (reported_of_maybeValid hnew hold) hw
      (worn_endMatched pl l w) (aside_endMatched pl l w)
    have hsafe : ∀ t : State, t.aside = w.aside → t.safe.state = w.safe.state := fun t ht => by rw [safe_of_aside ht]
    simp only [hbank] at hself hothers
    simp only [hvalid, hcounter] at hcounts
    refine ⟨endMatched pl l w, v, y, w, hexec, ?_, ?_, fun hnot => ?_, huphase, huleg, fun b hb => ?_, hv, hself,
      hothers, hcounts, fun h => hnew (hworn.mpr h), fun h => hold (mt hworn.mp h), hw,
      fun e z rest hsource hhead hplan => ?_, fun hsource => endMatched_home hsource,
      fun p hsource => endMatched_forced hsource⟩
    · rw [(hubank l.bank).1, hself]
    · rw [(hubank l.bank).2, hself]
    · rw [hucounter, hcounts, if_pos ⟨rfl, rfl, hnot⟩]
    · rw [(hubank b).1, (hubank b).2, hothers b hb]
      exact ⟨rfl, rfl⟩
    · have hend := endMatched_entry hsource hhead hplan
      have hstate := hsafe _ (aside_endLeg w e z)
      rw [hend]
      refine ⟨fun hnormal => failSafeHead_normal (hstate.trans hnormal),
        fun hnot => ⟨fun q hq hactive => ?_, fun hq => ?_⟩⟩
      · exact failSafeHead_active (by rw [hstate]; exact hnot) hq hactive
      · exact failSafeHead_waiting hq
  case last =>
    exact ⟨fun n hcounts hn => endLeg_last_new hplan hcounts hn, fun o hcounts ho => endLeg_last_old hplan hcounts ho⟩
  case more =>
    refine ⟨fun hgoes => ?_, fun o n he ho hn hne hmake => endLeg_frees hplan he ho hn hne hmake⟩
    rw [endLeg_goes_on hplan hgoes]
    exact ⟨fun n hcounts hn => legCounted_new _ hcounts hn, fun o hcounts ho => legCounted_old _ hcounts ho,
      fun hcounts => legCounted_neither _ hcounts⟩
  case complete =>
    obtain ⟨hkept, hdropped⟩ := currents_completeEntry e s
    refine ⟨⟨noticeTaken_completeEntry e s, hkept, hdropped⟩, fun o ho hn => ?_, fun n r hn hold hforming hroute => ?_,
      fun n hn hold hfailed howed => completeEntry_failed hn hold hfailed howed⟩
    · obtain ⟨hbanks, hpaths, hevents⟩ := entryGone_keeps e (freeSlot o s)
      rw [completeEntry_break s ho hn]
      refine ⟨?_, fun q hq => ?_, ?_, ?_, fun b => ?_⟩
      · rw [path_of_paths _ _ hpaths, path_freeSlot, if_pos rfl]
      · rw [path_of_paths _ _ hpaths, path_freeSlot, if_neg hq]
      · rw [queue_entryGone, queue_freeSlot]
      · rw [flagSet_of_events hevents, flagSet_pathFreed_freeSlot]
      · rw [bank_of_banks _ _ hbanks, bank_freeSlot]
    · refine ⟨completeEntry_settles hn hold hforming hroute, fun howed hnormal => ?_,
        fun o ho => completeEntry_frees_old hn hold ho, fun st ho ⟨c, hchanges, hc⟩ => ?_⟩
      · obtain ⟨hstate, hprior, hnone, hcause, y, hqueue, hkind, hyold, hynew, hactive, horigin, hlive⟩ :=
          completeEntry_closes hn hold hforming howed hnormal
        refine ⟨hstate, hprior, hnone, hcause, y, hqueue, hkind, hyold, hynew, hactive, fun c st hc hst => ?_, hlive⟩
        cases c with
        | closePath => exact horigin.trans (owedOrigin_closePath hc hst)
        | fixtureLoss => exact horigin.trans (owedOrigin_fixtureLoss hc)
      have hrecord : RecordOf e c := .inl ⟨by rw [hn]; exact Option.some_ne_none n, by rw [hc, hn]⟩
      exact (noticeTaken_completeEntry e s).of_single ho hchanges hrecord

end Sys2Proof.Machine
end

section
/-! PROOF. A readback that differs from the target, and an entry that fails (R29, R32, R34, R66, R69, R71, R73). -/

namespace Sys2Proof.Machine

/-! ## A slot that goes FAILED (R32) -/

/-- R32: the record of a slot that has gone FAILED; a FAILED one stays as it is. -/
def failedRecord (why : FailReason) (x : PathRecord) : PathRecord :=
  if x.state = .failed then x
  else { x with state := .failed, failure := x.failure.or (some why), settleTimer := none }

theorem failedRecord_failed {why : FailReason} {x : PathRecord} (h : x.state = .failed) : failedRecord why x = x :=
  if_pos h

theorem failedRecord_fails {why : FailReason} {x : PathRecord} (h : x.state ≠ .failed) :
    failedRecord why x = { x with state := .failed, failure := x.failure.or (some why), settleTimer := none } :=
  if_neg h

theorem failedRecord_state (why : FailReason) (x : PathRecord) :
    (failedRecord why x).state = .failed ∧ (failedRecord why x).closeOwed = x.closeOwed := by
  unfold failedRecord
  split
  next h => exact ⟨h, rfl⟩
  next => exact ⟨rfl, rfl⟩

theorem path_failSlot (p : Slot) (why : FailReason) (s : State) (q : Slot) :
    (failSlot p why s).path q = if q = p then failedRecord why (s.path p) else s.path q := by
  unfold failSlot failedRecord
  dsimp only
  split
  next =>
    by_cases hq : q = p
    · rw [if_pos hq, hq]
    · rw [if_neg hq]
  next => exact path_setPath s p q _

theorem failSlot_keeps (p : Slot) (why : FailReason) (s : State) :
    (failSlot p why s).queue = s.queue ∧ (failSlot p why s).banks = s.banks ∧
      (failSlot p why s).drivers = s.drivers ∧ (failSlot p why s).flagSet .pathLive = s.flagSet .pathLive := by
  unfold failSlot
  dsimp only
  split
  next => exact ⟨rfl, rfl, rfl, rfl⟩
  next =>
    refine ⟨rfl, rfl, rfl, ?_⟩
    unfold State.flagSet State.raise
    simp [Event.mask, Event.bit]

theorem pathFailed_failSlot {p : Slot} {s : State} (why : FailReason) (h : (s.path p).state ≠ .failed) :
    (failSlot p why s).flagSet .pathFailed = true := by
  unfold failSlot
  dsimp only
  rw [if_neg h]
  exact flagSet_raise_self _ _

theorem drivers_freeOpt (o : Option Slot) (s : State) : (freeOpt o s).drivers = s.drivers := by
  cases o with
  | none => rfl
  | some q => exact drivers_freeSlot q s

theorem driver_of_drivers {s t : State} (h : t.drivers = s.drivers) (pl : Plane) : t.driver pl = s.driver pl := by
  unfold State.driver
  rw [h]

/-! ## The paths of an entry that fails (R32) -/

theorem failPaths_make {e : Entry} {n : Slot} (s : State) (hk : e.kind = .makeChange) (hn : e.new = some n) :
    failPaths e s = failSlot n .makeFailed s := by
  unfold failPaths
  rw [hk, hn]

theorem failPaths_break {e : Entry} {o : Slot} (s : State) (hk : e.kind = .breakChange) (ho : e.old = some o) :
    failPaths e s = failSlot o .breakFailed s := by
  unfold failPaths
  rw [hk, ho]

theorem failPaths_swap_make {e : Entry} {n : Slot} (s : State) (hk : e.kind = .swapChange) (hn : e.new = some n)
    (hpart : e.failingPart = .makePart) : failPaths e s = failSlot n .makeFailed (freeOpt e.old s) := by
  unfold failPaths
  rw [hk, hn]
  dsimp only
  rw [hpart]

theorem failPaths_swap_break {e : Entry} {o n : Slot} (s : State) (hk : e.kind = .swapChange) (ho : e.old = some o)
    (hn : e.new = some n) (hpart : e.failingPart = .breakPart) :
    failPaths e s = failSlot o .breakFailed (failSlot n .makeFailed s) := by
  unfold failPaths
  rw [hk, ho, hn]
  dsimp only
  rw [hpart]

theorem failPaths_swap_alone {e : Entry} {n : Slot} (s : State) (hk : e.kind = .swapChange) (ho : e.old = none)
    (hn : e.new = some n) : failPaths e s = failSlot n .makeFailed s := by
  unfold failPaths
  rw [hk, ho, hn]
  dsimp only
  cases e.failingPart <;> rfl

theorem failPaths_keeps (e : Entry) (s : State) :
    (failPaths e s).queue = s.queue ∧ (failPaths e s).drivers = s.drivers ∧
      (failPaths e s).flagSet .pathLive = s.flagSet .pathLive := by
  have hslot : ∀ (p : Slot) (why : FailReason) (t : State), t.queue = s.queue ∧ t.drivers = s.drivers ∧
      t.flagSet .pathLive = s.flagSet .pathLive → (failSlot p why t).queue = s.queue ∧
        (failSlot p why t).drivers = s.drivers ∧ (failSlot p why t).flagSet .pathLive = s.flagSet .pathLive := by
    intro p why t ⟨hqueue, hdrivers, hlive⟩
    obtain ⟨hqueue', -, hdrivers', hlive'⟩ := failSlot_keeps p why t
    exact ⟨hqueue'.trans hqueue, hdrivers'.trans hdrivers, hlive'.trans hlive⟩
  unfold failPaths
  split
  next => exact hslot _ _ _ ⟨rfl, rfl, rfl⟩
  next => exact hslot _ _ _ ⟨rfl, rfl, rfl⟩
  next =>
    split
    next => exact hslot _ _ _ ⟨queue_freeOpt _ s, drivers_freeOpt _ s, pathLive_freeOpt _ s⟩
    next =>
      split
      next => exact hslot _ _ _ (hslot _ _ _ ⟨rfl, rfl, rfl⟩)
      next => exact hslot _ _ _ ⟨rfl, rfl, rfl⟩
  next => exact ⟨rfl, rfl, rfl⟩

/-- R32: the new slot of a MAKE or a SWAP goes FAILED in either part. -/
theorem path_failPaths_new {e : Entry} {n : Slot} (s : State) (hn : e.new = some n)
    (h : e.kind = .makeChange ∨ (e.kind = .swapChange ∧ e.old ≠ some n)) :
    (failPaths e s).path n = failedRecord .makeFailed (s.path n) := by
  rcases h with hk | ⟨hk, hold⟩
  · rw [failPaths_make s hk hn, path_failSlot, if_pos rfl]
  · cases hpart : e.failingPart with
    | makePart => rw [failPaths_swap_make s hk hn hpart, path_failSlot, if_pos rfl, path_freeOpt_other s hold]
    | breakPart =>
      cases ho : e.old with
      | none => rw [failPaths_swap_alone s hk ho hn, path_failSlot, if_pos rfl]
      | some o =>
        have hne : n ≠ o := fun heq => hold (ho.trans (congrArg some heq.symm))
        rw [failPaths_swap_break s hk ho hn hpart, path_failSlot, if_neg hne, path_failSlot, if_pos rfl]

/-! ## The entry fails (R69) -/

/-- R69: the state in which the close owed of the new slot of a failed entry is looked at. -/
def failedState (e : Entry) (why : EntryFailure) (b : Option BankId) (s : State) : State :=
  entryGone e (recordFailure e why b (failingRoute e s) (failPaths e (clearHeld e.plane s)))

theorem failEntry_new {e : Entry} {n : Slot} (why : EntryFailure) (b : Option BankId) (s : State)
    (hn : e.new = some n) : failEntry e why b s = applyCloseOwed n (failedState e why b s) := by
  unfold failEntry
  rw [hn]
  rfl

theorem failEntry_old {e : Entry} (why : EntryFailure) (b : Option BankId) (s : State) (hn : e.new = none) :
    failEntry e why b s = failedState e why b s := by
  unfold failEntry
  rw [hn]
  rfl

section Failed

variable (e : Entry) (why : EntryFailure) (b : Option BankId) (s : State)

theorem path_failedState (q : Slot) :
    (failedState e why b s).path q = (failPaths e (clearHeld e.plane s)).path q :=
  path_of_paths _ _ ((entryGone_keeps e _).2.1.trans rfl) q

theorem banks_failedState : (failedState e why b s).banks = (failPaths e (clearHeld e.plane s)).banks :=
  (entryGone_keeps e _).1.trans rfl

theorem events_failedState : (failedState e why b s).events =
    (recordFailure e why b (failingRoute e s) (failPaths e (clearHeld e.plane s))).events := (entryGone_keeps e _).2.2

theorem queue_failedState : (failedState e why b s).queue = s.queue.erase e :=
  (queue_entryGone e _).trans (congrArg (List.erase · e) (failPaths_keeps e (clearHeld e.plane s)).1)

theorem safe_failedState : (failedState e why b s).safe = s.safe := by
  refine safe_of_aside ?_
  rw [failedState, aside_entryGone, aside_recordFailure, aside_failPaths, aside_clearHeld]

theorem flagSet_failedState (x : Event) (h : (failPaths e (clearHeld e.plane s)).flagSet x = true) :
    (failedState e why b s).flagSet x = true :=
  (flagSet_of_events (events_failedState e why b s) x).trans (flagSet_recordFailure _ x e why b _ h)

theorem pathLive_failedState : (failedState e why b s).flagSet .pathLive = s.flagSet .pathLive := by
  have hkept : ∀ (r : Option RouteId) (t : State),
      (recordFailure e why b r t).flagSet .pathLive = t.flagSet .pathLive := fun r t => by
    unfold recordFailure State.flagSet State.raise
    simp [Event.mask, Event.bit]
  rw [flagSet_of_events (events_failedState e why b s), hkept]
  exact (failPaths_keeps e (clearHeld e.plane s)).2.2

theorem changeFailed_failedState : (failedState e why b s).flagSet .changeFailed = true :=
  (flagSet_of_events (events_failedState e why b s) _).trans (flagSet_raise_self _ _)

theorem driver_failedState : ((failedState e why b s).driver e.plane).held = none ∧
    ((failedState e why b s).driver e.plane).waiting = none := by
  have hclear : ∀ (pl : Plane) (t : State), ((clearHeld pl t).driver pl).held = none ∧
      ((clearHeld pl t).driver pl).waiting = none := fun pl t => by
    rw [clearHeld, driver_setDriver, if_pos rfl]
    exact ⟨rfl, rfl⟩
  have hremove : ∀ t : State, (t.driver e.plane).held = none ∧ (t.driver e.plane).waiting = none →
      ((removeEntry e t).driver e.plane).held = none ∧ ((removeEntry e t).driver e.plane).waiting = none := by
    intro t ht
    unfold removeEntry
    dsimp only
    split
    next => exact hclear e.plane t
    next => exact ht
  rw [failedState, entryGone, driver_of_drivers (rest_notifyEnded e false _).2.2.2]
  refine hremove _ ?_
  have hdriver := driver_of_drivers (failPaths_keeps e (clearHeld e.plane s)).2.1 e.plane
  exact hdriver ▸ hclear e.plane s

end Failed

theorem applyCloseOwed_keeps (n : Slot) (s : State) :
    (applyCloseOwed n s).events = s.events ∧ (applyCloseOwed n s).drivers = s.drivers := by
  unfold applyCloseOwed
  dsimp only
  split <;> exact ⟨rfl, rfl⟩

/-- R69: what every failed entry writes. -/
theorem failEntry_records (e : Entry) (why : EntryFailure) (b : Option BankId) (s : State) :
    (failEntry e why b s).flagSet .changeFailed = true ∧ ((failEntry e why b s).driver e.plane).held = none ∧
      ((failEntry e why b s).driver e.plane).waiting = none ∧
      (failEntry e why b s).events.lastFailure =
        some { kind := e.kind, old := e.old, new := e.new, reason := why, bank := b, part := e.failingPart
               route := failingRoute e s } := by
  have hlast : (failedState e why b s).events.lastFailure = _ :=
    congrArg EventUnit.lastFailure (events_failedState e why b s)
  obtain ⟨hheld, hwaiting⟩ := driver_failedState e why b s
  have hflag := changeFailed_failedState e why b s
  cases hn : e.new with
  | none =>
    rw [failEntry_old why b s hn]
    rw [← hn]
    exact ⟨hflag, hheld, hwaiting, hlast⟩
  | some n =>
    obtain ⟨hevents, hdrivers⟩ := applyCloseOwed_keeps n (failedState e why b s)
    rw [failEntry_new why b s hn, flagSet_of_events hevents, driver_of_drivers hdrivers, hevents, ← hn]
    exact ⟨hflag, hheld, hwaiting, hlast⟩

section New

variable {e : Entry} {n : Slot} {s : State} (why : EntryFailure) (b : Option BankId)

theorem path_failedState_new (hn : e.new = some n)
    (h : e.kind = .makeChange ∨ (e.kind = .swapChange ∧ e.old ≠ some n)) :
    (failedState e why b s).path n = failedRecord .makeFailed (s.path n) :=
  (path_failedState e why b s n).trans (path_failPaths_new (clearHeld e.plane s) hn h)

/-- R34: no BREAK follows the failure. -/
theorem failEntry_still (hn : e.new = some n) (h : e.kind = .makeChange ∨ (e.kind = .swapChange ∧ e.old ≠ some n))
    (hstill : (s.path n).closeOwed = false ∨ s.safe.state ≠ .normal) :
    failEntry e why b s = failedState e why b s := by
  rw [failEntry_new why b s hn]
  refine applyCloseOwed_still ?_
  rw [path_failedState_new why b hn h, (failedRecord_state _ _).2, safe_failedState]
  exact hstill

/-- R34: the BREAK that close owed brings after the failure. -/
theorem failEntry_closes (hn : e.new = some n) (h : e.kind = .makeChange ∨ (e.kind = .swapChange ∧ e.old ≠ some n))
    (howed : (s.path n).closeOwed = true) (hnormal : s.safe.state = .normal) :
    FailedThenClosing n (failedState e why b s) (failEntry e why b s) (s.queue.erase e) := by
  have hpath := path_failedState_new (s := s) why b hn h
  obtain ⟨hfailed, hsame⟩ := failedRecord_state .makeFailed (s.path n)
  have hclosing := failedThenClosing_applyCloseOwed n (failedState e why b s) (by rw [hpath]; exact hfailed)
    (by rw [hpath, hsame]; exact howed) (by rw [safe_failedState]; exact hnormal)
  rw [queue_failedState] at hclosing
  rw [failEntry_new why b s hn]
  exact hclosing

end New

section Parts

variable {e : Entry} {s : State} (why : EntryFailure) (b : Option BankId)

/-- R29, R32: an entry with one slot left, which goes FAILED alone. -/
theorem failedState_one {p : Slot} {fail : FailReason} (h : ∀ t, failPaths e t = failSlot p fail t)
    (hlive : (s.path p).state ≠ .failed) :
    (failedState e why b s).path p =
        { s.path p with state := .failed, failure := (s.path p).failure.or (some fail), settleTimer := none } ∧
      (∀ q, q ≠ p → (failedState e why b s).path q = s.path q) ∧ (failedState e why b s).banks = s.banks ∧
      (failedState e why b s).queue = s.queue.erase e ∧ (failedState e why b s).flagSet .pathFailed = true := by
  refine ⟨?_, fun q hq => ?_, ?_, queue_failedState e why b s, ?_⟩
  · rw [path_failedState, h, path_failSlot, if_pos rfl]
    exact failedRecord_fails hlive
  · rw [path_failedState, h, path_failSlot, if_neg hq]
    rfl
  · rw [banks_failedState, h]
    exact (failSlot_keeps p fail _).2.1
  · refine flagSet_failedState e why b s _ ?_
    rw [h]
    exact pathFailed_failSlot fail hlive

/-- R29, R32: the old slot of a SWAP that fails. -/
theorem failedState_swap_old {o n : Slot} (hk : e.kind = .swapChange) (ho : e.old = some o) (hn : e.new = some n)
    (hne : o ≠ n) (hlive : (s.path o).state ≠ .failed) :
    (e.failingPart = .breakPart →
        (failedState e why b s).path o =
            { s.path o with
              state := .failed, failure := (s.path o).failure.or (some .breakFailed), settleTimer := none } ∧
          (failedState e why b s).banks = s.banks) ∧
      (e.failingPart = .makePart → (failedState e why b s).path o = PathRecord.free) := by
  refine ⟨fun hpart => ⟨?_, ?_⟩, fun hpart => ?_⟩
  · rw [path_failedState, failPaths_swap_break _ hk ho hn hpart, path_failSlot, if_pos rfl, path_failSlot, if_neg hne]
    exact failedRecord_fails hlive
  · rw [banks_failedState, failPaths_swap_break _ hk ho hn hpart]
    exact (failSlot_keeps o _ _).2.1.trans (failSlot_keeps n _ _).2.1
  · rw [path_failedState, failPaths_swap_make _ hk hn hpart, path_failSlot, if_neg hne, ho]
    exact (path_freeSlot o _ o).trans (if_pos rfl)

end Parts

/-! ## What the end of a leg that differs does (R66, R71, R73) -/

section Mismatch

variable {pl : Plane} {l : FlightLeg} {w : State}

theorem endMismatched_entry {e : Entry} (hsource : l.source = .entry) (hhead : w.headOf pl = some e) :
    (w.safe.state = .normal →
        (w.faultValid l.bank .position = false → endMismatched pl l w = w) ∧
        (w.faultValid l.bank .position = true → endMismatched pl l w = failEntry e .position (some l.bank) w)) ∧
      (w.safe.state ≠ .normal →
        (e.active = true → endMismatched pl l w = failEntry e .safe (some l.bank) w) ∧
        (e.active = false → endMismatched pl l w = w)) := by
  have hnormal := isNormal_iff w
  have hend : endMismatched pl l w = if !w.isNormal then failSafeHead pl l.bank w else
      if w.faultValid l.bank .position then failEntry e .position (some l.bank) w else w := by
    unfold endMismatched
    rw [hsource, hhead]
  rw [hend]
  refine ⟨fun hstate => ?_, fun hstate => ?_⟩
  · rw [hnormal.mpr hstate]
    refine ⟨fun hvalid => ?_, fun hvalid => if_pos hvalid⟩
    rw [hvalid]
    rfl
  · rw [Bool.eq_false_iff.mpr (mt hnormal.mp hstate)]
    refine ⟨fun hactive => failSafeHead_active hstate hhead hactive, fun hwaits => failSafeHead_waiting fun q hq => ?_⟩
    rw [hhead] at hq
    cases hq
    exact hwaits

theorem endMismatched_none (hsource : l.source = .entry) (hhead : w.headOf pl = none) : endMismatched pl l w = w := by
  unfold endMismatched
  rw [hsource, hhead]

theorem endMismatched_home (hsource : l.source = .home) :
    (w.faultValid l.bank .position = false → endMismatched pl l w = w) ∧
      (w.faultValid l.bank .position = true →
        endMismatched pl l w =
          w.setDriver pl { w.driver pl with passed := (w.driver pl).passed ||| (1#24 <<< l.bank.1) }) := by
  have hend : endMismatched pl l w = if w.faultValid l.bank .position then passHome pl l.bank w else w := by
    unfold endMismatched
    rw [hsource]
  rw [hend]
  refine ⟨fun hvalid => ?_, fun hvalid => if_pos hvalid⟩
  rw [hvalid]
  rfl

theorem endMismatched_forced (hsource : (∃ q, l.source = .forcedBreak q) ∨ l.source = .forcedHome) :
    endMismatched pl l w =
      w.setDriver pl
        { w.driver pl with
          pause := some { leg := l, left := ((w.bank l.bank).operate + (w.bank l.bank).settle) * 10 } } := by
  unfold endMismatched
  rcases hsource with ⟨q, hsource⟩ | hsource <;> rw [hsource] <;> rfl

end Mismatch

/-- Settles O38: the readback by `takeReadback_differs`, the failure by the lemmas on `failedState`. -/
theorem readbackDiffers : Obligations.ReadbackDiffers := by
  refine ⟨fun s x pl l hreset hphase hleg hread hx => ?readback, fun s e why b x rest he hplan => ?failure⟩
  case readback =>
    have hexec := exec_performs (c := .legReadback pl) (g := settleEnd pl) rfl hreset
    have hleg' : (x.driver pl).leg = some l := by
      rw [hx, driver_elapse]
      exact hleg
    have hreading : x.readback l.bank = s.readback l.bank := by rw [hx]; rfl
    have hbank : ∀ b, x.bank b = s.bank b := fun b => by rw [hx]; rfl
    have hvalid : ∀ b k, x.faultValid b k = s.faultValid b k := fun b k => by rw [hx]; rfl
    have hcounter : ∀ b k, x.counter b k = s.counter b k := fun b k => by rw [hx]; rfl
    have hmiss : MissMakesValid x l.bank .position ↔ MissMakesValid s l.bank .position := by
      have hsettings : x.settings = s.settings := by rw [hx]; rfl
      unfold MissMakesValid
      rw [hcounter, hvalid, hsettings]
    obtain ⟨v, y, w, htaken, hv, hself, hothers, hcounts, hnew, hold, hw⟩ :=
      takeReadback_differs pl x l hleg' (by rw [hreading]; exact hread)
    rw [settleEnd_takes hphase, ← hx, htaken] at hexec
    have hkept := reported_of_maybeValid hnew hold
    obtain ⟨hubank, hucounter, huphase, huleg⟩ :=
      reported_kept hkept hw (worn_endMismatched pl l w) (aside_endMismatched pl l w)
    simp only [hbank, hreading] at hself hothers
    simp only [hvalid, hcounter] at hcounts
    refine ⟨endMismatched pl l w, v, y, w, hexec, ?_, ?_, fun hnot => ?_, huphase, huleg, fun b hb => ?_, hv, hself,
      hothers, hcounts, fun h => hnew (hmiss.mpr h), fun h => hold (mt hmiss.mp h), hw,
      fun hsource e hhead => endMismatched_entry hsource hhead, endMismatched_none, endMismatched_home,
      fun hsource => ?_⟩
    · rw [(hubank l.bank).1, hself]
    · rw [(hubank l.bank).2, hself]
    · rw [hucounter, hcounts, if_pos ⟨rfl, rfl, hnot⟩]
    · rw [(hubank b).1, (hubank b).2, hothers b hb]
      exact ⟨rfl, rfl⟩
    · obtain ⟨-, -, hoperate, hsettle, -⟩ := bank_of_worn hkept.1 l.bank
      have hwbank : w.bank l.bank = y.bank l.bank := by rw [hw]; rfl
      rw [endMismatched_forced hsource, hwbank, hoperate, hsettle, hself]
  case failure =>
    have hpart : e.failingPart = x.part := by
      unfold Entry.failingPart
      rw [hplan]
    obtain ⟨hdrop, hkept⟩ := currents_failEntry e why b s
    obtain ⟨hflag, hheld, hwaiting, hlast⟩ := failEntry_records e why b s
    rw [hpart] at hdrop hkept
    refine ⟨⟨noticeTaken_failEntry e why b s, hdrop, hkept⟩, ⟨hflag, hheld, hwaiting, ?record⟩,
      fun n hk ho hn hforming hstill => ?alone, fun n hn hforming howed hnormal hk => ?closes,
      fun n hn hfailed howed hk => ?failed, fun o hk ho hn hlive => ?breaks,
      fun o n hk ho hn hne hlive hforming hstill => ?swap⟩
    case record =>
      rw [hlast]
      unfold failingRoute
      rw [hpart]
      cases x.part <;> cases e.old <;> cases e.new <;> rfl
    case alone =>
      have hnew : e.kind = .makeChange ∨ (e.kind = .swapChange ∧ e.old ≠ some n) :=
        hk.imp id fun h => ⟨h.1, by rw [ho]; exact (Option.some_ne_none n).symm⟩
      rw [failEntry_still why b hn hnew hstill]
      refine failedState_one why b (fun t => ?_) (by rw [hforming]; decide)
      rcases hk with hk | ⟨hk, -⟩
      · exact failPaths_make t hk hn
      · exact failPaths_swap_alone t hk ho hn
    case closes =>
      have hnew := hk.imp And.left id
      obtain ⟨hrecord, -, y, hqueue, hkind, hyold, -⟩ := failEntry_closes why b hn hnew howed hnormal
      have hfails : (s.path n).state ≠ .failed := by rw [hforming]; decide
      rw [path_failedState_new why b hn hnew, failedRecord_fails hfails] at hrecord
      rw [hrecord]
      exact ⟨rfl, rfl, rfl, rfl, y, hqueue, hkind, hyold⟩
    case failed =>
      have hnew := hk.imp And.left id
      have hpath := (path_failedState_new why b hn hnew).trans (failedRecord_failed hfailed)
      refine ⟨fun hnot => ?_, fun hnormal => ?_⟩
      · rw [failEntry_still why b hn hnew (.inr hnot)]
        exact ⟨hpath, queue_failedState e why b s⟩
      · obtain ⟨hrecord, hraised, hentry⟩ := failEntry_closes why b hn hnew howed hnormal
        rw [hpath] at hrecord hentry
        exact ⟨hrecord, hraised.trans (pathLive_failedState e why b s), hentry⟩
    case breaks =>
      rw [failEntry_old why b s hn]
      exact failedState_one why b (fun t => failPaths_break t hk ho) hlive
    case swap =>
      have hold : e.old ≠ some n := fun heq => hne (Option.some.inj (ho.symm.trans heq))
      have hnew : e.kind = .makeChange ∨ (e.kind = .swapChange ∧ e.old ≠ some n) := .inr ⟨hk, hold⟩
      have hswap := failedState_swap_old why b hk ho hn hne hlive
      rw [hpart] at hswap
      rw [failEntry_still why b hn hnew hstill, path_failedState_new why b hn hnew]
      exact ⟨failedRecord_fails (by rw [hforming]; decide), queue_failedState e why b s, hswap⟩

end Sys2Proof.Machine
end

section
/-! PROOF. The start of a leg, the homes and the end of a forced pause (R57 to R63, R70, R73). -/

namespace Sys2Proof.Machine

/-! ## A leg starts (R63) -/

/-- R63: the detector result of a leg that starts. -/
def passTaken (l : FlightLeg) (s : State) : State := if l.source.isForced then s else takePass l.bank .hot s

theorem takePass_keeps (b : BankId) (k : FaultKind) (s : State) :
    (takePass b k s).banks = s.banks ∧ (takePass b k s).drivers = s.drivers ∧ (takePass b k s).queue = s.queue ∧
      (takePass b k s).paths = s.paths := by
  unfold takePass
  split <;> exact ⟨rfl, rfl, rfl, rfl⟩

theorem passTaken_keeps (l : FlightLeg) (s : State) :
    (passTaken l s).banks = s.banks ∧ (passTaken l s).drivers = s.drivers ∧ (passTaken l s).queue = s.queue ∧
      (passTaken l s).paths = s.paths := by
  unfold passTaken
  split
  · exact ⟨rfl, rfl, rfl, rfl⟩
  · exact takePass_keeps l.bank .hot s

/-- The bank of a leg that starts. -/
def deferralsCleared (l : FlightLeg) (s : State) : State :=
  s.setBank l.bank { s.bank l.bank with hotDeferrals := 0 }

theorem startLeg_eq (pl : Plane) (l : FlightLeg) (s : State) :
    startLeg pl l s =
      (passTaken l (deferralsCleared l s)).setDriver pl
        { (passTaken l (deferralsCleared l s)).driver pl with
          phase := .driving, leg := some l, left := (s.bank l.bank).operate * 10, held := none, waiting := none } := rfl

theorem driver_startLeg (pl : Plane) (l : FlightLeg) (s : State) (q : Plane) :
    (startLeg pl l s).driver q =
      if q = pl then
        { s.driver pl with
          phase := .driving, leg := some l, left := (s.bank l.bank).operate * 10, held := none, waiting := none }
      else s.driver q := by
  have hdriver := driver_of_drivers ((passTaken_keeps l (deferralsCleared l s)).2.1.trans rfl : _ = s.drivers)
  rw [startLeg_eq, driver_setDriver, hdriver, hdriver]

theorem startLeg_keeps (pl : Plane) (l : FlightLeg) (s : State) :
    (startLeg pl l s).queue = s.queue ∧ (startLeg pl l s).paths = s.paths := by
  obtain ⟨-, -, hqueue, hpaths⟩ := passTaken_keeps l (deferralsCleared l s)
  exact ⟨hqueue, hpaths⟩

theorem startLeg_forced_sup {pl : Plane} {l : FlightLeg} {s : State}
    (h : (∃ q, l.source = .forcedBreak q) ∨ l.source = .forcedHome) : (startLeg pl l s).sup = s.sup := by
  have hforced : l.source.isForced = true := by
    rcases h with ⟨q, h⟩ | h <;> rw [h] <;> rfl
  have hpassed : passTaken l (deferralsCleared l s) = deferralsCleared l s := if_pos hforced
  rw [startLeg_eq, hpassed]
  rfl

theorem counter_startLeg {pl : Plane} {l : FlightLeg} {s : State} (h : l.source = .entry ∨ l.source = .home)
    (hvalid : s.faultValid l.bank .hot = false) : (startLeg pl l s).counter l.bank .hot = 0 := by
  have hplain : ¬ l.source.isForced = true := by
    rcases h with h | h <;> rw [h] <;> exact Bool.false_ne_true
  have hpassed : passTaken l (deferralsCleared l s) = (deferralsCleared l s).setCounter l.bank .hot 0 :=
    (if_neg hplain).trans (if_neg (by show ¬ s.faultValid l.bank .hot = true; rw [hvalid]; exact Bool.false_ne_true))
  show (passTaken l (deferralsCleared l s)).counter l.bank .hot = 0
  rw [hpassed, counter_setCounter _ _ _ _ _ _ (by decide), if_pos ⟨rfl, rfl⟩]

/-! ## A home is taken (R57, R70) -/

section Home

variable {s t : State} {pl : Plane} {b : BankId}

theorem choosePlane_home_goes_on (h : TakesHome s pl b) (ht : takeHome pl b s = (true, t)) :
    choosePlane pl s = chooseLoop pl (chooseFuel s - 1) t := by
  rw [choosePlane_once s pl h.1, chooseOnce_home s pl b h, ht]

theorem choosePlane_home_ends (h : TakesHome s pl b) (ht : takeHome pl b s = (false, t)) : choosePlane pl s = t := by
  rw [choosePlane_once s pl h.1, chooseOnce_home s pl b h, ht]

theorem takeHome_ended (h : (s.bank b).position = some .term) :
    takeHome pl b s = (true, s.setBank b { s.bank b with homeOwed := false }) := if_pos h

theorem takeHome_passed (hat : (s.bank b).position ≠ some .term) (h : legFits s b = false ∨ s.faultsOf b ≠ 0) :
    takeHome pl b s = (true, passHome pl b s) := by
  unfold takeHome
  rw [if_neg hat]
  by_cases hfits : legFits s b = false
  · rw [hfits]
    exact if_pos rfl
  · rw [(Bool.not_eq_false _).mp hfits]
    exact (if_neg Bool.false_ne_true).trans (if_pos (decide_eq_true (h.resolve_left hfits)))

/-- R70: a home that fits and is not inhibited is hot, or starts. -/
theorem takeHome_fits (hat : (s.bank b).position ≠ some .term) (hfits : legFits s b = true)
    (hsound : s.faultsOf b = 0) :
    takeHome pl b s =
      if isHot s b then (true, passHome pl b (takeMiss b .hot (deferred s b)))
      else (false, startLeg pl { bank := b, target := .term, source := .home } s) := by
  unfold takeHome
  rw [if_neg hat, hfits]
  refine (if_neg Bool.false_ne_true).trans (if_neg ?_)
  unfold State.inhibited
  rw [hsound]
  decide

end Home

/-- Settles O40: a leg's start field by field, and the one choice of a driver that takes a home. -/
theorem legStarts : Obligations.LegStarts := by
  refine ⟨fun s pl l => ⟨?_, fun b hb => ?_, ?_, fun q hq => ?_, counter_startLeg, startLeg_forced_sup,
    startLeg_keeps pl l s⟩, fun s pl b h => ⟨fun hat => ?_, fun hat => ⟨fun hpassed => ?_, fun hfits hsound =>
      ⟨fun hhot => ⟨_, rfl, ?_⟩, fun hcold => ?_⟩⟩⟩⟩
  · rw [bank_startLeg, if_pos rfl]
  · rw [bank_startLeg, if_neg hb]
  · rw [driver_startLeg, if_pos rfl]
  · rw [driver_startLeg, if_neg hq]
  · exact choosePlane_home_goes_on h (takeHome_ended hat)
  · exact choosePlane_home_goes_on h (takeHome_passed hat hpassed)
  · exact choosePlane_home_goes_on h
      ((takeHome_fits hat hfits hsound).trans (if_pos ((isHot_iff s b).mpr hhot)))
  · exact choosePlane_home_ends h
      ((takeHome_fits hat hfits hsound).trans (if_neg (mt (isHot_iff s b).mp hcold)))

/-! ## The end of a forced pause (R73) -/

/-- R29, R73: the bank of a forced break leg that has ended leaves its path. -/
def bankLeft (p : Slot) (b : BankId) (s : State) : State :=
  if ((s.setHolder b none).path p).state = .closing then addLegDone p (s.setHolder b none) else s.setHolder b none

theorem endForcedBreak_eq (p : Slot) (b : BankId) (s : State) :
    endForcedBreak p b s =
      if ((bankLeft p b s).heldBanks p).isEmpty then freeSlot p (bankLeft p b s) else bankLeft p b s := rfl

theorem bankLeft_keeps (p : Slot) (b : BankId) (s : State) :
    (bankLeft p b s).banks = (s.setHolder b none).banks ∧ (bankLeft p b s).drivers = s.drivers := by
  unfold bankLeft
  split <;> exact ⟨rfl, rfl⟩

theorem holder_freeSlot {p : Slot} {s : State} {b : BankId} (h : (s.bank b).holder = none) :
    ((freeSlot p s).bank b).holder = none := by
  rw [bank_freeSlot, if_neg (by rw [h]; exact (Option.some_ne_none p).symm)]
  exact h

/-- R73: a forced break leg that has ended leaves its bank with no path. -/
theorem holder_endForcedBreak (p : Slot) (b : BankId) (s : State) : ((endForcedBreak p b s).bank b).holder = none := by
  have hleft : ((bankLeft p b s).bank b).holder = none := by
    rw [bank_of_banks _ _ (bankLeft_keeps p b s).1, State.setHolder, bank_setBank, if_pos rfl]
  rw [endForcedBreak_eq]
  split
  · exact holder_freeSlot hleft
  · exact hleft

theorem drivers_endForcedBreak (p : Slot) (b : BankId) (s : State) : (endForcedBreak p b s).drivers = s.drivers := by
  rw [endForcedBreak_eq]
  split
  · rw [drivers_freeSlot, (bankLeft_keeps p b s).2]
  · exact (bankLeft_keeps p b s).2

/-- The driver whose forced pause has ended. -/
def pauseOver (pl : Plane) (s : State) : State := s.setDriver pl { s.driver pl with pause := none }

theorem pause_pauseOver (pl : Plane) (s : State) : ((pauseOver pl s).driver pl).pause = none := by
  rw [pauseOver, driver_setDriver, if_pos rfl]

/-- R73: a home that was driven before is decided as a forced home. -/
def pauseHome (pl : Plane) (l : FlightLeg) (s : State) : State :=
  if forcedHomeDue s pl l.bank && decide ((s.bank l.bank).position ≠ some .term) then
    startLeg pl { l with source := .forcedHome } s
  else react s

theorem endPause_break {s : State} {pl : Plane} {x : ForcedPause} {p : Slot} (hpause : (s.driver pl).pause = some x)
    (hsource : x.leg.source = .forcedBreak p) (hholder : (s.bank x.leg.bank).holder = some p)
    (hat : (s.bank x.leg.bank).position ≠ some .term) :
    (s.faultValid x.leg.bank .coil = false →
        endPause pl s =
          startLeg pl { bank := x.leg.bank, target := .term, source := .forcedBreak p } (pauseOver pl s)) ∧
      (s.faultValid x.leg.bank .coil = true →
        endPause pl s = react (endForcedBreak p x.leg.bank ((pauseOver pl s).recordPosition x.leg.bank none))) := by
  have hskipped := breakSkipped_iff (pauseOver pl s) x.leg.bank
  refine ⟨fun hsound => ?_, fun hcoil => ?_⟩
  all_goals
    unfold endPause
    rw [hpause]
    dsimp only
    rw [hsource]
    refine (if_pos hholder).trans ?_
  · have hnot : ¬ (pauseOver pl s).breakSkipped x.leg.bank = true := fun h =>
      Bool.false_ne_true (hsound.symm.trans (hskipped.mp h).1)
    have htake : takeForcedBreak pl p x.leg.bank (pauseOver pl s) = _ := (if_neg hat).trans (if_neg hnot)
    split
    next heq => cases htake.symm.trans heq
    next heq =>
      cases htake.symm.trans heq
      rfl
  · have htake : takeForcedBreak pl p x.leg.bank (pauseOver pl s) = _ :=
      (if_neg hat).trans (if_pos (hskipped.mpr ⟨hcoil, hat⟩))
    split
    next heq =>
      cases htake.symm.trans heq
      rfl
    next heq => cases htake.symm.trans heq

theorem endPause_home {s : State} {pl : Plane} {x : ForcedPause} (hpause : (s.driver pl).pause = some x)
    (hsource : x.leg.source = .forcedHome) : endPause pl s = pauseHome pl x.leg (pauseOver pl s) := by
  unfold endPause
  rw [hpause]
  dsimp only
  rw [hsource]
  rfl

theorem pauseEnd_some {s : State} {pl : Plane} {x : ForcedPause} (h : (s.driver pl).pause = some x) :
    pauseEnd pl s = endPause pl (s.elapse x.left) ∧
      ((s.elapse x.left).driver pl).pause = some { x with left := x.left - x.left } := by
  refine ⟨?_, ?_⟩
  · unfold pauseEnd
    rw [h]
  · rw [driver_elapse]
    show (s.driver pl).pause.map _ = _
    rw [h]
    rfl

/-- Settles O39: the pause's end decides the same leg again, by the leg's source. -/
theorem forcedPauseEndDecidesAgain : Obligations.ForcedPauseEndDecidesAgain := by
  refine ⟨fun s pl x p hreset hpause hsource hholder hat => ?breaks, fun s pl n b hreset hpause => ?home⟩
  all_goals
    have hexec := exec_performs (c := .forcedPauseEnd pl) (g := pauseEnd pl) rfl hreset
    obtain ⟨hend, hpause'⟩ := pauseEnd_some hpause
    rw [hend] at hexec
  case breaks =>
    obtain ⟨hdrives, hskips⟩ := endPause_break hpause' hsource hholder hat
    refine ⟨fun hsound => ?_, fun hcoil => ?_⟩
    · rw [hdrives hsound] at hexec
      refine ⟨_, hexec, ?_⟩
      generalize hy : pauseOver pl (s.elapse x.left) = y
      have hpaused := pause_pauseOver pl (s.elapse x.left)
      have hbank : ∀ b, y.bank b = s.bank b := fun b => by rw [← hy]; rfl
      have hqueue : y.queue = s.queue := by rw [← hy]; rfl
      have hpaths : y.paths = (s.elapse x.left).paths := by rw [← hy]; rfl
      rw [hy] at hpaused
      obtain ⟨hqueue', hpaths'⟩ :=
        startLeg_keeps pl { bank := x.leg.bank, target := .term, source := .forcedBreak p } y
      have hdriver := (driver_startLeg pl { bank := x.leg.bank, target := .term, source := .forcedBreak p } y pl).trans
        (if_pos rfl)
      have hposition := fun b => congrArg (fun k : BankRecord => (k.position, k.holder))
        (bank_startLeg pl { bank := x.leg.bank, target := .term, source := .forcedBreak p } y b)
      generalize startLeg pl { bank := x.leg.bank, target := .term, source := .forcedBreak p } y = w
        at hqueue' hpaths' hdriver hposition ⊢
      have hsame : w.driveOutputs.driver pl = w.driver pl := rfl
      rw [hsame, hdriver, hbank]
      refine ⟨hpaused, rfl, rfl, rfl, hqueue'.trans hqueue, hpaths'.trans hpaths, fun b => ?_⟩
      have hkept : ((w.bank b).position, (w.bank b).holder) = ((s.bank b).position, (s.bank b).holder) := by
        refine (hposition b).trans ?_
        rw [hbank, hbank]
        split
        next heq => rw [heq]
        next => rfl
      exact ⟨congrArg Prod.fst hkept, congrArg Prod.snd hkept⟩
    · rw [hskips hcoil] at hexec
      refine ⟨_, hexec, ?_, holder_endForcedBreak p _ _, ?_⟩
      · rw [(bank_of_worn (worn_endForcedBreak _ _ _) _).1, State.recordPosition, bank_setBank, if_pos rfl]
      · rw [driver_of_drivers (drivers_endForcedBreak p _ _)]
        exact pause_pauseOver pl _
  case home =>
    rw [endPause_home hpause' rfl] at hexec
    have hdue := forcedHomeDue_iff s pl b
    have hboth : (forcedHomeDue (pauseOver pl (s.elapse n)) pl b &&
        decide (((pauseOver pl (s.elapse n)).bank b).position ≠ some .term)) = true ↔
        ForcedHomeDue s pl b ∧ (s.bank b).position ≠ some .term := by
      rw [Bool.and_eq_true, decide_eq_true_iff, ← hdue]
      exact Iff.rfl
    refine ⟨fun h hat => ?_, fun h => ?_⟩
    · rw [hexec]
      exact congrArg (fun t : State => Host.Outcome.next t.driveOutputs) (if_pos (hboth.mpr ⟨h, hat⟩))
    · rw [hexec]
      exact congrArg (fun t : State => Host.Outcome.next t.driveOutputs)
        (if_neg fun hdrive => h.elim (· (hboth.mp hdrive).1) (hboth.mp hdrive).2)

end Sys2Proof.Machine
end

section
/-! PROOF. SET_SEQUENCER (R79). -/

namespace Sys2Proof.Machine

/-! ## The 15 bytes of the settings (R79) -/

/-- R79, check 2: the tests of the fields, in the order of their positions. -/
def seqFieldTests (ps : List Byte) : List (Nat × Bool) :=
  [(1, decide (511 < val2 ps 0)), (2, decide (511 < val2 ps 2)), (3, decide (511 < val2 ps 4)),
    (4, decide (511 < val2 ps 6 ∧ val2 ps 6 ≠ 0xFFFF)), (5, decide (511 < val2 ps 8 ∧ val2 ps 8 ≠ 0xFFFF)),
    (6, decide (511 < val2 ps 10 ∧ val2 ps 10 ≠ 0xFFFF)), (8, decide (511 < val2 ps 13))]

theorem mem_seqFieldTests {ps : List Byte} {n : Nat} : (n, true) ∈ seqFieldTests ps ↔ SeqFieldBad ps n := by
  simp only [seqFieldTests, SeqFieldBad, List.mem_cons, Prod.mk.injEq, List.not_mem_nil, or_false,
    eq_comm (a := true), decide_eq_true_eq]

theorem seqFieldTests_sorted (ps : List Byte) : ((seqFieldTests ps).map Prod.fst).Pairwise (· < ·) := by
  simp only [seqFieldTests, List.map_cons, List.map_nil]
  decide

/-- A value is outside the region from `first` to `last`. -/
abbrev OutsideRegion (first last n : Nat) : Prop := n < first ∨ last < n

/-- R79, checks 3 to 7, on the values that the parameters carry. -/
def seqRegionFault (first last start stop groupStart groupEnd target : Nat) : Option Nat :=
  if last < first then some 2
  else if OutsideRegion first last start then some 3
  else if stop ≠ 0xFFFF ∧ OutsideRegion first last stop then some 4
  else if ¬ (groupStart = 0xFFFF ↔ groupEnd = 0xFFFF) then some 6
  else if groupStart ≠ 0xFFFF ∧
      (OutsideRegion first last groupStart ∨ OutsideRegion first last groupEnd ∨ groupEnd < groupStart) then some 6
  else if OutsideRegion first last target then some 8
  else none

theorem notInside_iff (first last n : Nat) :
    (!(decide (first ≤ n) && decide (n ≤ last))) = true ↔ OutsideRegion first last n := by
  rw [Bool.not_eq_true', Bool.and_eq_false_iff, decide_eq_false_iff_not, decide_eq_false_iff_not, Nat.not_le,
    Nat.not_le]

theorem notStep_iff (n : Nat) : (!isStep n) = true ↔ 511 < n := by
  rw [isStep, Bool.not_eq_true', decide_eq_false_iff_not, Nat.not_le]

theorem notStepOrNone_iff (n : Nat) : (!isStepOrNone n) = true ↔ 511 < n ∧ n ≠ 0xFFFF := by
  rw [isStepOrNone, Bool.not_or, Bool.and_eq_true, notStep_iff, Bool.not_eq_true', decide_eq_false_iff_not]

theorem seqParamsFault_of_fifteen {ps : List Byte} (hlen : ps.length = 15) :
    seqParamsFault ps =
      firstFailing (seqFieldTests ps)
        (seqRegionFault (val2 ps 0) (val2 ps 2) (val2 ps 4) (val2 ps 6) (val2 ps 8) (val2 ps 10) (val2 ps 13)) := by
  simp only [seqParamsFault, seqFieldTests, firstFailing, seqRegionFault, hlen, ne_eq, not_true_eq_false, if_false,
    decide_eq_true_eq, notStep_iff, notStepOrNone_iff, notInside_iff, Bool.and_eq_true, Bool.or_eq_true, bne_iff_ne,
    decide_eq_decide, or_assoc]

/-- R79: the lowest field outside its values is the one reported (log 28). -/
theorem seqParamsFault_of_field {ps : List Byte} {n : Nat} (hlen : ps.length = 15) (hbad : SeqFieldBad ps n)
    (h : ∀ m, m < n → ¬ SeqFieldBad ps m) : seqParamsFault ps = some n := by
  rw [seqParamsFault_of_fifteen hlen]
  exact firstFailing_of_least (seqFieldTests_sorted ps) (mem_seqFieldTests.mpr hbad) fun m hm =>
    mt mem_seqFieldTests.mp (h m hm)

theorem seqParamsFault_of_fields {ps : List Byte} (hlen : ps.length = 15) (h : ∀ n, ¬ SeqFieldBad ps n) :
    seqParamsFault ps =
      seqRegionFault (val2 ps 0) (val2 ps 2) (val2 ps 4) (val2 ps 6) (val2 ps 8) (val2 ps 10) (val2 ps 13) := by
  rw [seqParamsFault_of_fifteen hlen, firstFailing_of_none fun n => mt mem_seqFieldTests.mp (h n)]

section Region

variable {first last start stop groupStart groupEnd target : Nat}

theorem seqRegionFault_empty (h : last < first) :
    seqRegionFault first last start stop groupStart groupEnd target = some 2 := if_pos h

theorem seqRegionFault_start (hregion : first ≤ last) (h : OutsideRegion first last start) :
    seqRegionFault first last start stop groupStart groupEnd target = some 3 := by
  unfold seqRegionFault
  rw [if_neg (by omega), if_pos h]

theorem seqRegionFault_stop (hstart : ¬ OutsideRegion first last start) (hstop : stop ≠ 0xFFFF)
    (h : OutsideRegion first last stop) :
    seqRegionFault first last start stop groupStart groupEnd target = some 4 := by
  unfold seqRegionFault
  rw [if_neg (by omega), if_neg hstart, if_pos ⟨hstop, h⟩]

theorem seqRegionFault_group (hstart : ¬ OutsideRegion first last start)
    (hstop : stop = 0xFFFF ∨ ¬ OutsideRegion first last stop)
    (h : ¬ (groupStart = 0xFFFF ↔ groupEnd = 0xFFFF) ∨ (groupStart ≠ 0xFFFF ∧
      (OutsideRegion first last groupStart ∨ OutsideRegion first last groupEnd ∨ groupEnd < groupStart))) :
    seqRegionFault first last start stop groupStart groupEnd target = some 6 := by
  unfold seqRegionFault
  rw [if_neg (by omega), if_neg hstart, if_neg (by omega)]
  by_cases hpair : groupStart = 0xFFFF ↔ groupEnd = 0xFFFF
  · rw [if_neg (not_not.mpr hpair), if_pos (h.resolve_left (not_not.mpr hpair))]
  · rw [if_pos hpair]

/-- R79, checks 3 to 6, pass. -/
theorem seqRegionFault_target (hstart : ¬ OutsideRegion first last start)
    (hstop : stop = 0xFFFF ∨ ¬ OutsideRegion first last stop)
    (hgroup : (groupStart = 0xFFFF ∧ groupEnd = 0xFFFF) ∨ (groupStart ≠ 0xFFFF ∧ groupEnd ≠ 0xFFFF ∧
      ¬ OutsideRegion first last groupStart ∧ ¬ OutsideRegion first last groupEnd ∧ groupStart ≤ groupEnd)) :
    seqRegionFault first last start stop groupStart groupEnd target =
      if OutsideRegion first last target then some 8 else none := by
  unfold seqRegionFault
  rw [if_neg (by omega), if_neg hstart, if_neg (by omega), if_neg (by omega), if_neg (by omega)]

end Region

/-! ## The settings that the bytes carry (R79) -/

theorem val2_bytes2_step (n : StepId) : (n.1 / 256 % 256) * 256 + n.1 % 256 = n.1 :=
  two_bytes n.1 (by omega)

theorem stepOptVal_bound (x : Option StepId) : stepOptVal x < 65536 := by
  cases x with
  | none => decide
  | some n =>
    have hn := n.isLt
    have hval : stepOptVal (some n) = n.1 := rfl
    omega

theorem stepOptOf_stepOptVal (x : Option StepId) : stepOptOf (stepOptVal x) = x := by
  cases x with
  | none => rfl
  | some n =>
    have hn := n.isLt
    have hne : ¬ n.1 = 0xFFFF := by omega
    unfold stepOptOf stepOptVal
    rw [if_neg hne]
    exact congrArg some (Fin.ext (Nat.mod_eq_of_lt hn))

theorem ofNat_step (n : StepId) : Fin.ofNat 512 n.1 = n := Fin.ext (Nat.mod_eq_of_lt n.isLt)

/-- The values read from the bytes of the settings. -/
theorem vals_seqSettingsBytes (c : SeqSettings) :
    val2 (seqSettingsBytes c) 0 = c.regionFirst.1 ∧ val2 (seqSettingsBytes c) 2 = c.regionLast.1 ∧
      val2 (seqSettingsBytes c) 4 = c.start.1 ∧ val2 (seqSettingsBytes c) 6 = stepOptVal c.stop ∧
      val2 (seqSettingsBytes c) 8 = stepOptVal (c.group.map Prod.fst) ∧
      val2 (seqSettingsBytes c) 10 = stepOptVal (c.group.map Prod.snd) ∧
      val2 (seqSettingsBytes c) 13 = c.divertTarget.1 ∧ val1 (seqSettingsBytes c) 12 = c.groupCount % 256 := by
  have hstep := fun n : StepId => val2_bytes2_step n
  have hopt := fun x : Option StepId => two_bytes (stepOptVal x) (stepOptVal_bound x)
  simp only [seqSettingsBytes, bytes2, val2, List.cons_append, List.nil_append, val1_cons_succ, val1_cons_zero,
    toNat_byteOf, hstep, hopt, and_self]

theorem seqParamsFault_seqSettingsBytes {c : SeqSettings} (h : SettingsAdmitted c) :
    seqParamsFault (seqSettingsBytes c) = none := by
  obtain ⟨hfirst, hlast, hstart, hstop, hgroupStart, hgroupEnd, htarget, -⟩ := vals_seqSettingsBytes c
  obtain ⟨hstartIn, hstopIn, htargetIn, hgroupIn⟩ := h
  have hin : ∀ n : StepId, InRegion c n → ¬ OutsideRegion c.regionFirst.1 c.regionLast.1 n.1 := fun n ⟨hge, hle⟩ =>
    not_or.mpr ⟨Nat.not_lt.mpr hge, Nat.not_lt.mpr hle⟩
  have hstep : ∀ n : StepId, n.1 ≠ 0xFFFF := fun n => by
    have hn := n.isLt
    omega
  have hfields : ∀ n, ¬ SeqFieldBad (seqSettingsBytes c) n := by
    have hopt : ∀ x : Option StepId, ¬ (511 < stepOptVal x ∧ stepOptVal x ≠ 0xFFFF) := fun x ⟨hlt, hne⟩ => by
      cases x with
      | none => exact hne rfl
      | some n =>
        have hn := n.isLt
        have hval : stepOptVal (some n) = n.1 := rfl
        omega
    have hfit : ∀ n : StepId, ¬ 511 < n.1 := fun n => by
      have hn := n.isLt
      omega
    intro n
    unfold SeqFieldBad
    rw [hfirst, hlast, hstart, hstop, hgroupStart, hgroupEnd, htarget]
    simp only [hopt, hfit, and_false, or_self, not_false_eq_true]
  rw [seqParamsFault_of_fields rfl hfields, hfirst, hlast, hstart, hstop, hgroupStart, hgroupEnd, htarget,
    seqRegionFault_target (hin _ hstartIn) ?_ ?_, if_neg (hin _ htargetIn)]
  · cases hs : c.stop with
    | none => exact .inl rfl
    | some n => exact .inr (hin n (hstopIn n hs))
  · cases hg : c.group with
    | none => exact .inl ⟨rfl, rfl⟩
    | some g =>
      obtain ⟨a, b⟩ := g
      obtain ⟨ha, hb, hle⟩ := hgroupIn a b hg
      exact .inr ⟨hstep a, hstep b, hin a ha, hin b hb, hle⟩

theorem seqSettingsOf_seqSettingsBytes {c : SeqSettings} (h : c.groupCount ≤ 255) :
    seqSettingsOf (seqSettingsBytes c) = c := by
  obtain ⟨hfirst, hlast, hstart, hstop, hgroupStart, hgroupEnd, htarget, hcount⟩ := vals_seqSettingsBytes c
  unfold seqSettingsOf
  rw [hfirst, hlast, hstart, hstop, hgroupStart, hgroupEnd, htarget, hcount, stepOptOf_stepOptVal,
    stepOptOf_stepOptVal, stepOptOf_stepOptVal, Nat.mod_eq_of_lt (Nat.lt_succ_of_le h)]
  simp only [ofNat_step]
  cases hg : c.group <;> cases c <;> cases hg <;> rfl

/-! ## SET_SEQUENCER -/

section Request

variable {f : Request} {s : State} {st : Station}

theorem setSequencer_refused (h : ForThisNode f s) (hst : NamesStation f st)
    (hstopped : (s.run st).state.stopped = false) :
    exec (.setSequencer f) s = .next (answered 0x30 f ⟨.eState, [seqStateByte (s.run st).state]⟩ s) := by
  refine exec_answers rfl h ?_
  unfold setSequencerUnit withStation
  rw [stationOf_named f st hst]
  dsimp only
  rw [hstopped]
  rfl

theorem setSequencer_checked (h : ForThisNode f s) (hst : NamesStation f st)
    (hstopped : (s.run st).state.stopped = true) :
    (∀ n, seqParamsFault f.params = some n →
        exec (.setSequencer f) s = .next (answered 0x30 f ⟨.eArg, [byteOf n]⟩ s)) ∧
      (seqParamsFault f.params = none →
        exec (.setSequencer f) s =
          .next (answered 0x30 f ⟨.ok, []⟩ (writeSeqSettings st (seqSettingsOf f.params) s))) := by
  refine ⟨fun n hn => exec_answers rfl h ?_, fun hnone => exec_answers rfl h ?_⟩
  all_goals
    unfold setSequencerUnit withStation
    rw [stationOf_named f st hst]
    dsimp only
    rw [hstopped]
    refine (if_neg Bool.false_ne_true).trans ?_
  · rw [hn]
    rfl
  · rw [hnone]
    rfl

end Request

theorem seq_writeSeqSettings (st q : Station) (c : SeqSettings) (s : State) :
    (writeSeqSettings st c s).seq q =
      if q = st then
        { cfg := c, run := { s.run st with state := .idle, cursor := c.start, groupCounter := 0, changes := [] } }
      else s.seq q := by
  have hcfg := seq_setSeqCfg (s := s) st
  unfold writeSeqSettings
  dsimp only
  rw [seq_setRun]
  by_cases hq : q = st
  · rw [if_pos hq, if_pos hq]
    unfold State.run
    rw [hcfg, if_pos rfl]
  · rw [if_neg hq, if_neg hq, hcfg, if_neg hq]

/-- Settles O41: the fields' tests in the order of their positions, then the region's. -/
theorem setSequencerWrites : Obligations.SetSequencerWrites := by
  intro f s st h hst
  refine ⟨fun hstate => ?stopped, fun hstate => ?_, fun hstate => ?_, fun hstate => ?_, fun hstate => ?_⟩
  case stopped =>
    have hstopped : (s.run st).state.stopped = true := by
      rcases hstate with hstate | hstate | hstate <;> rw [hstate] <;> rfl
    obtain ⟨hrefused, hwritten⟩ := setSequencer_checked h hst hstopped
    refine ⟨fun c hc hcount hps => ?_, fun hlen => hrefused 0 (if_pos hlen), fun hlen =>
      ⟨fun n hbad hleast => hrefused n (seqParamsFault_of_field hlen hbad hleast), fun hfields => ?_⟩⟩
    · have hexec := hwritten (by rw [hps]; exact seqParamsFault_seqSettingsBytes hc)
      rw [hps, seqSettingsOf_seqSettingsBytes hcount] at hexec
      refine ⟨_, hexec, rfl, ?_, fun other hother => ?_⟩
      · rw [seq_writeSeqSettings, if_pos rfl]
      · rw [seq_writeSeqSettings, if_neg hother]
    · have hregion := seqParamsFault_of_fields hlen hfields
      unfold InParamRegion
      refine ⟨fun hempty => hrefused 2 (hregion.trans (seqRegionFault_empty hempty)),
        fun hle hout => hrefused 3 (hregion.trans (seqRegionFault_start hle (by omega))), fun hstart =>
          ⟨fun hne hout => hrefused 4 (hregion.trans (seqRegionFault_stop (by omega) hne (by omega))), fun hstop =>
            ⟨fun hgroup => hrefused 6 (hregion.trans (seqRegionFault_group (by omega) (by omega) (by omega))),
              fun hgroup hout => hrefused 8 (hregion.trans ?_)⟩⟩⟩
      have hlast : ¬ 511 < val2 f.params 2 := fun hbad => hfields 2 (.inr (.inl ⟨rfl, hbad⟩))
      rw [seqRegionFault_target (by omega) (by omega) (by omega)]
      exact if_pos (by omega)
  all_goals
    rw [setSequencer_refused h hst (by rw [hstate]; rfl), hstate]
    rfl

end Sys2Proof.Machine
end

section
/-! PROOF. SEQ_RUN (R81 to R84, R99 to R104, R107, R109). -/

namespace Sys2Proof.Machine

/-! ## What a turn of a sequencer keeps (R83, R84, R99) -/

/-- Of a sequencer's run state, what an evaluation does not write. -/
def SeqRun.place (r : SeqRun) : StepId × StepRecord × Option StepId × Option HeldPhase × Bool × Bool × Nat :=
  (r.cursor, r.copy, r.lastMark, r.heldPhase, r.heldByLoopback, r.divertArmed, r.groupCounter)

/-- From `s`, `u` differs in what the evaluation of a sequencer of the station may write. -/
structure TurnKeeps (st : Station) (s u : State) : Prop where
  work : u = { s with banks := u.banks, paths := u.paths, queue := u.queue, seqs := u.seqs, events := u.events }
  others : ∀ other, other ≠ st → u.seq other = s.seq other
  cfg : (u.seq st).cfg = (s.seq st).cfg
  place : (u.run st).place = (s.run st).place
  flags : ∀ ev, s.flagSet ev = true → u.flagSet ev = true

namespace TurnKeeps

variable {st : Station}

theorem refl (s : State) : TurnKeeps st s s := ⟨rfl, fun _ _ => rfl, rfl, rfl, fun _ h => h⟩

theorem trans {s v u : State} (h : TurnKeeps st s v) (g : TurnKeeps st v u) : TurnKeeps st s u where
  work := by
    rw [g.work, h.work]
  others other hother := (g.others other hother).trans (h.others other hother)
  cfg := g.cfg.trans h.cfg
  place := g.place.trans h.place
  flags ev hev := g.flags ev (h.flags ev hev)

end TurnKeeps

section Stages

variable {st : Station}

theorem turnKeeps_setRun {s : State} {r : SeqRun} (h : r.place = (s.run st).place) :
    TurnKeeps st s (s.setRun st r) where
  work := rfl
  others other hother := by rw [seq_setRun, if_neg hother]
  cfg := seqCfg_setRun s st r
  place := by rw [run_setRun_self, h]
  flags _ hev := by rw [flagSet_setRun, hev]

theorem turnKeeps_raise (s : State) (e : Event) : TurnKeeps st s (s.raise e) :=
  ⟨rfl, fun _ _ => rfl, rfl, rfl, fun _ hev => flagSet_raise _ _ _ hev⟩

theorem turnKeeps_setRun_raise {s : State} {r : SeqRun} (e : Event) (h : r.place = (s.run st).place) :
    TurnKeeps st s ((s.setRun st r).raise e) := (turnKeeps_setRun h).trans (turnKeeps_raise _ e)

/-- A change accepted by the Path Set is no work of the sequencers. -/
theorem turnKeeps_accepted {s u : State} (h : u = { s with banks := u.banks, paths := u.paths, queue := u.queue }) :
    TurnKeeps st s u := by
  rw [h]
  exact ⟨rfl, fun _ _ => rfl, rfl, rfl, fun _ hev => hev⟩

theorem turnKeeps_faultSeq (pl : Option Plane) (why : SeqFaultReason) (s : State) :
    TurnKeeps st s (faultSeq st pl why s) := turnKeeps_setRun_raise _ rfl

theorem turnKeeps_askMake (pl : Plane) (r : RouteId) (s : State) : TurnKeeps st s (askMake st pl r s).2 := by
  unfold askMake acceptMake
  cases acceptanceRefusal s st (s.route r) none with
  | some x => exact .refl s
  | none =>
    cases s.lowestFree with
    | none => exact .refl s
    | some p =>
      exact (turnKeeps_accepted (frame_placeMake s st (.sequencer st) r p)).trans (turnKeeps_setRun rfl)

theorem turnKeeps_askSwap (pl : Plane) (r : RouteId) (s : State) : TurnKeeps st s (askSwap st pl r s).2 := by
  unfold askSwap acceptSwap
  cases (s.run st).current.get pl with
  | none => exact .refl s
  | some o =>
    dsimp only
    cases oldSlotRefusal s st o with
    | some x => exact .refl s
    | none =>
      cases acceptanceRefusal s st (s.route r) (some o) with
      | some x => exact .refl s
      | none =>
        cases s.lowestFree with
        | none => exact .refl s
        | some p =>
          exact (turnKeeps_accepted (frame_placeSwap s st (.sequencer st) o r p)).trans (turnKeeps_setRun rfl)

theorem turnKeeps_askBreak (pl : Plane) (o : Slot) (s : State) : TurnKeeps st s (askBreak st pl o s).2 :=
  (turnKeeps_accepted (frame_acceptBreak o (.sequencer st) (priorOf (s.path o).state) s)).trans (turnKeeps_setRun rfl)

theorem turnKeeps_evalPlane (pl : Plane) (s : State) : TurnKeeps st s (evalPlane st pl s).2 := by
  unfold evalPlane
  dsimp only
  split
  next => exact .refl s
  next =>
    split
    next => exact .refl s
    next =>
      unfold evalClear
      split
      next => exact .refl s
      next o _ =>
        split
        next => exact turnKeeps_askBreak pl o s
        next => exact .refl s
    next r _ =>
      unfold evalRoute
      split
      next => exact .refl s
      next =>
        split
        next => exact turnKeeps_askMake pl r s
        next =>
          split
          next => exact .refl s
          next =>
            split
            next => exact turnKeeps_askSwap pl r s
            next => exact turnKeeps_askMake pl r s

theorem turnKeeps_writeOutcome (pl : Plane) (y : PlaneOutcome × State) : TurnKeeps st y.2 (writeOutcome st pl y).2 := by
  obtain ⟨o, s⟩ := y
  cases o with
  | passed => exact .refl s
  | applied => exact .refl s
  | stalled c => exact turnKeeps_setRun rfl
  | faulted why => exact turnKeeps_faultSeq _ _ s

theorem turnKeeps_settleSeq (s : State) : TurnKeeps st s (settleSeq st s) := by
  unfold settleSeq
  dsimp only
  split
  next => exact turnKeeps_setRun_raise _ rfl
  next => split <;> exact turnKeeps_setRun rfl

theorem turnKeeps_settleUnlessFaulted (y : Bool × State) : TurnKeeps st y.2 (settleUnlessFaulted st y) := by
  obtain ⟨b, s⟩ := y
  cases b with
  | true => exact .refl s
  | false => exact turnKeeps_settleSeq s

theorem turnKeeps_evalJump (t : StepId) (s : State) : TurnKeeps st s (evalJump st t s).2 := by
  unfold evalJump
  dsimp only
  split
  next =>
    split
    next => exact turnKeeps_setRun rfl
    next => exact turnKeeps_faultSeq _ _ s
  next => exact .refl s

theorem turnKeeps_evaluates (pl : Plane) (s : State) : TurnKeeps st s (writeOutcome st pl (evalPlane st pl s)).2 :=
  (turnKeeps_evalPlane pl s).trans (turnKeeps_writeOutcome pl _)

/-- R83, step 5: what follows the arrival keeps what the arrival wrote. -/
theorem turnKeeps_arrive (n : StepId) (loopback : Bool) (s : State) :
    TurnKeeps st (arriveAt st n loopback s) (arrive st n loopback s) := by
  unfold arrive arriveA
  dsimp only
  generalize arriveAt st n loopback s = v
  split
  next t _ => exact (turnKeeps_evalJump t v).trans (turnKeeps_settleUnlessFaulted _)
  next =>
    have hfirst := turnKeeps_evaluates (st := st) .a v
    split
    next w heq =>
      rw [heq] at hfirst
      exact hfirst
    next w heq =>
      rw [heq] at hfirst
      exact (hfirst.trans (turnKeeps_evaluates .b w)).trans (turnKeeps_settleUnlessFaulted _)

end Stages

/-! ## The state after an arrival (R84, R96) -/

/-- R84, R96: what an arrival makes of a sequencer. -/
def SeqState.arrived (x : SeqState) : Prop := x = .waiting ∨ x = .dwelling ∨ x = .stalled ∨ x = .faulted

theorem arrived_faultSeq (st : Station) (pl : Option Plane) (why : SeqFaultReason) (s : State) :
    ((faultSeq st pl why s).run st).state.arrived := by
  refine .inr (.inr (.inr ?_))
  exact congrArg SeqRun.state (run_setRun_self s st _)

theorem arrived_settleSeq (st : Station) (s : State) : ((settleSeq st s).run st).state.arrived := by
  unfold settleSeq
  dsimp only
  split
  next => exact .inr (.inr (.inl (congrArg SeqRun.state (run_setRun_self s st _))))
  next =>
    split
    next => exact .inr (.inl (congrArg SeqRun.state (run_setRun_self s st _)))
    next => exact .inl (congrArg SeqRun.state (run_setRun_self s st _))

theorem arrived_arrive (st : Station) (n : StepId) (loopback : Bool) (s : State) :
    ((arrive st n loopback s).run st).state.arrived := by
  have hout : ∀ (pl : Plane) (y : PlaneOutcome × State), (writeOutcome st pl y).1 = true →
      ((writeOutcome st pl y).2.run st).state.arrived := fun pl ⟨o, w⟩ h => by
    cases o with
    | faulted why => exact arrived_faultSeq st (some pl) why w
    | passed => cases h
    | applied => cases h
    | stalled c => cases h
  have hsettles : ∀ y : Bool × State, (y.1 = true → (y.2.run st).state.arrived) →
      ((settleUnlessFaulted st y).run st).state.arrived := fun ⟨b, w⟩ h => by
    cases b with
    | true => exact h rfl
    | false => exact arrived_settleSeq st w
  unfold arrive arriveA
  dsimp only
  generalize arriveAt st n loopback s = v
  split
  next t _ =>
    refine hsettles _ ?_
    unfold evalJump
    dsimp only
    split
    next =>
      split
      next => exact fun h => nomatch h
      next => exact fun _ => arrived_faultSeq st none .region v
    next => exact fun h => nomatch h
  next =>
    have hfirst := hout .a (evalPlane st .a v)
    split
    next w heq =>
      rw [heq] at hfirst
      exact hfirst rfl
    next w heq => exact hsettles _ (hout .b _)

/-! ## What an arrival leaves (R83) -/

section Arrive

variable (st : Station) (n : StepId) (loopback : Bool) (s : State)

theorem arrive_work : arrive st n loopback s =
    { s with
      banks := (arrive st n loopback s).banks, paths := (arrive st n loopback s).paths
      queue := (arrive st n loopback s).queue, seqs := (arrive st n loopback s).seqs
      events := (arrive st n loopback s).events } := by
  have hwork := (turnKeeps_arrive (st := st) n loopback s).work
  obtain ⟨harrives, -⟩ := arrivesAt_arriveAt st n loopback s
  rw [harrives] at hwork
  exact hwork

theorem arrive_others (other : Station) (h : other ≠ st) : (arrive st n loopback s).seq other = s.seq other := by
  obtain ⟨-, hothers, -⟩ := arrivesAt_arriveAt st n loopback s
  exact ((turnKeeps_arrive n loopback s).others other h).trans (hothers other h)

theorem arrive_cfg : ((arrive st n loopback s).seq st).cfg = (s.seq st).cfg := by
  obtain ⟨-, -, hseq, -⟩ := arrivesAt_arriveAt st n loopback s
  rw [(turnKeeps_arrive n loopback s).cfg, hseq]

/-- The fields of a sequencer's run state that an arrival settles. -/
theorem arrive_place :
    ((arrive st n loopback s).run st).cursor = n ∧ ((arrive st n loopback s).run st).copy = s.step n ∧
      ((arrive st n loopback s).run st).lastMark =
        (if (s.step n).mark = true then some n else (s.run st).lastMark) ∧
      ((arrive st n loopback s).run st).heldPhase = (s.run st).heldPhase ∧
      ((arrive st n loopback s).run st).heldByLoopback = (s.run st).heldByLoopback ∧
      ((arrive st n loopback s).run st).divertArmed = (s.run st).divertArmed ∧
      ((arrive st n loopback s).run st).groupCounter =
        (if (s.seqCfg st).group.map Prod.fst = some n ∧ loopback = false then (s.seqCfg st).groupCount
         else (s.run st).groupCounter) := by
  obtain ⟨-, -, hseq, -⟩ := arrivesAt_arriveAt st n loopback s
  have hplace := (turnKeeps_arrive (st := st) n loopback s).place.trans
    (congrArg (fun q : Sequencer => q.run.place) hseq)
  simpa only [SeqRun.place, Prod.mk.injEq] using hplace

theorem arrive_flags {e : Event} (h : s.flagSet e = true) : (arrive st n loopback s).flagSet e = true :=
  flagSet_arrive s e st n loopback h

theorem arrive_marks (h : (s.step n).mark = true) : (arrive st n loopback s).flagSet (markEvent st) = true := by
  obtain ⟨-, -, -, hevents⟩ := arrivesAt_arriveAt st n loopback s
  rw [if_pos h] at hevents
  refine (turnKeeps_arrive n loopback s).flags _ ?_
  rw [flagSet_of_events hevents]
  exact flagSet_raise_self s _

end Arrive

/-! ## A step that asks nothing, and a MAKE (R101, R102, R104, R107) -/

section Planes

variable {st : Station} {pl : Plane} {v w x : State} {fault : Option SeqFaultReason}

theorem evalPlane_keep (h : (v.run st).copy.field pl = .keep) : evalPlane st pl v = (.passed, v) := by
  unfold evalPlane
  dsimp only
  rw [h]
  split <;> rfl

theorem planeEvaluated_passed (h : PlaneEvaluated st pl v w fault) (he : evalPlane st pl v = (.passed, v)) :
    fault = none ∧ w = v := by
  unfold PlaneEvaluated at h
  rw [he] at h
  exact h.2 fun why heq => nomatch heq

theorem planeEvaluated_applied (h : PlaneEvaluated st pl v w fault) (he : evalPlane st pl v = (.applied, x)) :
    fault = none ∧ w = x := by
  unfold PlaneEvaluated at h
  rw [he] at h
  exact h.2 fun why heq => nomatch heq

/-- R107: nothing is asked of either plane. -/
theorem evaluated_keeps {u : State} (h : Evaluated st v u) (ha : (v.run st).copy.field .a = .keep)
    (hb : (v.run st).copy.field .b = .keep) (hstalled : (v.run st).stalled = ⟨none, none⟩)
    (hchanges : (v.run st).changes = []) : u = v.setRun st { v.run st with state := .dwelling, dwell := 1 } := by
  obtain ⟨w, fault, hfirst, -, hsecond⟩ := h
  obtain ⟨hnone, hw⟩ := planeEvaluated_passed hfirst (evalPlane_keep ha)
  obtain ⟨x, fault', hplane, -, htakes⟩ := hsecond hnone
  rw [hw] at hplane
  obtain ⟨hnone', hx⟩ := planeEvaluated_passed hplane (evalPlane_keep hb)
  obtain ⟨-, -, hdwells⟩ := htakes hnone'
  rw [hx] at hdwells
  exact hdwells hstalled hchanges

/-- R104: plane A alone has a change accepted. -/
theorem evaluated_applied {u : State} (h : Evaluated st v u) (ha : evalPlane st .a v = (.applied, x))
    (hb : (x.run st).copy.field .b = .keep) (hstalled : (x.run st).stalled = ⟨none, none⟩)
    (hchanges : (x.run st).changes ≠ []) : u = x.setRun st { x.run st with state := .waiting } := by
  obtain ⟨w, fault, hfirst, -, hsecond⟩ := h
  obtain ⟨hnone, hw⟩ := planeEvaluated_applied hfirst ha
  obtain ⟨y, fault', hplane, -, htakes⟩ := hsecond hnone
  rw [hw] at hplane
  obtain ⟨hnone', hy⟩ := planeEvaluated_passed hplane (evalPlane_keep hb)
  obtain ⟨-, hwaits, -⟩ := htakes hnone'
  rw [hy] at hwaits
  exact hwaits hstalled hchanges

/-- R101, R102: a route of the plane is asked where no path is current. -/
theorem evalPlane_makes {s : State} {r : RouteId} {p : Slot} (hwork : v = { s with seqs := v.seqs, events := v.events })
    (hcond : (v.run st).copy.cond = .always) (hfield : (v.run st).copy.field pl = .route r)
    (hplane : (s.route r).plane = pl) (hcurrent : (v.run st).current.get pl = none)
    (hok : Acceptable s st (s.route r) none []) (hfree : LowestFree s p) :
    evalPlane st pl v =
      (.applied, takeAccepted st pl none (some p) (placeMake v st (.sequencer st) r p)) := by
  have hpass : acceptanceRefusal v st (v.route r) none = none := by
    rw [hwork]
    exact (acceptanceRefusal_eq_none s st (s.route r) none [] (.inl ⟨rfl, rfl⟩)).mpr hok
  have hslot : v.lowestFree = some p := by
    rw [hwork]
    exact (lowestFree_eq_some s p).mpr hfree
  have hroute : v.route r = s.route r := by
    rw [hwork]
    rfl
  have hasks : askMake st pl r v =
      (.applied, takeAccepted st pl none (some p) (placeMake v st (.sequencer st) r p)) := by
    unfold askMake acceptMake
    rw [hpass, hslot]
  have hown : ¬ ((v.route r).defined && decide ((v.route r).plane ≠ pl)) = true := by
    rw [hroute, hplane, decide_eq_false (not_not.mpr rfl), Bool.and_false]
    exact Bool.false_ne_true
  have htests : evalRoute st pl r v = askMake st pl r v := by
    unfold evalRoute
    rw [if_neg hown, hcurrent]
  unfold evalPlane
  dsimp only
  rw [hcond, hfield]
  exact (if_neg Bool.false_ne_true).trans (htests.trans hasks)

theorem arrival_keeps {s : State} (h : v = { s with seqs := v.seqs, events := v.events }) :
    v.banks = s.banks ∧ v.paths = s.paths ∧ v.queue = s.queue := by
  rw [h]
  exact ⟨rfl, rfl, rfl⟩

/-- R102, R104: a MAKE of plane A is the change that the sequencer waits for. -/
theorem evaluated_makes {s u : State} {r : RouteId} {p : Slot} (h : Evaluated st v u)
    (hwork : v = { s with seqs := v.seqs, events := v.events }) (hcond : (v.run st).copy.cond = .always)
    (ha : (v.run st).copy.field .a = .route r) (hb : (v.run st).copy.field .b = .keep) (hplane : (s.route r).plane = .a)
    (hcurrent : (v.run st).current.a = none) (hok : Acceptable s st (s.route r) none []) (hfree : LowestFree s p)
    (hstalled : (v.run st).stalled = ⟨none, none⟩) (hchanges : (v.run st).changes = [])
    (happlied : (v.run st).applied = ⟨false, false⟩) :
    (u.run st).state = .waiting ∧ (u.run st).applied = ⟨true, false⟩ ∧ (u.run st).changes = [⟨.a, none, some p⟩] ∧
      (u.run st).current = ⟨some p, (v.run st).current.b⟩ ∧ (u.path p).state = .forming ∧ (u.path p).route = some r ∧
      (u.path p).station = some st ∧ (u.path p).origin = some .sequencer ∧
      ∃ e : Entry, u.queue = s.queue ++ [e] ∧ e.kind = .makeChange ∧ e.new = some p ∧ e.origin = .sequencer st := by
  have hmade := evalPlane_makes (pl := .a) hwork hcond ha hplane hcurrent hok hfree
  have hpath := (path_placeMake v st (.sequencer st) r p p).trans (if_pos rfl)
  have hqueue := queue_placeMake v st (.sequencer st) r p
  have hseqs : (placeMake v st (.sequencer st) r p).seqs = v.seqs := by simp [placeMake]
  have hplaced : (placeMake v st (.sequencer st) r p).run st = v.run st :=
    congrArg Sequencer.run (seq_of_seqs hseqs st)
  obtain ⟨-, -, hbefore⟩ := arrival_keeps hwork
  rw [hbefore] at hqueue
  generalize placeMake v st (.sequencer st) r p = y at hmade hpath hqueue hseqs hplaced
  have hrun : (takeAccepted st .a none (some p) y).run st =
      { v.run st with
        applied := ⟨true, false⟩, changes := [⟨.a, none, some p⟩], current := ⟨some p, (v.run st).current.b⟩ } := by
    unfold takeAccepted
    rw [run_setRun_self, hplaced, happlied, hchanges]
    rfl
  have hu := evaluated_applied h hmade (by rw [hrun]; exact hb) (by rw [hrun]; exact hstalled)
    (by rw [hrun]; exact List.cons_ne_nil _ _)
  rw [hrun] at hu
  have hupath : u.path p = y.path p := by rw [hu]; rfl
  have huqueue : u.queue = y.queue := by rw [hu]; rfl
  have hurun := (congrArg (fun t : State => t.run st) hu).trans (run_setRun_self _ st _)
  rw [hurun, hupath, hpath, huqueue]
  exact ⟨rfl, rfl, rfl, rfl, rfl, rfl, rfl, rfl, _, hqueue, rfl, rfl, rfl⟩

end Planes

/-! ## SEQ_RUN -/

section Request

variable {f : Request} {s : State} {st : Station}

theorem withNoParams_good {sf : Byte} {g : Station → Reply × State} (hst : stationOf sf = some st) :
    withNoParams sf [] s g = g st := by
  unfold withNoParams withStation
  rw [hst]
  rfl

theorem exec_seqRun {x : Reply × State} (h : ForThisNode f s) (hst : NamesStation f st) (hps : f.params = [])
    (hx : (if !s.isNormal then refuse .eSafe [] s
      else if !(s.run st).state.stopped then refuseSeqState st s
      else reportSeq st (startSeq st s)) = x) : exec (.seqRun f) s = .next (answered 0x32 f x.1 x.2) := by
  refine exec_answers rfl h ?_
  unfold seqRunUnit
  rw [hps, withNoParams_good (stationOf_named f st hst)]
  exact hx

theorem seqRun_notNormal (h : ForThisNode f s) (hst : NamesStation f st) (hps : f.params = [])
    (hnot : s.safe.state ≠ .normal) : exec (.seqRun f) s = .next (answered 0x32 f ⟨.eSafe, []⟩ s) := by
  refine exec_seqRun h hst hps (x := (⟨.eSafe, []⟩, s)) (if_pos ?_)
  rw [Bool.eq_false_iff.mpr (mt (isNormal_iff s).mp hnot)]
  rfl

theorem seqRun_refused (h : ForThisNode f s) (hst : NamesStation f st) (hps : f.params = [])
    (hnormal : s.safe.state = .normal) (hstopped : (s.run st).state.stopped = false) :
    exec (.seqRun f) s = .next (answered 0x32 f ⟨.eState, [seqStateByte (s.run st).state]⟩ s) := by
  refine exec_seqRun h hst hps (x := (⟨.eState, [seqStateByte (s.run st).state]⟩, s)) ?_
  rw [(isNormal_iff s).mpr hnormal, hstopped]
  rfl

theorem seqRun_starts (h : ForThisNode f s) (hst : NamesStation f st) (hps : f.params = [])
    (hnormal : s.safe.state = .normal) (hstopped : (s.run st).state.stopped = true) :
    exec (.seqRun f) s =
      .next (answered 0x32 f
        ⟨.ok, seqStateByte ((startSeq st s).run st).state :: bytes2 ((startSeq st s).run st).cursor.1⟩
        (react (startSeq st s))) := by
  refine exec_seqRun h hst hps (x := (⟨.ok, _⟩, _)) ?_
  rw [(isNormal_iff s).mpr hnormal, hstopped]
  rfl

end Request

/-- Settles O42: the arrival by the lemmas on `arrive`, its evaluation by `Evaluated` and `JumpEvaluated`. -/
theorem seqRunArrives : Obligations.SeqRunArrives := by
  intro f s st h hst hps
  refine ⟨seqRun_notNormal h hst hps, fun hnormal => ⟨fun hstate => ?_, fun hstate => ?_, fun hstate => ?_,
    fun hstate => ?_, fun hstate => ?starts⟩⟩
  case starts =>
    have hstopped : (s.run st).state.stopped = true := by
      rcases hstate with hstate | hstate | hstate <;> rw [hstate] <;> rfl
    have hexec := seqRun_starts h hst hps hnormal hstopped
    have hstart : startSeq st s =
        arrive st (s.seqCfg st).start false (s.setRun st ((s.run st).started (s.seqCfg st))) := rfl
    rw [hstart] at hexec
    generalize hbegun : s.setRun st ((s.run st).started (s.seqCfg st)) = x at hexec
    have hrun : x.run st = (s.run st).started (s.seqCfg st) := by rw [← hbegun, run_setRun_self]
    have hcfg : (x.seq st).cfg = (s.seq st).cfg := by rw [← hbegun, seqCfg_setRun]
    have hstep : x.step (s.seqCfg st).start = s.step (s.seqCfg st).start := by rw [← hbegun]; rfl
    obtain ⟨hcursor, hcopy, hmark, hheld, hloop, harmed, hgroup⟩ := arrive_place st (s.seqCfg st).start false x
    have harrives := arrivesAt_arriveAt st (s.seqCfg st).start false x
    have hevaluated := evaluated_arrive st (s.seqCfg st).start false x
    have hjumps := jumpEvaluated_arrive st (s.seqCfg st).start false x
    have hmarks := arrive_marks st (s.seqCfg st).start false x
    have hwork := arrive_work st (s.seqCfg st).start false x
    have hothers := arrive_others st (s.seqCfg st).start false x
    have hcfgs := arrive_cfg st (s.seqCfg st).start false x
    have hstates := arrived_arrive st (s.seqCfg st).start false x
    have hseqCfg : x.seqCfg st = s.seqCfg st := hcfg
    rw [hstep] at hcopy hmark hmarks
    rw [hrun] at hmark hheld hloop harmed hgroup
    rw [hseqCfg] at hgroup
    generalize arrive st (s.seqCfg st).start false x = u at *
    have hv : ArrivesAt st (s.seqCfg st).start false (s.setRun st ((s.run st).started (s.seqCfg st)))
        (arriveAt st (s.seqCfg st).start false x) := by
      rw [hbegun]
      exact harrives
    have hvwork : arriveAt st (s.seqCfg st).start false x =
        { s with
          seqs := (arriveAt st (s.seqCfg st).start false x).seqs
          events := (arriveAt st (s.seqCfg st).start false x).events } := hv.1
    obtain ⟨hvcopy, hvstalled, hvchanges, -, -⟩ := run_of_arrivesAt hv
    have hvrun := congrArg Sequencer.run harrives.2.2.1
    have hvcfg : (arriveAt st (s.seqCfg st).start false x).seqCfg st = s.seqCfg st :=
      (congrArg Sequencer.cfg harrives.2.2.1).trans hcfg
    generalize arriveAt st (s.seqCfg st).start false x = v at *
    have hvcopy : (v.run st).copy = s.step (s.seqCfg st).start := hvcopy
    rw [hstep] at hevaluated hjumps
    refine ⟨u, hexec, ?work, ⟨v, hv, hevaluated, hjumps⟩, hcfgs.trans hcfg, fun other hother => ?others, hcursor,
      hcopy, hheld, hloop, harmed, hmark, hmarks, hgroup.trans (if_congr (and_iff_left rfl) rfl rfl), hstates,
      fun d hd ha hb => ?keeps, fun n hn hcond hin => ?jumps,
      fun d r p hd hcond ha hb hplane hcurrent hok hfree => ?makes⟩
    case work =>
      rw [← hbegun] at hwork
      exact hwork
    case others =>
      rw [hothers other hother, ← hbegun, seq_setRun, if_neg hother]
    case keeps =>
      have hu := evaluated_keeps (hevaluated d hd) (by rw [hvcopy]; exact ha) (by rw [hvcopy]; exact hb) hvstalled
        hvchanges
      have hkept := arrival_keeps hvwork
      rw [hu, run_setRun_self]
      exact ⟨rfl, rfl, hkept⟩
    case jumps =>
      obtain ⟨htaken, -⟩ := hjumps n hn
      rw [hvcopy, hcond, hvcfg] at htaken
      rw [(htaken ⟨rfl, rfl⟩).1 hin, run_setRun_self]
      exact ⟨rfl, rfl, rfl⟩
    case makes =>
      have harrived := congrArg SeqRun.current hvrun
      have hstarted := congrArg SeqRun.current hrun
      have happlied := congrArg SeqRun.applied hvrun
      have hcurrents : (v.run st).current = (s.run st).current := harrived.trans hstarted
      have hmade := evaluated_makes (hevaluated d hd) hvwork (by rw [hvcopy]; exact hcond) (by rw [hvcopy]; exact ha)
        (by rw [hvcopy]; exact hb) hplane (by rw [hcurrents]; exact hcurrent) hok hfree hvstalled hvchanges
        happlied
      rw [hcurrents] at hmade
      exact hmade
  all_goals
    rw [seqRun_refused h hst hps hnormal (by rw [hstate]; rfl), hstate]
    rfl

end Sys2Proof.Machine
end

section
/-! PROOF. SEQ_HOLD, SEQ_RESUME, SEQ_STOP and ARM_DIVERT (R81, R91 to R95). -/

namespace Sys2Proof.Machine

/-! ## The refusals of the group (R81) -/

theorem withNoParams_bad {sf : Byte} {ps : List Byte} {s : State} {g : Station → Reply × State}
    (h : stationOf sf = none ∨ ps ≠ []) : withNoParams sf ps s g = (⟨.eArg, [0xFF]⟩, s) := by
  unfold withNoParams withStation
  cases hst : stationOf sf with
  | none => rfl
  | some st =>
    have hps : ps ≠ [] := h.resolve_left (by rw [hst]; exact Option.some_ne_none st)
    exact if_pos (mt List.length_eq_zero_iff.mp hps)

/-! ## The answers of the group (R81) -/

section Requests

variable {c : Instr} {code : Byte} {g : State → Station → Reply × State} {f : Request} {s : State} {st : Station}

theorem exec_withNoParams (hc : exec c s = perform (takeRequest code (fun sf ps t => withNoParams sf ps t (g t)) f) s)
    (h : ForThisNode f s) (hst : NamesStation f st) (hps : f.params = []) :
    exec c s = .next (answered code f (g s st).1 (g s st).2) := by
  refine exec_answers hc h ?_
  rw [hps, withNoParams_good (stationOf_named f st hst)]

theorem exec_refusesArg (hc : exec c s = perform (takeRequest code (fun sf ps t => withNoParams sf ps t (g t)) f) s)
    (h : ForThisNode f s) (hbad : stationOf f.station = none ∨ f.params ≠ []) :
    exec c s = .next (answered code f ⟨.eArg, [0xFF]⟩ s) := exec_answers hc h (withNoParams_bad hbad)

theorem exec_reports {x : State}
    (hc : exec c s = perform (takeRequest code (fun sf ps t => withNoParams sf ps t (g t)) f) s) (h : ForThisNode f s)
    (hst : NamesStation f st) (hps : f.params = []) (hg : g s st = reportSeq st x) :
    exec c s =
      .next (answered code f ⟨.ok, seqStateByte (x.run st).state :: bytes2 (x.run st).cursor.1⟩ (react x)) := by
  rw [exec_withNoParams hc h hst hps, hg]
  rfl

theorem exec_refusesState
    (hc : exec c s = perform (takeRequest code (fun sf ps t => withNoParams sf ps t (g t)) f) s) (h : ForThisNode f s)
    (hst : NamesStation f st) (hps : f.params = []) (hg : g s st = refuseSeqState st s) :
    exec c s = .next (answered code f ⟨.eState, [seqStateByte (s.run st).state]⟩ s) := by
  rw [exec_withNoParams hc h hst hps, hg]
  rfl

end Requests

/-! ## Resuming (R93) -/

section Resume

variable {s : State} {st : Station}

theorem resumeSeq_dwelling (h : (s.run st).heldPhase = some .dwelling) :
    resumeSeq st s = s.setRun st { s.run st with state := .dwelling, heldPhase := none } := by
  unfold resumeSeq
  dsimp only
  rw [h]

theorem resumeSeq_stalled (h : (s.run st).heldPhase = some .stalled) :
    resumeSeq st s = s.setRun st { s.run st with state := .stalled, heldPhase := none } := by
  unfold resumeSeq
  dsimp only
  rw [h]

theorem resumeSeq_waiting (h : (s.run st).heldPhase = some .waiting) :
    resumeSeq st s =
      if (s.run st).changes.isEmpty then
        s.setRun st { s.run st with state := .dwelling, dwell := (s.run st).copyDwell, heldPhase := none }
      else s.setRun st { s.run st with state := .waiting, heldPhase := none } := by
  unfold resumeSeq
  dsimp only
  rw [h]

theorem resumeSeq_arrival (h : (s.run st).heldPhase = some .arrival) :
    resumeSeq st s =
      arrive st (s.run st).cursor (s.run st).heldByLoopback
        (s.setRun st { s.run st with heldPhase := none, heldByLoopback := false }) := by
  unfold resumeSeq
  dsimp only
  rw [h]

theorem copyDwell_of_apply {r : SeqRun} {d : Nat} (h : r.copy.kind = .apply d) : r.copyDwell = d := by
  unfold SeqRun.copyDwell
  rw [h]

end Resume

/-! ## The entries that SEQ_STOP cancels (R94) -/

theorem foldl_erase_cons {q l : List Entry} {x : Entry} (h : ∀ e ∈ l, e ≠ x) :
    l.foldl List.erase (x :: q) = x :: l.foldl List.erase q := by
  induction l generalizing q with
  | nil => rfl
  | cons e rest ih =>
    have hne : x ≠ e := Ne.symm (h e List.mem_cons_self)
    rw [List.foldl_cons, List.foldl_cons, List.erase_cons_tail (by rw [beq_iff_eq]; exact hne)]
    exact ih fun e' he' => h e' (List.mem_cons_of_mem _ he')

/-- Every entry of a kind taken out of the queue, one after another, leaves the others. -/
theorem foldl_erase_filter (p : Entry → Bool) (q : List Entry) :
    (q.filter p).foldl List.erase q = q.filter fun e => !p e := by
  induction q with
  | nil => rfl
  | cons x rest ih =>
    by_cases hx : p x = true
    · rw [List.filter_cons_of_pos hx, List.foldl_cons, List.erase_cons_head,
        List.filter_cons_of_neg (by rw [hx]; exact Bool.false_ne_true), ih]
    · have hothers : ∀ e ∈ rest.filter p, e ≠ x := fun e he heq => hx (heq ▸ (List.mem_filter.mp he).2)
      rw [List.filter_cons_of_neg hx, foldl_erase_cons hothers, ih,
        List.filter_cons_of_pos (by rw [Bool.eq_false_iff.mpr hx]; rfl)]

theorem queue_cancelAll (es : List Entry) (s : State) : (cancelAll es s).queue = es.foldl List.erase s.queue := by
  induction es generalizing s with
  | nil => rfl
  | cons e rest ih =>
    refine (ih (cancelEntry e s)).trans ?_
    rw [queue_cancelEntry, List.foldl_cons]

/-- Of a sequencer's run state, what the end of its entries does not write. -/
def SeqRun.kept (r : SeqRun) : StepId × Nat × Option SeqFault × Option StepId × StepRecord :=
  (r.cursor, r.groupCounter, r.fault, r.lastMark, r.copy)

theorem kept_cancelAll (es : List Entry) (s : State) (st : Station) :
    ((cancelAll es s).run st).kept = (s.run st).kept := by
  induction es generalizing s with
  | nil => rfl
  | cons e rest ih =>
    have hended := congrArg (fun q : Sequencer => q.run.kept) (noticeTaken_cancelEntry e s st)
    exact (ih (cancelEntry e s)).trans hended

theorem stoppable_eq (st : Station) (s : State) :
    (stoppable st s).length = s.queue.countP fun e => !e.active && decide (e.origin = .sequencer st) :=
  List.countP_eq_length_filter.symm

/-- Settles O43: each request by its answer, SEQ_STOP's queue by `foldl_erase_filter`. -/
theorem sequencerHoldResumeStopDivert : Obligations.SequencerHoldResumeStopDivert := by
  refine ⟨fun s => ⟨rfl, fun e more => ⟨rfl, cancelled_cancelEntry e s⟩⟩, fun f s h =>
    ⟨fun hst => ?station, fun hps => ?params, fun st hst hps => ⟨fun phase hphase => ?hold, fun hstate => ?holdNot,
      fun hnot => ?resumeNot, fun hheld => ⟨fun hphase => ?_, fun hphase => ?_, fun hphase hchanges => ?_,
        fun d hphase hchanges hkind => ?_, fun hphase => ?arrival⟩, ?stop, ?arm⟩⟩⟩
  case station =>
    have hbad := Or.inl (b := f.params ≠ []) (stationOf_none hst)
    refine ⟨exec_answers rfl h ?_, exec_refusesArg rfl h hbad, exec_refusesArg rfl h hbad, exec_refusesArg rfl h hbad,
      exec_refusesArg rfl h hbad, exec_refusesArg rfl h hbad, exec_refusesArg rfl h hbad⟩
    unfold setSequencerUnit withStation
    rw [stationOf_none hst]
    rfl
  case params =>
    have hbad := Or.inr (a := stationOf f.station = none) hps
    exact ⟨exec_refusesArg rfl h hbad, exec_refusesArg rfl h hbad, exec_refusesArg rfl h hbad,
      exec_refusesArg rfl h hbad, exec_refusesArg rfl h hbad, exec_refusesArg rfl h hbad⟩
  case hold =>
    have hof : heldPhaseOf (s.run st).state = some phase := by
      rcases hphase with ⟨hstate, hp⟩ | ⟨hstate, hp⟩ | ⟨hstate, hp⟩ <;> rw [hstate, hp] <;> rfl
    have hexec := exec_reports (c := .seqHold f)
      (x := s.setRun st { s.run st with state := .held, heldPhase := some phase }) rfl h hst hps
      (by dsimp only; rw [hof])
    rw [run_setRun_self] at hexec
    exact hexec
  case holdNot =>
    refine exec_refusesState rfl h hst hps ?_
    rcases hstate with hstate | hstate | hstate | hstate <;> rw [hstate] <;> rfl
  case resumeNot => exact exec_refusesState rfl h hst hps (if_neg hnot)
  case arrival =>
    have hexec := exec_reports (c := .seqResume f) (x := resumeSeq st s) rfl h hst hps (if_pos hheld)
    rw [resumeSeq_arrival hphase] at hexec
    generalize hbegun : s.setRun st { s.run st with heldPhase := none, heldByLoopback := false } = x at hexec ⊢
    have hrun : x.run st = { s.run st with heldPhase := none, heldByLoopback := false } := by
      rw [← hbegun, run_setRun_self]
    have hcfg : x.seqCfg st = s.seqCfg st := by rw [← hbegun]; exact seqCfg_setRun s st _
    have hstep : x.step (s.run st).cursor = s.step (s.run st).cursor := by rw [← hbegun]; rfl
    have hothers := arrive_others st (s.run st).cursor (s.run st).heldByLoopback x
    have hevaluated := evaluated_arrive st (s.run st).cursor (s.run st).heldByLoopback x
    have hjumps := jumpEvaluated_arrive st (s.run st).cursor (s.run st).heldByLoopback x
    have hwork := arrive_work st (s.run st).cursor (s.run st).heldByLoopback x
    obtain ⟨hcursor, hcopy, -, hheld', hloop, -, hgroup⟩ :=
      arrive_place st (s.run st).cursor (s.run st).heldByLoopback x
    rw [hstep] at hevaluated hjumps hcopy
    rw [hrun] at hheld' hloop hgroup
    rw [hcfg] at hgroup
    have hframe : ∀ y : State, y = { x with
        banks := y.banks, paths := y.paths, queue := y.queue, seqs := y.seqs, events := y.events } →
        y = { s with banks := y.banks, paths := y.paths, queue := y.queue, seqs := y.seqs, events := y.events } := by
      rw [← hbegun]
      exact fun y hy => hy
    refine ⟨_, _, ?_, hframe _ hwork, arrivesAt_arriveAt st _ _ x, hevaluated, hjumps,
      (arrive_cfg st _ _ x).trans hcfg, fun other hother => ?_, hcursor, hcopy, hheld', hloop, arrived_arrive st _ _ x,
      hgroup⟩
    · rw [hcursor] at hexec
      exact hexec
    · rw [hothers other hother, ← hbegun, seq_setRun, if_neg hother]
  case stop =>
    have hexec := exec_withNoParams (c := .seqStop f) (st := st) rfl h hst hps
    have hkept := kept_cancelAll (stoppable st s) s st
    simp only [SeqRun.kept, Prod.mk.injEq] at hkept
    obtain ⟨hcursor, hcounter, hfault, hmark, hcopy⟩ := hkept
    refine ⟨_, _, hexec.trans ?_, rfl, rfl, ?_⟩
    · rw [← stoppable_eq]
      rfl
    · rw [run_setRun_self]
      refine ⟨hcursor, hcounter, fun hnone => ?_, rfl, rfl, rfl, rfl, rfl, hfault, hmark, hcopy, ?_⟩
      · have hnil : (s.queue.filter fun e => !e.active && decide (e.origin = .sequencer st)) = [] := by
          refine List.filter_eq_nil_iff.mpr fun e he hmine => ?_
          rw [Bool.and_eq_true, Bool.not_eq_true', decide_eq_true_iff] at hmine
          exact (hnone e he).elim (fun hactive => Bool.false_ne_true (hmine.1.symm.trans hactive)) (· hmine.2)
        rw [hnil]
        rfl
      · refine (queue_cancelAll _ s).trans ((foldl_erase_filter _ s.queue).trans (List.filter_congr fun e _ => ?_))
        rw [Bool.not_and, Bool.not_not, decide_not]
  case arm =>
    have hexec := exec_reports (c := .armDivert f)
      (x := s.setRun st { s.run st with divertArmed := true }) rfl h hst hps rfl
    rw [run_setRun_self] at hexec
    exact hexec
  all_goals
    have hexec := exec_reports (c := .seqResume f) (x := resumeSeq st s) rfl h hst hps (if_pos hheld)
  · rw [resumeSeq_dwelling hphase, run_setRun_self] at hexec
    exact hexec
  · rw [resumeSeq_stalled hphase, run_setRun_self] at hexec
    exact hexec
  · rw [resumeSeq_waiting hphase, if_neg (mt List.isEmpty_iff.mp hchanges), run_setRun_self] at hexec
    exact hexec
  · rw [resumeSeq_waiting hphase, if_pos (List.isEmpty_iff.mpr hchanges), run_setRun_self,
      copyDwell_of_apply hkind] at hexec
    exact hexec

end Sys2Proof.Machine
end

section
/-! PROOF. The next index and the end of a step (R88, R89). -/

namespace Sys2Proof.Machine

/-! ## The next index (R88) -/

/-- R88: the following step, or the region's first after its last. -/
def following (c : SeqSettings) (r r' : SeqRun) : StepId × NextTest × SeqRun :=
  if r.cursor = c.regionLast then (c.regionFirst, .advance true, r') else (r.cursor + 1, .advance false, r')

section NextIndex

variable {c : SeqSettings} {r : SeqRun}

theorem nextIndex_jump {t : StepId} (hkind : r.copy.kind = .jump t) (htaken : r.jumpTaken = true) :
    nextIndex c r = (t, .jump, r) := by
  unfold nextIndex
  dsimp only
  rw [hkind, htaken]

theorem nextIndex_divert (htaken : r.jumpTaken = false) (hmark : r.copy.mark = true) (harmed : r.divertArmed = true) :
    nextIndex c r = (c.divertTarget, .divert, { r with divertArmed := false }) := by
  unfold nextIndex
  dsimp only
  rw [htaken, hmark, harmed]
  cases r.copy.kind <;> rfl

/-- R88: no jump is taken and no divert made. -/
theorem nextIndex_pastDivert (htaken : r.jumpTaken = false) (h : r.copy.mark = false ∨ r.divertArmed = false) :
    ((∀ a, c.group ≠ some (a, r.cursor)) → nextIndex c r = following c r r) ∧
      ∀ a, c.group = some (a, r.cursor) →
        nextIndex c r =
          if 1 < r.groupCounter then (a, .loopback, { r with groupCounter := r.groupCounter - 1 })
          else following c r (if r.groupCounter = 1 then { r with groupCounter := 0 } else r) := by
  have hdivert : ¬ (r.copy.mark && r.divertArmed) = true := by
    rw [Bool.and_eq_true]
    rintro ⟨hmark, harmed⟩
    exact h.elim (fun hnot => Bool.false_ne_true (hnot.symm.trans hmark))
      fun hnot => Bool.false_ne_true (hnot.symm.trans harmed)
  unfold nextIndex
  dsimp only
  rw [htaken, if_neg hdivert]
  refine ⟨fun hnone => ?_, fun a hgroup => ?_⟩
  · have hend : decide (c.group.map Prod.snd = some r.cursor) = false := by
      refine decide_eq_false fun heq => ?_
      obtain ⟨⟨a, b⟩, hg, hb⟩ := Option.map_eq_some_iff.mp heq
      exact hnone a (hg.trans (congrArg (fun x => some (a, x)) hb))
    rw [hend]
    cases r.copy.kind <;> cases c.group <;> rfl
  · rw [hgroup]
    have hend : decide ((some (a, r.cursor)).map Prod.snd = some r.cursor) = true := decide_eq_true rfl
    rw [hend]
    simp only [Bool.true_and, decide_eq_true_iff]
    cases r.copy.kind <;> rfl

end NextIndex

/-- R88: no test writes the copy. -/
theorem copy_nextIndex (c : SeqSettings) (r : SeqRun) : (nextIndex c r).2.2.copy = r.copy := by
  have hfollowing : ∀ r' : SeqRun, r'.copy = r.copy → (following c r r').2.2.copy = r.copy := fun r' hr' => by
    unfold following
    split <;> exact hr'
  have hadvanced : (following c r (if decide (c.group.map Prod.snd = some r.cursor) && decide (r.groupCounter = 1) then
      { r with groupCounter := 0 } else r)).2.2.copy = r.copy := hfollowing _ (by split <;> rfl)
  unfold nextIndex
  dsimp only
  split
  next => rfl
  next =>
    split
    next => rfl
    next =>
      split
      next =>
        split
        next => rfl
        next => exact hadvanced
      next => exact hadvanced

/-! ## The end of a step (R89) -/

section EndStep

variable {s : State} {st : Station} {n : StepId} {test : NextTest} {r : SeqRun}

theorem run_leaving (st : Station) (test : NextTest) (r : SeqRun) (s : State) : (leaving st test r s).run st = r := by
  unfold leaving
  split <;> exact run_setRun_self s st r

theorem leaving_keeps (st : Station) (test : NextTest) (r : SeqRun) (s : State) :
    (leaving st test r s).queue = s.queue ∧ (leaving st test r s).steps = s.steps := by
  unfold leaving
  split <;> exact ⟨rfl, rfl⟩

theorem wrap_leaving (st : Station) (r : SeqRun) (s : State) :
    (leaving st (.advance true) r s).flagSet (wrapEvent st) = true := flagSet_raise_self _ _

/-- R89: the sequencer stops at the stop step. -/
theorem endStep_stops (h : nextIndex (s.seqCfg st) (s.run st) = (n, test, r)) (hstop : (s.seqCfg st).stop = some n) :
    endStep st s =
      ((leaving st test r s).setRun st { r with state := .done, cursor := n }).raise (stoppedEvent st) := by
  unfold endStep endStepA
  rw [h]
  dsimp only
  rw [if_pos hstop]
  have hrun := run_leaving st test r s
  unfold leaving at hrun ⊢
  rw [hrun]
  rfl

/-- R89: the sequencer holds before its arrival. -/
theorem endStep_holds (h : nextIndex (s.seqCfg st) (s.run st) = (n, test, r)) (hstop : (s.seqCfg st).stop ≠ some n)
    (hhold : r.copy.hold = true) :
    endStep st s =
      (leaving st test r s).setRun st
        { r with
          state := .held, heldPhase := some .arrival, cursor := n, heldByLoopback := decide (test = .loopback) } := by
  unfold endStep endStepA
  rw [h]
  dsimp only
  rw [if_neg hstop, if_pos hhold]
  have hrun := run_leaving st test r s
  unfold leaving at hrun ⊢
  rw [hrun]
  rfl

theorem copy_of_nextIndex (h : nextIndex (s.seqCfg st) (s.run st) = (n, test, r)) : r.copy = (s.run st).copy := by
  have hcopy := copy_nextIndex (s.seqCfg st) (s.run st)
  rw [h] at hcopy
  exact hcopy

end EndStep

/-- Settles O44: the next index test by test; the end of a step at the stop, at a step that holds, and at an arrival. -/
theorem nextIndexRule : Obligations.NextIndexRule := by
  refine ⟨fun c r t => nextIndex_jump, fun c r htaken => ⟨nextIndex_divert htaken, fun hpast => ?past⟩,
    fun s st n test r h => ?ends⟩
  case past =>
    obtain ⟨hplain, hgroup⟩ := nextIndex_pastDivert (c := c) htaken hpast
    refine ⟨fun a ha hmore => (hgroup a ha).trans (if_pos hmore), hplain, fun a ha hlast => ?_⟩
    have hzero : (if r.groupCounter = 1 then { r with groupCounter := 0 } else r) = { r with groupCounter := 0 } := by
      split
      next => rfl
      next hne =>
        have hnone : r.groupCounter = 0 := by omega
        rw [← hnone]
    rw [hgroup a ha, if_neg (by omega), hzero]
    rfl
  case ends =>
    have hcopy := copy_of_nextIndex h
    obtain ⟨hqueue, hsteps⟩ := leaving_keeps st test r s
    have hwraps : test = .advance true → (leaving st test r s).flagSet (wrapEvent st) = true := fun heq => by
      rw [heq]
      exact wrap_leaving st r s
    by_cases hstop : (s.seqCfg st).stop = some n
    · have hend := endStep_stops h hstop
      have hrun := run_setRun_self (leaving st test r s) st { r with state := .done, cursor := n }
      have hended : (endStep st s).run st = { r with state := .done, cursor := n } := by
        rw [hend]
        exact hrun
      rw [hended, hend]
      exact ⟨rfl, fun heq => flagSet_raise _ _ _ (hwraps heq),
        fun _ => ⟨rfl, flagSet_raise_self _ _, hqueue⟩, fun hnot => absurd hstop hnot, fun hnot => absurd hstop hnot⟩
    · cases hhold : r.copy.hold with
      | true =>
        have hend := endStep_holds h hstop hhold
        rw [hend, run_setRun_self]
        refine ⟨rfl, fun heq => ?_, fun hyes => absurd hyes hstop, fun _ _ => ⟨rfl, hqueue⟩, fun _ hnot => ?_⟩
        · rw [flagSet_setRun]
          exact hwraps heq
        · rw [← hcopy, hhold] at hnot
          cases hnot
      | false =>
        have hend := endStep_arrives st s n test r h hstop hhold
        have hstep : (leaving st test r s).step n = s.step n := by
          unfold State.step
          rw [hsteps]
        obtain ⟨hcursor, hcopied, -⟩ := arrive_place st n (decide (test = .loopback)) (leaving st test r s)
        have hevaluated := evaluated_arrive st n (decide (test = .loopback)) (leaving st test r s)
        have hjumps := jumpEvaluated_arrive st n (decide (test = .loopback)) (leaving st test r s)
        rw [hstep] at hcopied hevaluated hjumps
        rw [hend]
        refine ⟨hcursor, fun heq => arrive_flags st n _ _ (hwraps heq), fun hyes => absurd hyes hstop,
          fun _ hyes => ?_, fun _ _ => ⟨hcopied, ?_, _, arrivesAt_arriveAt st n _ _, hevaluated, hjumps⟩⟩
        · rw [← hcopy, hhold] at hyes
          cases hyes
        · rcases arrived_arrive st n (decide (test = .loopback)) (leaving st test r s) with hx | hx | hx | hx <;>
            rw [hx] <;> decide

end Sys2Proof.Machine
end

section
/-! PROOF. The conditions of a step, and what one plane of a step comes to (R100 to R106). -/

namespace Sys2Proof.Machine

/-! ## The conditions (R100) -/

theorem holds_live_iff (s : State) (st : Station) (pl : Plane) :
    holds s st .live pl = true ↔ ∃ p, (s.run st).current.get pl = some p ∧ (s.path p).state = .live := by
  unfold holds
  dsimp only
  cases (s.run st).current.get pl with
  | none => exact iff_of_false Bool.false_ne_true fun ⟨p, h, _⟩ => nomatch h
  | some q =>
    refine (decide_eq_true_iff).trans ⟨fun h => ⟨q, rfl, h⟩, fun ⟨p, hp, h⟩ => ?_⟩
    rw [Option.some.inj hp]
    exact h

theorem pathFaulty_iff (s : State) (current : Option Slot) :
    pathFaulty s current = true ↔
      ∃ p, current = some p ∧ ((s.path p).state = .failed ∨ ∃ b, (s.bank b).holder = some p ∧ s.faultsOf b ≠ 0) := by
  cases current with
  | none => exact iff_of_false Bool.false_ne_true fun ⟨p, h, _⟩ => nomatch h
  | some q =>
    have hany : (allBanks.any fun b => decide ((s.bank b).holder = some q) && s.inhibited b) = true ↔
        ∃ b, (s.bank b).holder = some q ∧ s.faultsOf b ≠ 0 := by
      rw [List.any_eq_true]
      refine exists_congr fun b => ?_
      unfold State.inhibited
      rw [Bool.and_eq_true, decide_eq_true_iff, decide_eq_true_iff]
      exact and_iff_right (List.mem_finRange b)
    unfold pathFaulty
    dsimp only
    rw [Bool.or_eq_true, decide_eq_true_iff, hany]
    refine ⟨fun h => ⟨q, rfl, h⟩, fun ⟨p, hp, h⟩ => ?_⟩
    rw [Option.some.inj hp]
    exact h

theorem not_eq_true_iff (x : Bool) : (!x) = true ↔ ¬ x = true := by
  rw [Bool.not_eq_true', Bool.not_eq_true]

/-! ## One plane of a step (R101, R103) -/

section Plane

variable {s : State} {st : Station} {pl : Plane}

theorem evalPlane_notHolding (h : holds s st (s.run st).copy.cond pl = false) : evalPlane st pl s = (.passed, s) := by
  unfold evalPlane
  dsimp only
  rw [h]
  rfl

theorem evalPlane_clear (h : holds s st (s.run st).copy.cond pl = true) (hf : (s.run st).copy.field pl = .clear) :
    evalPlane st pl s = evalClear st pl s := by
  unfold evalPlane
  dsimp only
  rw [h, hf]
  rfl

theorem evalPlane_route {r : RouteId} (h : holds s st (s.run st).copy.cond pl = true)
    (hf : (s.run st).copy.field pl = .route r) : evalPlane st pl s = evalRoute st pl r s := by
  unfold evalPlane
  dsimp only
  rw [h, hf]
  rfl

theorem openForChange_iff (x : PathRecord) (failed : Bool) :
    openForChange x failed = true ↔
      (x.state = .live ∨ x.state = .settling ∨ (failed = true ∧ x.state = .failed)) ∧ x.closeOwed = false := by
  unfold openForChange
  rw [Bool.and_eq_true, Bool.or_eq_true, Bool.or_eq_true, Bool.and_eq_true, decide_eq_true_iff, decide_eq_true_iff,
    decide_eq_true_iff, Bool.not_eq_true', or_assoc]

theorem evalClear_none (h : (s.run st).current.get pl = none) : evalClear st pl s = (.passed, s) := by
  unfold evalClear
  rw [h]

theorem evalClear_some {o : Slot} (h : (s.run st).current.get pl = some o) :
    evalClear st pl s = if openForChange (s.path o) true then askBreak st pl o s else (.passed, s) := by
  unfold evalClear
  rw [h]

theorem evalRoute_otherPlane {r : RouteId} (hdefined : (s.route r).defined = true) (hplane : (s.route r).plane ≠ pl) :
    evalRoute st pl r s = (.faulted .plane, s) := by
  refine if_pos ?_
  rw [hdefined, decide_eq_true hplane]
  rfl

theorem evalRoute_ownPlane {r : RouteId} (h : (s.route r).defined = false ∨ (s.route r).plane = pl) :
    ((s.run st).current.get pl = none → evalRoute st pl r s = askMake st pl r s) ∧
      ∀ o, (s.run st).current.get pl = some o →
        evalRoute st pl r s =
          if (s.path o).route = some r ∧ (s.path o).state ≠ .closing then (.passed, s)
          else if openForChange (s.path o) false then askSwap st pl r s
          else askMake st pl r s := by
  have hown : ¬ ((s.route r).defined && decide ((s.route r).plane ≠ pl)) = true := by
    rw [Bool.and_eq_true, decide_eq_true_iff]
    rintro ⟨hdefined, hother⟩
    exact h.elim (fun hnot => Bool.false_ne_true (hnot.symm.trans hdefined)) fun hplane => hother hplane
  refine ⟨fun hnone => ?_, fun o ho => ?_⟩
  · unfold evalRoute
    rw [if_neg hown, hnone]
  · unfold evalRoute
    rw [if_neg hown, ho]

end Plane

/-! ## The calls to the Path Set (R102 to R105) -/

section Calls

variable {s : State} {st : Station} {pl : Plane} {r : RouteId}

/-- R104: what an acceptance writes of the run state. -/
theorem run_takeAccepted_new {t : State} (old : Option Slot) (p : Slot) (h : t.seqs = s.seqs) :
    (takeAccepted st pl old (some p) t).run st =
      { s.run st with
        applied := (s.run st).applied.set pl true, changes := (s.run st).changes ++ [⟨pl, old, some p⟩]
        current := (s.run st).current.set pl (some p) } := by
  have hrun : t.run st = s.run st := congrArg Sequencer.run (seq_of_seqs h st)
  unfold takeAccepted
  rw [run_setRun_self, hrun]

theorem run_takeAccepted_none {t : State} (old : Option Slot) (h : t.seqs = s.seqs) :
    (takeAccepted st pl old none t).run st =
      { s.run st with
        applied := (s.run st).applied.set pl true, changes := (s.run st).changes ++ [⟨pl, old, none⟩] } := by
  have hrun : t.run st = s.run st := congrArg Sequencer.run (seq_of_seqs h st)
  unfold takeAccepted
  rw [run_setRun_self, hrun]

theorem takeAccepted_keeps (old new : Option Slot) (t : State) :
    (takeAccepted st pl old new t).banks = t.banks ∧ (takeAccepted st pl old new t).paths = t.paths ∧
      (takeAccepted st pl old new t).queue = t.queue := ⟨rfl, rfl, rfl⟩

theorem askMake_refused {x : Reply} (h : acceptanceRefusal s st (s.route r) none = some x) :
    askMake st pl r s = (classify s .makeCall x, s) := by
  unfold askMake acceptMake
  rw [h]

theorem askMake_full (h : Acceptable s st (s.route r) none []) (hfull : ∀ q, (s.path q).state ≠ .free) :
    askMake st pl r s = (.stalled .makeCall, s) := by
  unfold askMake acceptMake
  rw [(acceptanceRefusal_eq_none s st (s.route r) none [] (.inl ⟨rfl, rfl⟩)).mpr h, lowestFree_eq_none hfull]
  rfl

theorem askMake_taken {p : Slot} (h : Acceptable s st (s.route r) none []) (hp : LowestFree s p) :
    askMake st pl r s = (.applied, takeAccepted st pl none (some p) (placeMake s st (.sequencer st) r p)) := by
  unfold askMake acceptMake
  rw [(acceptanceRefusal_eq_none s st (s.route r) none [] (.inl ⟨rfl, rfl⟩)).mpr h, (lowestFree_eq_some s p).mpr hp]

theorem askSwap_none (h : (s.run st).current.get pl = none) : askSwap st pl r s = (.faulted .conflict, s) := by
  unfold askSwap
  rw [h]

variable {o : Slot} (ho : (s.run st).current.get pl = some o)

include ho

theorem askSwap_oldSlot {x : Reply} (h : oldSlotRefusal s st o = some x) :
    askSwap st pl r s = (classify s .swapCall x, s) := by
  unfold askSwap acceptSwap
  rw [ho]
  dsimp only
  rw [h]

theorem askSwap_refused {x : Reply} (hold : oldSlotRefusal s st o = none)
    (h : acceptanceRefusal s st (s.route r) (some o) = some x) : askSwap st pl r s = (classify s .swapCall x, s) := by
  unfold askSwap acceptSwap
  rw [ho]
  dsimp only
  rw [hold, h]

theorem askSwap_full (hold : oldSlotRefusal s st o = none) (h : acceptanceRefusal s st (s.route r) (some o) = none)
    (hfull : ∀ q, (s.path q).state ≠ .free) : askSwap st pl r s = (.stalled .swapCall, s) := by
  unfold askSwap acceptSwap
  rw [ho]
  dsimp only
  rw [hold, h, lowestFree_eq_none hfull]
  rfl

theorem askSwap_taken {p : Slot} (hold : oldSlotRefusal s st o = none)
    (h : acceptanceRefusal s st (s.route r) (some o) = none) (hp : LowestFree s p) :
    askSwap st pl r s = (.applied, takeAccepted st pl (some o) (some p) (placeSwap s st (.sequencer st) o r p)) := by
  unfold askSwap acceptSwap
  rw [ho]
  dsimp only
  rw [hold, h, (lowestFree_eq_some s p).mpr hp]

end Calls

/-! ## The class of a refusal (R105, R106) -/

theorem onlyClosing_iff (s : State) (m : BitVec 16) :
    onlyClosing s (bytes2 m.toNat) = true ↔ ∀ q : Slot, m.getLsbD q.1 = true → (s.path q).state = .closing := by
  have hmap : BitVec.ofNat 16 (val2 (bytes2 m.toNat) 0) = m := by
    have hm := m.isLt
    have hval : val2 (bytes2 m.toNat) 0 = m.toNat := by
      simp only [bytes2, val2, val1_cons_succ, val1_cons_zero, toNat_byteOf]
      exact two_bytes _ hm
    rw [hval, BitVec.ofNat_toNat, BitVec.setWidth_eq]
  unfold onlyClosing
  dsimp only
  rw [hmap, List.all_eq_true]
  refine forall_congr' fun q => ?_
  rw [Bool.or_eq_true, decide_eq_true_iff, Bool.not_eq_true', ← Bool.not_eq_true, ← imp_iff_not_or]
  exact ⟨fun h => h (List.mem_finRange q), fun h _ => h⟩

theorem itemByte_ne (i : Item) : itemByte i ≠ 0xFF := by
  cases i with
  | bank b => revert b; decide
  | fixture n => revert n; decide

theorem classify_eState {s : State} {call : StalledCall} {x : Byte} :
    (0x40 ≤ x.toNat → classify s call ⟨.eState, [x]⟩ = .faulted .fixture) ∧
      (x.toNat < 0x40 → classify s call ⟨.eState, [x]⟩ = .faulted .conflict) :=
  ⟨fun h => if_pos h, fun h => if_neg (Nat.not_le.mpr h)⟩

/-- Settles O45: the conditions one by one; a plane by its field and current path; the calls by what `acceptMake` and
`acceptSwap` come to; the classes of the refusals. -/
theorem conditionRule : Obligations.ConditionRule := by
  refine ⟨fun s st pl => ⟨rfl, holds_live_iff s st pl, Option.isNone_iff_eq_none, Iff.rfl, not_eq_true_iff _,
    pathFaulty_iff s _, not_eq_true_iff _, decide_eq_true_iff⟩,
    fun s st pl field hfield => ⟨evalPlane_notHolding, fun hholds => ⟨fun hkeep => ?keep, fun hclear =>
      ⟨fun hnone => ?clearNone, fun o ho => ⟨fun hnot => ?clearNot, fun hstate howed => ?clears⟩⟩,
      fun r hroute => ⟨fun hdefined hplane => ?otherPlane, fun hown => ⟨fun o ho hsame hstate => ?same,
        fun o ho hother hstate howed => ?swaps, fun hmakes => ?makes⟩⟩⟩⟩,
    fun s st pl r => ⟨fun k x hfirst => ?makeFails, askMake_full, fun p hok hp => ?makeTaken, askSwap_none,
      fun o r0 ho => ⟨fun hold => ?oldSlot, fun hstate hown hroute => ⟨fun k x hfirst => ?swapFails,
        fun hplane hok => ⟨fun hfull => ?swapFull, fun p hp => ?swapTaken⟩⟩⟩⟩,
    fun s call => ⟨fun d => rfl, rfl, fun i => if_neg fun h => itemByte_ne i (List.head_eq_of_cons_eq h),
      fun n => classify_eState.1 ?fixture, fun b => rfl, rfl, fun m =>
      ⟨fun hall => if_pos ((onlyClosing_iff s m).mpr hall),
        fun ⟨q, hbit, hnot⟩ => if_neg fun hall => hnot ((onlyClosing_iff s m).mp hall q hbit)⟩⟩⟩
  case fixture =>
    revert n
    decide
  case makeFails =>
    exact askMake_refused (acceptanceRefusal_of_firstFailure _ _ _ _ _ _ k x (.inl ⟨rfl, rfl, rfl⟩) hfirst)
  case swapFails =>
    exact askSwap_refused ho (oldSlotRefusal_none hstate hown) (acceptanceRefusal_of_firstFailure _ _ _ _ _ _ k x
      (.inr ⟨o, s.route r0, rfl, slotRoute_of_route hroute, rfl, rfl⟩) hfirst)
  case swapFull => exact askSwap_full ho (oldSlotRefusal_none hstate hown) (swap_passes hroute hplane hok) hfull
  case makeTaken =>
    have hpath := (path_placeMake s st (.sequencer st) r p p).trans (if_pos rfl)
    have hqueue := queue_placeMake s st (.sequencer st) r p
    have hbank := bank_placeMake s st (.sequencer st) r p
    have hseqs : (placeMake s st (.sequencer st) r p).seqs = s.seqs := by simp [placeMake]
    have hcall := askMake_taken (pl := pl) hok hp
    generalize placeMake s st (.sequencer st) r p = y at hpath hqueue hbank hseqs hcall
    refine ⟨_, hcall, ?_⟩
    obtain ⟨hbanks, hpaths, hqueues⟩ := takeAccepted_keeps (st := st) (pl := pl) none (some p) y
    rw [path_of_paths _ _ hpaths, hpath, hqueues, run_takeAccepted_new none p hseqs]
    refine ⟨rfl, rfl, rfl, rfl, fun b hb => ?_, hqueue, rfl⟩
    rw [bank_of_banks _ _ hbanks, hbank, if_pos ((legsAny_iff _ b).mpr hb)]
    exact ⟨rfl, rfl⟩
  case swapTaken =>
    have hne : o ≠ p := fun heq => by
      have hfree := hp.1
      rw [← heq] at hfree
      rcases hstate with hlive | hlive <;> rw [hfree] at hlive <;> cases hlive
    have hpath := path_placeSwap s st (.sequencer st) o r p
    have hqueue := queue_placeSwap s st (.sequencer st) o r p
    have hseqs : (placeSwap s st (.sequencer st) o r p).seqs = s.seqs := by simp [placeSwap]
    have hcall := askSwap_taken ho (oldSlotRefusal_none hstate hown) (swap_passes hroute hplane hok) hp
    rw [slotLegs_of_route hroute] at hqueue
    generalize placeSwap s st (.sequencer st) o r p = y at hpath hqueue hseqs hcall
    refine ⟨_, hcall, ?_⟩
    obtain ⟨-, hpaths, hqueues⟩ := takeAccepted_keeps (st := st) (pl := pl) (some o) (some p) y
    rw [path_of_paths _ _ hpaths, path_of_paths _ _ hpaths, hpath, hpath, if_neg hne, if_pos rfl, if_pos rfl, hqueues,
      run_takeAccepted_new (some o) p hseqs]
    exact ⟨rfl, rfl, rfl, rfl, rfl, hqueue, rfl⟩
  case oldSlot =>
    rcases hold with hfree | ⟨hown, hstate⟩
    · exact (askSwap_oldSlot ho (if_pos hfree)).trans (congrArg (·, s) (classify_eState.2 (by decide)))
    · rcases hstate with hstate | hstate | hstate
      all_goals
        refine (askSwap_oldSlot ho (oldSlotRefusal_state hstate hown (by decide) (by decide) (by decide))).trans ?_
        exact congrArg (·, s) (classify_eState.2 (by decide))
  all_goals have hcopy : (s.run st).copy.field pl = field := by rw [hfield]; cases pl <;> rfl
  case keep => exact evalPlane_keep (hcopy.trans hkeep)
  case clearNone => exact (evalPlane_clear hholds (hcopy.trans hclear)).trans (evalClear_none hnone)
  case clearNot =>
    refine (evalPlane_clear hholds (hcopy.trans hclear)).trans ((evalClear_some ho).trans (if_neg fun hopen => ?_))
    rw [openForChange_iff] at hopen
    grind
  case clears =>
    have hopen : openForChange (s.path o) true = true := by
      rw [openForChange_iff]
      exact ⟨hstate.imp id (Or.imp id fun h => ⟨rfl, h⟩), howed⟩
    have hcall := (evalPlane_clear hholds (hcopy.trans hclear)).trans ((evalClear_some ho).trans (if_pos hopen))
    have hpath := path_acceptBreak o (.sequencer st) (priorOf (s.path o).state) s
    have hqueue := queue_acceptBreak o (.sequencer st) (priorOf (s.path o).state) s
    have hself := (hpath o).trans (if_pos rfl)
    have hclosing := congrArg PathRecord.state hself
    have hprior := congrArg PathRecord.prior hself
    have hlegs := congrArg PathRecord.priorLegs hself
    exact ⟨_, hcall, rfl, hclosing, hprior, hlegs, fun q hq => (hpath q).trans (if_neg hq), hqueue,
      run_takeAccepted_none _ rfl⟩
  all_goals have heval := evalPlane_route hholds (hcopy.trans hroute)
  case otherPlane => exact heval.trans (evalRoute_otherPlane hdefined hplane)
  all_goals obtain ⟨hnone, hsome⟩ := evalRoute_ownPlane (st := st) hown
  case same => exact heval.trans ((hsome o ho).trans (if_pos ⟨hsame, hstate⟩))
  case swaps =>
    have hopen : openForChange (s.path o) false = true := by
      rw [openForChange_iff]
      exact ⟨hstate.imp id .inl, howed⟩
    exact heval.trans ((hsome o ho).trans ((if_neg fun h => hother h.1).trans (if_pos hopen)))
  case makes =>
    rcases hmakes with hcurrent | ⟨o, ho, hstate⟩
    · exact heval.trans (hnone hcurrent)
    · have hnotSame : ¬ ((s.path o).route = some r ∧ (s.path o).state ≠ .closing) := by grind
      have hnotOpen : ¬ openForChange (s.path o) false = true := by
        rw [openForChange_iff]
        grind
      exact heval.trans ((hsome o ho).trans ((if_neg hnotSame).trans (if_neg hnotOpen)))

end Sys2Proof.Machine
end

section
/-! PROOF. READ_SEQUENCER, READ_FAULTS and READ_CLAIMS (R98, R115, R137). -/

namespace Sys2Proof.Machine

/-! ## READ_SEQUENCER (R98) -/

theorem readSequencerUnit_answers {f : Request} {s : State} {st : Station} (hst : NamesStation f st)
    (hps : f.params = []) : readSequencerUnit f.station f.params s = (⟨.ok, sequencerBytes (s.seq st)⟩, s) := by
  unfold readSequencerUnit
  rw [hps, withNoParams_good (stationOf_named f st hst)]
  rfl

theorem exec_readSequencer {f : Request} {s : State} {st : Station} (h : ForThisNode f s) (hst : NamesStation f st)
    (hps : f.params = []) :
    exec (.readSequencer f) s = .next (answered 0x31 f ⟨.ok, sequencerBytes (s.seq st)⟩ s) :=
  exec_answers rfl h (readSequencerUnit_answers hst hps)

/-! ## READ_FAULTS (R137) -/

theorem readFaultsUnit_bad (sf : Byte) {ps : List Byte} (s : State)
    (h : ps.length ≠ 1 ∨ (23 < val1 ps 0 ∧ val1 ps 0 ≠ 0xFF)) : readFaultsUnit sf ps s = (⟨.eArg, [0xFF]⟩, s) :=
  if_pos h

theorem readFaultsUnit_table (sf : Byte) (s : State) :
    readFaultsUnit sf [0xFF] s =
      (⟨.ok, [kindSetByte s.sup.summaries] ++ allBanks.map (fun b => kindSetByte (s.faultsOf b)) ++
        [visitStateByte s.sup]⟩, s) := by
  have hval : val1 [(0xFF : Byte)] 0 = 0xFF := rfl
  unfold readFaultsUnit
  rw [hval, if_neg (by decide), if_pos rfl]
  rfl

theorem readFaultsUnit_bank (sf : Byte) (b : BankId) (s : State) :
    readFaultsUnit sf [byteOf b.1] s =
      (⟨.ok, [byteOf b.1, kindSetByte (s.faultsOf b), byteOf (s.counter b .coil), byteOf (s.counter b .drift),
        byteOf (s.counter b .stray), byteOf (s.counter b .position), byteOf (s.counter b .hot)] ++
        sampleBytes (s.sup.samples.get b)⟩, s) := by
  have hb := b.isLt
  have hval : val1 [byteOf b.1] 0 = b.1 := by
    rw [val1_cons_zero, toNat_byteOf]
    omega
  have hbank : (Fin.ofNat 24 b.1 : BankId) = b := Fin.ext (Nat.mod_eq_of_lt hb)
  unfold readFaultsUnit
  rw [hval, if_neg (by simp only [List.length_cons, List.length_nil]; omega), if_neg (by omega), hbank]
  rfl

/-! ## READ_CLAIMS (R115) -/

theorem seatByte_debounced (s : State) (n : FixtureId) :
    (seatByte s).getLsbD n.1 = (s.chamber.seats.get n).debounced := by
  have hn := n.isLt
  have hseat : (Fin.ofNat 4 n.1 : FixtureId) = n := Fin.ext (Nat.mod_eq_of_lt hn)
  unfold seatByte
  rw [getLsbD_mapByte _ _ (by omega), if_pos hn, hseat]

theorem seatByte_timer (s : State) (n : FixtureId) :
    (seatByte s).getLsbD (4 + n.1) = (s.chamber.seats.get n).timer.isSome := by
  have hn := n.isLt
  have hseat : (Fin.ofNat 4 (4 + n.1 - 4) : FixtureId) = n := Fin.ext (by
    rw [Nat.add_sub_cancel_left]
    exact Nat.mod_eq_of_lt hn)
  unfold seatByte
  rw [getLsbD_mapByte _ _ (by omega), if_neg (by omega), hseat]

theorem itemsInUse_iff (s : State) (i : Item) :
    (itemKept s .s1 i || itemKept s .s2 i) = true ↔ ∃ st, s.claimOf i = some st ∧ InUseBy s st i := by
  rw [Bool.or_eq_true, itemKept_iff, itemKept_iff]
  refine ⟨fun h => h.elim (fun h => ⟨.s1, h⟩) fun h => ⟨.s2, h⟩, fun ⟨st, h⟩ => ?_⟩
  cases st with
  | s1 => exact .inl h
  | s2 => exact .inr h

/-- Settles O46: the three answers, byte by byte the ones of the model's records. -/
theorem readSequencerFaultsClaimsAnswer : Obligations.ReadSequencerFaultsClaimsAnswer := by
  intro f s h
  refine ⟨fun st hst hps => ?sequencer, fun hps => ?table, fun b hps => ?bank, fun hbad => ?bad, fun hps => ?claims,
    fun hps => exec_answers rfl h (withoutParams_of_ne_nil hps s _)⟩
  case sequencer =>
    refine (exec_readSequencer h hst hps).trans ?_
    unfold sequencerBytes boolVal State.run State.seqCfg
    cases (s.seq st).run.heldPhase with
    | none => rfl
    | some phase => cases phase <;> rfl
  case table =>
    refine exec_answers rfl h ?_
    rw [hps, readFaultsUnit_table]
    rfl
  case bank =>
    refine exec_answers rfl h ?_
    rw [hps, readFaultsUnit_bank]
    cases s.sup.samples.get b with
    | none => rfl
    | some x =>
      unfold sampleBytes
      cases x.reading <;> rfl
  case bad => exact exec_answers rfl h (readFaultsUnit_bad _ s (hbad.imp id fun ⟨hlow, hhigh⟩ => ⟨hlow, by omega⟩))
  case claims =>
    refine ⟨fun i => itemKept s .s1 i || itemKept s .s2 i, seatByte s, exec_answers rfl h ?_, itemsInUse_iff s,
      fun n => ⟨seatByte_debounced s n, seatByte_timer s n⟩⟩
    rw [hps]
    rfl

end Sys2Proof.Machine
end

section
/-! PROOF. What the results of a fault do (R33, R128, R130), and the safe entry (R97, R139, R140, R145, R146). -/

namespace Sys2Proof.Machine

/-! ## The Safe Controller and the events after a safe entry (R140) -/

section Entered

variable {m : BitVec 5} {s w : State}

/-- What the operations of the Path Set leave aside stands after a safe entry as it stood at its start. -/
theorem aside_safelyEntered {c : BitVec 5} (h : SafelyEntered c s w) : w.aside = (entering c s).aside := by
  obtain ⟨x, hx, hw⟩ := h
  have hstart : x.aside = (entering c s).aside := by rw [hx, aside_redraw, aside_cancelAll]
  rcases hw with rfl | rfl
  · rw [aside_failIdleHead, aside_failIdleHead, hstart]
  · rw [aside_failIdleHead, aside_failIdleHead, hstart]

theorem safe_safelyEntered {c : BitVec 5} (h : SafelyEntered c s w) :
    w.safe =
      { state := .grace, causes := c, grace := some (s.settings.muteGrace * 100)
        resetPending := s.safe.resetPending } :=
  (safe_of_aside (aside_safelyEntered h)).trans rfl

theorem flagSet_safelyEntered {c : BitVec 5} {e : Event} (h : SafelyEntered c s w)
    (he : (s.raise .safe).flagSet e = true) : w.flagSet e = true := by
  obtain ⟨x, hx, hw⟩ := h
  have hstart : x.flagSet e = true := by
    rw [hx]
    exact flagSet_cancelAll (entering c s) e _ he
  rcases hw with rfl | rfl
  · exact flagSet_failIdleHead _ _ _ (flagSet_failIdleHead _ _ _ hstart)
  · exact flagSet_failIdleHead _ _ _ (flagSet_failIdleHead _ _ _ hstart)

theorem flagSet_causeJoins {e : Event} (h : CauseJoins m s w) (he : s.flagSet e = true) : w.flagSet e = true := by
  by_cases hnormal : s.safe.state = .normal
  · exact flagSet_safelyEntered (h.1 hnormal) (flagSet_raise _ _ _ he)
  · rw [h.2 hnormal]
    exact he

end Entered

/-! ## A fault that becomes valid (R33, R130) -/

section Valid

variable {b : BankId} {k : FaultKind} {s w : State}

theorem fault_faultSet {v : State} (h : FaultSet b k s v) : v.flagSet .fault = true := by
  obtain ⟨-, -, -, -, hevents⟩ := h
  have hraised := flagSet_raise_self s .fault
  unfold State.flagSet
  rw [hevents]
  split
  · exact flagSet_raise (s.raise .fault) .fault .pathFailed hraised
  · exact hraised

theorem fault_becameValid (h : BecameValid b k s w) : w.flagSet .fault = true := by
  obtain ⟨v, hset, hjoins, hsame⟩ := h
  have hv := fault_faultSet hset
  cases hmask : kindIn k s.settings.safeMask with
  | true => exact flagSet_causeJoins (hjoins hmask) hv
  | false =>
    rw [hsame hmask]
    exact hv

theorem summary_becameValid (h : BecameValid b k s w) : kindIn k w.sup.summaries = true := by
  obtain ⟨v, ⟨-, hsup, -⟩, hjoins, hsame⟩ := h
  have hw : w.sup = v.sup := by
    cases hmask : kindIn k s.settings.safeMask with
    | true => exact sup_causeJoins (hjoins hmask)
    | false => rw [hsame hmask]
  rw [hw, hsup]
  cases k <;> simp [kindIn, FaultKind.mask, FaultKind.bit]

/-- R139, R140: a kind in the safe mask brings the safe entry. -/
theorem entry_becameValid (h : BecameValid b k s w) (hmask : kindIn k s.settings.safeMask = true)
    (hnormal : s.safe.state = .normal) : w.safe.state = .grace ∧ causeIn .fault w.safe.causes = true := by
  obtain ⟨v, ⟨hframe, -⟩, hjoins, -⟩ := h
  have hsafe : v.safe = s.safe := by rw [hframe]
  have hentered := safe_safelyEntered ((hjoins hmask).1 (by rw [hsafe]; exact hnormal))
  rw [hentered]
  refine ⟨rfl, ?_⟩
  simp [causeIn, SafeCause.bit]

/-- R33: what a fault outside the safe mask writes. -/
theorem outside_becameValid (h : BecameValid b k s w) (hmask : kindIn k s.settings.safeMask = false) :
    w.safe = s.safe ∧ w.banks = s.banks ∧ w.queue = s.queue ∧
      ∀ p, w.path p =
        if FailsHolder b k s p then
          { s.path p with
            state := .failed, failure := (s.path p).failure.or (some .bankFault), settleTimer := none }
        else s.path p := by
  obtain ⟨v, ⟨hframe, -, -, hpaths, -⟩, -, hsame⟩ := h
  rw [hsame hmask]
  refine ⟨?_, ?_, ?_, hpaths⟩ <;> rw [hframe]

end Valid

/-! ## A counted result (R128) -/

section Counted

variable {b : BankId} {k : FaultKind} {s : State}

theorem takePass_counts (h : s.faultValid b k = false) : takePass b k s = s.setCounter b k 0 :=
  if_neg (by rw [h]; exact Bool.false_ne_true)

/-- R128: the fault a miss meets is not valid yet: the counter goes up, and the fault may become valid. -/
theorem faultValid_takeMiss (h : s.faultValid b k = false) :
    (takeMiss b k s).faultValid b k = true ↔ MissMakesValid s b k := by
  refine ⟨fun hvalid => ?_, fun hmiss => faultValid_becameValid (becameValid_takeMiss b k s hmiss)⟩
  by_contra hnot
  rw [takeMiss_counts b k s hnot, if_neg (by rw [h]; exact Bool.false_ne_true)] at hvalid
  exact Bool.false_ne_true (h.symm.trans hvalid)

theorem counters_takeMiss (h : s.faultValid b k = false) :
    (takeMiss b k s).sup.counters = (s.setCounter b k (min 7 (s.counter b k + 1))).sup.counters := by
  by_cases hmiss : MissMakesValid s b k
  · exact counters_becameValid (becameValid_takeMiss b k s hmiss)
  · rw [takeMiss_counts b k s hmiss, if_neg (by rw [h]; exact Bool.false_ne_true)]

theorem counter_takeMiss (h : s.faultValid b k = false) (hk : k ≠ .worn) (c : BankId) (j : FaultKind) :
    (takeMiss b k s).counter c j = if c = b ∧ j = k then min 7 (s.counter b k + 1) else s.counter c j := by
  rw [← counter_setCounter s b c k j _ hk]
  exact congrArg (fun x : Vector MissCounters 24 => (x.get c).get j) (counters_takeMiss h)

end Counted

/-- Settles O49: a miss counts, and where it makes the fault valid, the lemmas on `BecameValid` say the rest. -/
theorem missCounting : Obligations.MissCounting := by
  intro s b k hk
  refine ⟨fun hvalid => ⟨if_pos hvalid, if_pos hvalid⟩, fun hnot => ⟨?pass, ?counter, fun x j hother => ?other,
    ?valid, fun hstill => ?counts, becameValid_takeMiss b k s, fun hvalid => ?became⟩⟩
  case pass =>
    rw [takePass_counts hnot]
    exact ⟨(counter_setCounter s b b k k 0 hk).trans (if_pos ⟨rfl, rfl⟩), rfl, rfl⟩
  case counter => rw [counter_takeMiss hnot hk, if_pos ⟨rfl, rfl⟩]
  case other =>
    rw [counter_takeMiss hnot hk]
    exact if_neg fun ⟨hx, hj⟩ => hother.elim (· hx) (· hj)
  case valid => exact (faultValid_takeMiss hnot).trans (and_iff_right hnot)
  case counts =>
    have hmiss : ¬ MissMakesValid s b k := fun h =>
      Bool.false_ne_true (hstill.symm.trans ((faultValid_takeMiss hnot).mpr h))
    rw [takeMiss_counts b k s hmiss, if_neg (by rw [hnot]; exact Bool.false_ne_true)]
  case became =>
    have hbecame := becameValid_takeMiss b k s ((faultValid_takeMiss hnot).mp hvalid)
    have hentry := entry_becameValid hbecame
    have houtside := outside_becameValid hbecame
    refine ⟨summary_becameValid hbecame, fault_becameValid hbecame, hentry, fun hmask => ?_⟩
    obtain ⟨hsafe, hbanks, hqueue, hpaths⟩ := houtside hmask
    refine ⟨hsafe, hbanks, hqueue, fun p hholder hlive => (hpaths p).trans ?_⟩
    by_cases hstray : k = .stray
    · rw [if_pos hstray]
      exact if_neg fun ⟨_, hnotStray, _⟩ => hnotStray hstray
    · rw [if_neg hstray]
      exact if_pos ⟨hholder, hstray, hk, hlive⟩

end Sys2Proof.Machine
end

section
/-! PROOF. Frames that are not executed: requests passed on, broadcasts, bad and lost frames (R150 to R153, R156,
R157, R161). -/

namespace Sys2Proof.Machine

/-! ## Requests passed on (R153, R156, R161) -/

section Requests

variable {code : Byte} {u : RequestUnit} {f : Request} {s : State}

theorem unitOf_unknown (h : code ∉ requestCodes) : unitOf code = unknownUnit := by
  have hcodes : requestTable.map Prod.fst = requestCodes := rfl
  have hnone : requestTable.lookup code = none := by
    rw [List.lookup_eq_none_iff]
    intro x hx
    have hmem : x.1 ∈ requestCodes := hcodes ▸ List.mem_map_of_mem hx
    exact bne_iff_ne.mpr fun heq : code = x.1 => h (heq ▸ hmem)
  rw [unitOf, hnone, Option.getD_none]

/-- A ready node delivers a request of the sizes of R149. -/
theorem perform_takeRequest (hs : Ready s) (hw : f.wellFormed = true) :
    perform (takeRequest code u f) s = .next (deliverRequest code u f s).driveOutputs := by
  rw [perform_awake _ _ hs.1, takeRequest_ready _ _ _ _ hs.2 hw]

theorem deliverRequest_unaddressed (ha : s.ring.address = none) :
    deliverRequest code u f s = finishFrame (requestFrame code f) s := by
  simp only [deliverRequest, ha]

theorem deliverRequest_addressed {a : BitVec 4} (ha : s.ring.address = some a) (h0 : f.hdr.dest ≠ 0) :
    deliverRequest code u f s =
      if f.hdr.dest = a then takeAddressed code u f s
      else finishFrame (requestFrame code { f with hdr := hopped f.hdr }) s := by
  simp only [deliverRequest, ha]
  exact if_neg h0

theorem deliverRequest_broadcast {a : BitVec 4} (ha : s.ring.address = some a) (h0 : f.hdr.dest = 0) :
    deliverRequest code u f s =
      if f.resp.length = 2 then takeBroadcast code u f a s
      else finishFrame (requestFrame code f) (countBad s) := by
  simp only [deliverRequest, ha, if_pos h0]
  exact ite_not ..

end Requests

/-- Settles O52, from the cases of the delivery of a request. -/
theorem requestsPassedOn : Obligations.RequestsPassedOn := by
  refine ⟨fun code f s h hcode => ?unknown, fun code f s hs hw => ⟨fun ha => ?unaddressed, fun a ha h0 =>
    ⟨fun hother => ?other, fun hdest hstatus => ?clash⟩⟩⟩
  case unknown =>
    have hexec : exec (.eUnknown code f) s = perform (takeRequest code (unitOf code) f) s := rfl
    rw [unitOf_unknown hcode] at hexec
    exact exec_answers hexec h rfl
  case unaddressed =>
    have hexec : exec (.requestOtherDestination code f) s = perform (takeRequest code (unitOf code) f) s := rfl
    rw [hexec, perform_takeRequest hs hw, deliverRequest_unaddressed ha]
  case other =>
    have hexec : exec (.requestOtherDestination code f) s = perform (takeRequest code (unitOf code) f) s := rfl
    rw [hexec, perform_takeRequest hs hw, deliverRequest_addressed ha h0, if_neg hother]
  case clash =>
    have hexec : exec (.addressClash code f) s = perform (takeRequest code (unitOf code) f) s := rfl
    have hclash : takeAddressed code (unitOf code) f s =
        finishFrame (requestFrame code { f with hdr := hopped f.hdr }) (s.raise .addressClash) := if_neg hstatus
    rw [hexec, perform_takeRequest hs hw, deliverRequest_addressed ha h0, if_pos hdest, hclash]

/-! ## Broadcasts (R150, R157) -/

/-- The rows named are requests of the table, each with its code and its execution. -/
def RequestRows (rows : List (Byte × (Request → Instr))) : Prop :=
  ∀ x ∈ rows, ∃ u : RequestUnit, ∀ f s, exec (x.2 f) s = perform (takeRequest x.1 u f) s

theorem requestRows_executed : RequestRows executedInBroadcast := by
  simp only [RequestRows, executedInBroadcast, List.forall_mem_cons, List.not_mem_nil, false_implies,
    implies_true, and_true]
  and_intros <;> exact ⟨_, fun _ _ => rfl⟩

theorem requestRows_kept : RequestRows keptFromBroadcast := by
  simp only [RequestRows, keptFromBroadcast, List.forall_mem_append, List.forall_mem_cons, List.not_mem_nil,
    false_implies, implies_true, and_true]
  and_intros <;> exact ⟨_, fun _ _ => rfl⟩

theorem requestRows_all : RequestRows (executedInBroadcast ++ keptFromBroadcast) :=
  List.forall_mem_append.mpr ⟨requestRows_executed, requestRows_kept⟩

theorem broadcastCodes_executed : ∀ x ∈ executedInBroadcast, broadcastCodes.contains x.1 = true :=
  List.forall_mem_map.mp (by decide : ∀ c ∈ executedInBroadcast.map Prod.fst, broadcastCodes.contains c = true)

theorem broadcastCodes_kept : ∀ x ∈ keptFromBroadcast, broadcastCodes.contains x.1 = false :=
  List.forall_mem_map.mp (by decide : ∀ c ∈ keptFromBroadcast.map Prod.fst, broadcastCodes.contains c = false)

/-- Settles O53: the unit of a row is given the same station, parameters and state in a broadcast. -/
theorem broadcastRequests : Obligations.BroadcastRequests := by
  intro f s a hs hw h0 ha hne
  refine ⟨fun hresp => ⟨fun x hx => ?executed, fun x hx => ?kept⟩, fun hresp x hx => ?bad⟩
  case executed =>
    obtain ⟨u, hu⟩ := requestRows_executed x hx
    have hthis : ForThisNode { f with hdr := { f.hdr with dest := a }, status := 0xFF } s := ⟨hs, hw, hne, ha, rfl⟩
    refine ⟨(u f.station f.params s).1, (u f.station f.params s).2, exec_answers (hu _ _) hthis rfl, ?_⟩
    rw [hu, perform_takeRequest hs hw, deliverRequest_broadcast ha h0, if_pos hresp, takeBroadcast,
      if_pos (broadcastCodes_executed x hx)]
    rfl
  case kept =>
    obtain ⟨u, hu⟩ := requestRows_kept x hx
    rw [hu, perform_takeRequest hs hw, deliverRequest_broadcast ha h0, if_pos hresp, takeBroadcast,
      if_neg (by rw [broadcastCodes_kept x hx]; exact Bool.false_ne_true)]
    rfl
  case bad =>
    obtain ⟨u, hu⟩ := requestRows_all x hx
    rw [hu, perform_takeRequest hs hw, deliverRequest_broadcast ha h0, if_neg hresp]

/-! ## Bad and lost frames (R150, R152) -/

section Bytes

variable {bytes : List Byte} {s : State}

theorem sizeGood_checkGood_iff (bytes : List Byte) :
    (sizeGood bytes && checkGood bytes) = true ↔
      6 ≤ bytes.length ∧ bytes.length ≤ 126 ∧ val1 bytes 3 ≤ 120 ∧ bytes.length = 6 + val1 bytes 3 ∧
        wordBytes (crc (bytes.take (bytes.length - 2))) = bytes.drop (bytes.length - 2) := by
  simp only [sizeGood, checkGood, Bool.and_eq_true, decide_eq_true_iff, and_assoc]
  exact Iff.rfl

/-- R150, test 3: a kind that is none of the five. -/
theorem deliverBytes_unknown (h : val1 bytes 0 / 16 = 0 ∨ 6 ≤ val1 bytes 0 / 16) :
    deliverBytes bytes s = finishFrame bytes s := by
  unfold deliverBytes
  split
  case h_6 => rfl
  all_goals omega

/-- R150, test 4: bits 7..4 of byte 1 are not zero. -/
theorem deliverBytes_upper (h1 : 1 ≤ val1 bytes 0 / 16) (h5 : val1 bytes 0 / 16 ≤ 5) (hupper : 16 ≤ val1 bytes 1) :
    deliverBytes bytes s = noteBad bytes s := by
  have hzero : upperZero bytes = false := decide_eq_false (by omega)
  have hkind : val1 bytes 0 / 16 = 1 ∨ val1 bytes 0 / 16 = 2 ∨ val1 bytes 0 / 16 = 3 ∨ val1 bytes 0 / 16 = 4 ∨
      val1 bytes 0 / 16 = 5 := by omega
  rcases hkind with h | h | h | h | h <;> simp [deliverBytes, h, hzero]

theorem receiveBytes_room (h : s.ring.forward.length < 4) :
    receiveBytes bytes s =
      if (sizeGood bytes && checkGood bytes) = true then deliverBytes bytes s else dropBad bytes s :=
  receive_ready _ _ h

theorem receiveBytes_full (h : 4 ≤ s.ring.forward.length) : receiveBytes bytes s = countBad s := if_pos h

end Bytes

/-- Settles O56, from the tests of R150 in their order. -/
theorem badAndLostFrames : Obligations.BadAndLostFrames := by
  intro bytes s hs
  have hbad : exec (.badFrame bytes) s = perform (receiveBytes bytes) s := rfl
  have hunknown : exec (.unknownFrame bytes) s = perform (receiveBytes bytes) s := rfl
  have hfull : exec (.forwardListFull bytes) s = perform (receiveBytes bytes) s := rfl
  have hsent : exec .forwardFrameSent s = perform sendFrame s := rfl
  rw [hbad, hunknown, hfull, hsent, perform_awake _ _ hs, perform_awake _ _ hs]
  refine ⟨fun hroom => ?_, fun hlost => by rw [receiveBytes_full hlost], rfl⟩
  rw [receiveBytes_room hroom]
  refine ⟨fun hnot => ?_, fun h6 h126 h120 hlen hcheck => ?_⟩
  · rw [if_neg (mt (sizeGood_checkGood_iff bytes).mp hnot)]
    rfl
  · rw [if_pos ((sizeGood_checkGood_iff bytes).mpr ⟨h6, h126, h120, hlen, hcheck⟩)]
    refine ⟨fun hkind => by rw [deliverBytes_unknown hkind], fun h1 h5 hupper => ?_⟩
    rw [deliverBytes_upper h1 h5 hupper]
    rfl

end Sys2Proof.Machine
end

section
/-! PROOF. SAFE_ENTER and SAFE_EXIT (R145, R146), with what a safe entry leaves of the queue and of the sequencers (R71,
R97, R140). -/

namespace Sys2Proof.Machine

/-! ## The heads that fail (R71) -/

section IdleHead

variable {pl : Plane} {s : State}

theorem failIdleHead_fails {e : Entry} (hhead : s.headOf pl = some e) (hactive : e.active = true)
    (hleg : (s.driver pl).leg = none) : failIdleHead pl s = failEntry e .safe none s := by
  simp [failIdleHead, hhead, hactive, hleg]

theorem failIdleHead_still (h : ∀ e, s.headOf pl = some e → e.active = false ∨ (s.driver pl).leg ≠ none) :
    failIdleHead pl s = s := by
  unfold failIdleHead
  cases hhead : s.headOf pl with
  | none => rfl
  | some e =>
    refine if_neg fun hboth => ?_
    obtain ⟨hactive, hleg⟩ := (Bool.and_eq_true _ _).mp hboth
    exact (h e hhead).elim (fun hwaits => Bool.false_ne_true (hwaits.symm.trans hactive))
      (· (decide_eq_true_iff.mp hleg))

/-- R71: the plane has an ACTIVE head and no leg in flight. -/
def IdleHead (pl : Plane) (s : State) (e : Entry) : Prop :=
  s.headOf pl = some e ∧ e.active = true ∧ (s.driver pl).leg = none

theorem failIdleHead_cases (pl : Plane) (s : State) :
    (∃ e, IdleHead pl s e ∧ failIdleHead pl s = failEntry e .safe none s) ∨ failIdleHead pl s = s := by
  by_cases h : ∃ e, IdleHead pl s e
  · obtain ⟨e, hidle⟩ := h
    exact .inl ⟨e, hidle, failIdleHead_fails hidle.1 hidle.2.1 hidle.2.2⟩
  · refine .inr (failIdleHead_still fun e hhead => ?_)
    by_contra hnot
    rw [not_or, Bool.not_eq_false, not_not] at hnot
    exact h ⟨e, hhead, hnot.1, hnot.2⟩

theorem plane_of_headOf {e : Entry} (h : s.headOf pl = some e) : e.plane = pl := by
  have hfound := List.find?_some (p := fun x : Entry => decide (x.plane = pl)) h
  exact of_decide_eq_true hfound

/-- R34: outside NORMAL the failure of an entry is followed by no BREAK. -/
theorem failEntry_outside (e : Entry) (why : EntryFailure) (b : Option BankId) (h : s.safe.state ≠ .normal) :
    failEntry e why b s = failedState e why b s := by
  cases hn : e.new with
  | none => exact failEntry_old why b s hn
  | some n =>
    rw [failEntry_new why b s hn]
    exact applyCloseOwed_still (.inr (by rw [safe_failedState]; exact h))

theorem queue_failEntry_outside (e : Entry) (why : EntryFailure) (b : Option BankId) (h : s.safe.state ≠ .normal) :
    (failEntry e why b s).queue = s.queue.erase e := by
  rw [failEntry_outside e why b h, queue_failedState]

theorem safe_failIdleHead (pl : Plane) (s : State) : (failIdleHead pl s).safe = s.safe :=
  safe_of_aside (aside_failIdleHead s pl)

theorem queue_failIdleHead (h : s.safe.state ≠ .normal) {e : Entry} (he : e ∈ (failIdleHead pl s).queue) :
    e ∈ s.queue := by
  rcases failIdleHead_cases pl s with ⟨x, -, hfails⟩ | hstill
  · rw [hfails, queue_failEntry_outside x _ _ h] at he
    exact List.mem_of_mem_erase he
  · rwa [hstill] at he

end IdleHead

/-! ## The head of a plane as other entries end -/

theorem find_erase {α : Type} [DecidableEq α] (f : α → Bool) (l : List α) {x : α} (h : f x = false) :
    (l.erase x).find? f = l.find? f := by
  induction l with
  | nil => rfl
  | cons y ys ih =>
    by_cases hyx : y = x
    · rw [hyx, List.erase_cons_head, List.find?_cons_of_neg (by rw [h]; exact Bool.false_ne_true)]
    · rw [List.erase_cons_tail (by rw [beq_iff_eq]; exact hyx)]
      cases hy : f y with
      | true => rw [List.find?_cons_of_pos hy, List.find?_cons_of_pos hy]
      | false =>
        have hneg : ¬ f y = true := by rw [hy]; exact Bool.false_ne_true
        rw [List.find?_cons_of_neg hneg, List.find?_cons_of_neg hneg, ih]

theorem find_filter {α : Type} (f g : α → Bool) {l : List α} {x : α} (h : l.find? f = some x) (hx : g x = true) :
    (l.filter g).find? f = some x := by
  induction l with
  | nil => cases h
  | cons y ys ih =>
    cases hy : f y with
    | true =>
      rw [List.find?_cons_of_pos hy, Option.some.injEq] at h
      rw [h, List.filter_cons_of_pos hx, List.find?_cons_of_pos (by rw [← h]; exact hy)]
    | false =>
      have hneg : ¬ f y = true := by rw [hy]; exact Bool.false_ne_true
      rw [List.find?_cons_of_neg hneg] at h
      cases hg : g y with
      | true => rw [List.filter_cons_of_pos hg, List.find?_cons_of_neg hneg, ih h]
      | false => rw [List.filter_cons_of_neg (by rw [hg]; exact Bool.false_ne_true), ih h]

theorem headOf_failIdleHead {p q : Plane} (hne : p ≠ q) {s : State} (h : s.safe.state ≠ .normal) :
    (failIdleHead p s).headOf q = s.headOf q := by
  rcases failIdleHead_cases p s with ⟨x, ⟨hhead, -⟩, hfails⟩ | hstill
  · have hqueue : (failIdleHead p s).queue = s.queue.erase x := by
      rw [hfails, queue_failEntry_outside x _ _ h]
    unfold State.headOf
    rw [hqueue]
    exact find_erase _ _ (decide_eq_false (by rw [plane_of_headOf hhead]; exact hne))
  · rw [hstill]

/-! ## The sequencers after a safe entry (R97) -/

/-- In `w` both sequencers are IDLE with empty pending lists, and have the fault records they had in `s`. -/
def HaltedLike (s w : State) : Prop :=
  ∀ st, (w.run st).state = .idle ∧ (w.run st).changes = [] ∧ (w.run st).fault = (s.run st).fault

section Halted

variable {s v w : State}

/-- The end of an entry is noticed by no sequencer that is IDLE. -/
theorem haltedLike_noticeTaken {e : Entry} (h : HaltedLike s v) (hnotice : NoticeTaken e v w) : HaltedLike s w := by
  intro st
  obtain ⟨hidle, hnone, hfault⟩ := h st
  have hrun := congrArg Sequencer.run (hnotice st)
  have hnot : ¬ EndsWaiting e st v := fun ⟨_, _, hsome, _⟩ => hsome hnone
  have hw : w.run st =
      { v.run st with
        current := (w.run st).current
        changes :=
          if e.origin = .sequencer st then (v.run st).changes.filter fun c => decide (¬ RecordOf e c)
          else (v.run st).changes
        state := if EndsWaiting e st v then .dwelling else (v.run st).state
        dwell := if EndsWaiting e st v then (v.run st).copyDwell else (v.run st).dwell } := hrun
  rw [hw]
  refine ⟨(if_neg hnot).trans hidle, ?_, hfault⟩
  dsimp only
  rw [hnone, List.filter_nil, ite_self]

theorem haltedLike_cancelAll (es : List Entry) (h : HaltedLike s v) : HaltedLike s (cancelAll es v) := by
  induction es generalizing v with
  | nil => exact h
  | cons e rest ih => exact ih (haltedLike_noticeTaken h (noticeTaken_cancelEntry e v))

theorem haltedLike_failIdleHead (pl : Plane) (h : HaltedLike s v) : HaltedLike s (failIdleHead pl v) := by
  rcases failIdleHead_cases pl v with ⟨e, -, hfails⟩ | hstill
  · rw [hfails]
    exact haltedLike_noticeTaken h (noticeTaken_failEntry e _ _ v)
  · rwa [hstill]

end Halted

/-! ## What a safe entry leaves (R71, R97, R140) -/

section Entered

variable {c : BitVec 5} {s w x : State}

/-- The WAITING entries have been cancelled. -/
def WaitingGone (c : BitVec 5) (s : State) : State :=
  (cancelAll (s.queue.filter fun e => !e.active) (entering c s)).redraw

theorem queue_waitingGone (c : BitVec 5) (s : State) : (WaitingGone c s).queue = s.queue.filter Entry.active := by
  have hqueue : (WaitingGone c s).queue = (s.queue.filter fun e => !e.active).foldl List.erase s.queue :=
    queue_cancelAll _ _
  rw [hqueue, foldl_erase_filter]
  exact congrArg (List.filter · s.queue) (funext fun e => Bool.not_not e.active)

theorem safe_waitingGone (c : BitVec 5) (s : State) : (WaitingGone c s).safe.state = .grace :=
  congrArg SafeController.state (safe_of_aside ((aside_cancelAll _ _).trans rfl) : _ = (entering c s).safe)

theorem run_entering (c : BitVec 5) (s : State) (st : Station) : (entering c s).run st = safeEntered (s.run st) := by
  cases st <;> rfl

theorem haltedLike_waitingGone (c : BitVec 5) (s : State) : HaltedLike (entering c s) (WaitingGone c s) :=
  haltedLike_cancelAll (s.queue.filter fun e => !e.active)
    fun st => by rw [run_entering]; exact ⟨rfl, rfl, rfl⟩

theorem idleHead_waitingGone {pl : Plane} {e : Entry} (c : BitVec 5) (h : IdleHead pl s e) :
    IdleHead pl (WaitingGone c s) e := by
  obtain ⟨hhead, hactive, hleg⟩ := h
  have hworn : (WaitingGone c s).worn = s.worn := (worn_cancelAll _ _).trans rfl
  refine ⟨?_, hactive, by rw [(driver_of_worn hworn pl).2]; exact hleg⟩
  unfold State.headOf
  rw [queue_waitingGone]
  exact find_filter _ _ hhead hactive

/-- The two planes' heads fail one after the other. -/
theorem safelyEntered_orders (h : SafelyEntered c s w) :
    ∃ p q : Plane, p ≠ q ∧ w = failIdleHead q (failIdleHead p (WaitingGone c s)) := by
  obtain ⟨x, rfl, hw | hw⟩ := h
  · exact ⟨.a, .b, by decide, hw⟩
  · exact ⟨.b, .a, by decide, hw⟩

theorem haltedLike_safelyEntered (h : SafelyEntered c s w) : HaltedLike (entering c s) w := by
  obtain ⟨p, q, -, rfl⟩ := safelyEntered_orders h
  exact haltedLike_failIdleHead q (haltedLike_failIdleHead p (haltedLike_waitingGone c s))

theorem queue_safelyEntered (h : SafelyEntered c s w) {e : Entry} (he : e ∈ w.queue) :
    e.active = true ∧ e ∈ s.queue := by
  obtain ⟨p, q, -, rfl⟩ := safelyEntered_orders h
  have hgrace : (WaitingGone c s).safe.state ≠ .normal := by rw [safe_waitingGone]; nofun
  have hfirst := queue_failIdleHead (by rw [safe_failIdleHead]; exact hgrace) he
  have hstart := queue_failIdleHead hgrace hfirst
  rw [queue_waitingGone, List.mem_filter] at hstart
  exact hstart.symm

/-- The record of a failure by the safe entry (R69, R71). -/
def SafeRecorded (s : State) : Prop :=
  s.flagSet .changeFailed = true ∧ ∃ x, s.events.lastFailure = some x ∧ x.reason = .safe ∧ x.bank = none

theorem safeRecorded_failEntry (e : Entry) (s : State) : SafeRecorded (failEntry e .safe none s) := by
  obtain ⟨hflag, -, -, hlast⟩ := failEntry_records e .safe none s
  exact ⟨hflag, _, hlast, rfl, rfl⟩

theorem safeRecorded_failIdleHead (pl : Plane) (h : SafeRecorded s) : SafeRecorded (failIdleHead pl s) := by
  rcases failIdleHead_cases pl s with ⟨e, -, hfails⟩ | hstill
  · rw [hfails]
    exact safeRecorded_failEntry e s
  · rwa [hstill]

theorem safeRecorded_safelyEntered (h : SafelyEntered c s w) {pl : Plane} {e : Entry} (hidle : IdleHead pl s e) :
    SafeRecorded w := by
  obtain ⟨p, q, hne, rfl⟩ := safelyEntered_orders h
  have hgrace : (WaitingGone c s).safe.state ≠ .normal := by rw [safe_waitingGone]; nofun
  obtain ⟨hhead, hactive, hleg⟩ := idleHead_waitingGone c hidle
  rcases plane_eq_or hne pl with rfl | rfl
  · refine safeRecorded_failIdleHead q ?_
    rw [failIdleHead_fails hhead hactive hleg]
    exact safeRecorded_failEntry e _
  · rw [failIdleHead_fails (e := e) ((headOf_failIdleHead hne hgrace).trans hhead) hactive
      (by rw [(driver_of_worn (worn_failIdleHead _ p) pl).2]; exact hleg)]
    exact safeRecorded_failEntry e _

end Entered

/-! ## SAFE_ENTER and SAFE_EXIT (R145, R146) -/

section Requests

variable {f : Request} {s : State}

theorem addCause_outside (c : SafeCause) (h : s.safe.state ≠ .normal) :
    addCause c s = s.setSafe { s.safe with causes := s.safe.causes ||| c.mask } :=
  (causeJoins_addCause c s).2 h

theorem exec_safeEnter (h : ForThisNode f s) (hps : f.params = []) :
    exec (.safeEnter f) s =
      .next (answered 0x60 f ⟨.ok, safeBytes (addCause .request s).safe⟩ (react (addCause .request s))) := by
  refine exec_answers rfl h ?_
  rw [hps, safeEnterUnit, withoutParams_nil]
  rfl

theorem exitRefused_iff (s : State) :
    exitRefused s = true ↔
      s.safe.state = .grace ∨ s.safe.state = .teardown ∨
        (s.safe.state = .safe ∧ (s.chamber.door.debounced = false ∨ s.sup.summaries &&& s.settings.safeMask ≠ 0)) := by
  unfold exitRefused blockingKinds
  cases s.safe.state <;> simp

theorem exec_safeExit_refused (h : ForThisNode f s) (hps : f.params = []) (hrefused : exitRefused s = true) :
    exec (.safeExit f) s =
      .next (answered 0x61 f
        ⟨.eState, [safeStateByte s.safe.state, byteOf s.safe.causes.toNat,
          byteOf (s.sup.summaries &&& s.settings.safeMask).toNat]⟩ s) := by
  refine exec_answers rfl h ?_
  rw [hps, safeExitUnit, withoutParams_nil, if_pos hrefused]
  rfl

theorem exec_safeExit_normal (h : ForThisNode f s) (hps : f.params = []) (hnormal : s.safe.state = .normal) :
    exec (.safeExit f) s = .next (answered 0x61 f ⟨.ok, [0x00, byteOf s.safe.causes.toNat]⟩ s) := by
  have hnot : ¬ exitRefused s = true := by
    rw [exitRefused_iff, hnormal]
    rintro (h | h | ⟨h, -⟩) <;> cases h
  refine exec_answers rfl h ?_
  rw [hps, safeExitUnit, withoutParams_nil, if_neg hnot, if_pos ((isNormal_iff s).mpr hnormal), safeBytes, hnormal]
  rfl

theorem exec_safeExit_safe (h : ForThisNode f s) (hps : f.params = []) (hsafe : s.safe.state = .safe)
    (hdoor : s.chamber.door.debounced = true) (hkinds : s.sup.summaries &&& s.settings.safeMask = 0) :
    exec (.safeExit f) s =
      .next (answered 0x61 f ⟨.ok, [0x00, 0x00]⟩
        (react (s.setSafe { s.safe with state := .normal, causes := 0 }))) := by
  have hnot : ¬ exitRefused s = true := by
    rw [exitRefused_iff, hsafe]
    rintro (h | h | ⟨-, h | h⟩)
    · cases h
    · cases h
    · exact Bool.false_ne_true (h.symm.trans hdoor)
    · exact h hkinds
  have houtside : ¬ s.isNormal = true := by rw [isNormal_iff, hsafe]; nofun
  refine exec_answers rfl h ?_
  rw [hps, safeExitUnit, withoutParams_nil, if_neg hnot, if_neg houtside]
  rfl

end Requests

/-- Settles O50: the safe entry by `SafelyEntered` and what it leaves. -/
theorem safeEnterAndExit : Obligations.SafeEnterAndExit := by
  refine ⟨fun s pl => ⟨fun e => failIdleHead_fails, failIdleHead_still⟩, fun f s h => ⟨fun hps => ?params, fun hps =>
    ⟨fun hnormal => ⟨exec_safeExit_normal h hps hnormal, ?enter⟩, fun houtside => ?joins,
      fun hrefused => exec_safeExit_refused h hps ((exitRefused_iff s).mpr hrefused), exec_safeExit_safe h hps⟩⟩⟩
  case params =>
    exact ⟨exec_answers rfl h (withoutParams_of_ne_nil hps s _), exec_answers rfl h (withoutParams_of_ne_nil hps s _)⟩
  case joins =>
    rw [exec_safeEnter h hps, addCause_outside _ houtside]
    rfl
  case enter =>
    have hentered := (causeJoins_addCause .request s).1 hnormal
    have hexec := exec_safeEnter h hps
    generalize addCause .request s = u at hentered hexec
    have hsafe := safe_safelyEntered hentered
    have hhalted := haltedLike_safelyEntered hentered
    have haside := aside_safelyEntered hentered
    rw [(react_cases u).1 (.inl (by rw [hsafe])), hsafe] at hexec
    refine ⟨u, hexec, hsafe, flagSet_safelyEntered hentered (flagSet_raise_self s .safe),
      fun st => ⟨(hhalted st).1, (hhalted st).2.1⟩, fun st => (hhalted st).2.2.trans ?_,
      fun e he => queue_safelyEntered hentered he, congrArg (fun x => x.2.1) haside, congrArg (fun x => x.1) haside,
      hentered, fun pl e hhead hactive hleg => safeRecorded_safelyEntered hentered ⟨hhead, hactive, hleg⟩⟩
    rw [run_entering]
    rfl

end Sys2Proof.Machine
end

section
/-! PROOF. NODE_RESET and FORGET (R147, R155), with what the forced work of TEARDOWN keeps (R72, R73). -/

namespace Sys2Proof.Machine

/-! ## What the forced work keeps -/

/-- The bank has a home to make: it is away from TERM and owes it. -/
abbrev HomeOutstanding (s : State) (b : BankId) : Prop :=
  (s.bank b).position ≠ some .term ∧ (s.bank b).homeOwed = true

/-- The forced work, from `s` to `w`, frees slots and moves no bank: it raises PATH_FREED at most, and a home to make
stays one. -/
structure ForcedKeeps (s w : State) : Prop where
  aside : w.aside = s.aside
  flags : w.events.flags &&& ~~~Event.pathFreed.mask = s.events.flags &&& ~~~Event.pathFreed.mask
  homes : ∀ b, HomeOutstanding s b → HomeOutstanding w b

theorem ForcedKeeps.refl (s : State) : ForcedKeeps s s := ⟨rfl, rfl, fun _ => id⟩

theorem ForcedKeeps.trans {s v w : State} (h : ForcedKeeps s v) (h' : ForcedKeeps v w) : ForcedKeeps s w :=
  ⟨h'.aside.trans h.aside, h'.flags.trans h.flags, fun b hb => h'.homes b (h.homes b hb)⟩

theorem ForcedKeeps.of_banks {s w : State} (haside : w.aside = s.aside) (hevents : w.events = s.events)
    (hbanks : w.banks = s.banks) : ForcedKeeps s w :=
  ⟨haside, by rw [hevents], fun b hb => by
    unfold HomeOutstanding
    rw [bank_of_banks _ _ hbanks b]
    exact hb⟩

theorem forcedKeeps_setBank {s : State} {b : BankId} {x : BankRecord}
    (h : HomeOutstanding s b → x.position ≠ some .term ∧ x.homeOwed = true) : ForcedKeeps s (s.setBank b x) := by
  refine ⟨rfl, rfl, fun c hc => ?_⟩
  unfold HomeOutstanding
  rw [bank_setBank]
  by_cases hcb : c = b
  · rw [if_pos hcb]
    exact h (hcb ▸ hc)
  · rw [if_neg hcb]
    exact hc

theorem forcedKeeps_freeSlot (p : Slot) (s : State) : ForcedKeeps s (freeSlot p s) := by
  refine ⟨aside_freeSlot s p, ?_, fun b hb => ?_⟩
  · have hflags : (freeSlot p s).events.flags = s.events.flags ||| Event.pathFreed.mask := by
      simp [freeSlot, State.raise]
    rw [hflags, BitVec.and_or_distrib_right, BitVec.and_not_self]
    exact BitVec.or_zero
  · unfold HomeOutstanding
    rw [bank_freeSlot]
    split <;> exact hb

theorem forcedKeeps_endForcedBreak (p : Slot) (b : BankId) (s : State) : ForcedKeeps s (endForcedBreak p b s) := by
  have hreleased : ForcedKeeps s (s.setHolder b none) := forcedKeeps_setBank id
  have hleft : ForcedKeeps s (bankLeft p b s) := by
    unfold bankLeft
    split
    · exact hreleased.trans (.of_banks rfl rfl rfl)
    · exact hreleased
  rw [endForcedBreak_eq]
  split
  · exact hleft.trans (forcedKeeps_freeSlot p _)
  · exact hleft

theorem forcedKeeps_startLeg {pl : Plane} {l : FlightLeg} {s : State} (h : l.source.isForced = true) :
    ForcedKeeps s (startLeg pl l s) := by
  have hpassed : passTaken l (deferralsCleared l s) = deferralsCleared l s := if_pos h
  rw [startLeg_eq, hpassed]
  exact (forcedKeeps_setBank id : ForcedKeeps s (deferralsCleared l s)).trans
    (.of_banks rfl rfl rfl)

theorem forcedKeeps_takeForcedBreak (pl : Plane) (p : Slot) (b : BankId) (s : State) :
    ForcedKeeps s (takeForcedBreak pl p b s).2 := by
  unfold takeForcedBreak
  split
  · exact forcedKeeps_endForcedBreak p b s
  · split
    · have hunknown : ForcedKeeps s (s.recordPosition b none) :=
        forcedKeeps_setBank fun h => ⟨Option.some_ne_none _ |>.symm, h.2⟩
      exact hunknown.trans (forcedKeeps_endForcedBreak p b _)
    · exact forcedKeeps_startLeg rfl

theorem forcedKeeps_closeForced (p : Slot) (s : State) : ForcedKeeps s (closeForced p s) := by
  unfold closeForced
  dsimp only
  split
  · exact .of_banks rfl rfl rfl
  · exact .refl s

theorem forcedKeeps_forcedOnce (pl : Plane) (s : State) : ForcedKeeps s (forcedOnce pl s).2 := by
  unfold forcedOnce
  split
  next p _ =>
    refine (forcedKeeps_closeForced p s).trans ?_
    dsimp only
    split
    · exact forcedKeeps_freeSlot p _
    · exact forcedKeeps_takeForcedBreak pl p _ _
  next =>
    split
    next b _ =>
      split
      next hterm => exact forcedKeeps_setBank fun h => absurd hterm h.1
      next => exact forcedKeeps_startLeg rfl
    next => exact .refl s

theorem forcedKeeps_forcedLoop (pl : Plane) (n : Nat) (s : State) : ForcedKeeps s (forcedLoop pl n s) := by
  induction n generalizing s with
  | zero => exact .refl s
  | succ n ih =>
    have hstep := forcedKeeps_forcedOnce pl s
    unfold forcedLoop
    split
    next s' hagain =>
      rw [hagain] at hstep
      exact hstep.trans (ih s')
    next s' hends =>
      rw [hends] at hstep
      exact hstep

theorem forcedKeeps_workForced (pl : Plane) (s : State) : ForcedKeeps s (workForced pl s) := by
  unfold workForced
  split
  · exact .refl s
  · have hmode : ForcedKeeps s (s.setDriver pl { s.driver pl with forced := true }) := .of_banks rfl rfl rfl
    dsimp only
    split
    · exact hmode
    · exact hmode.trans (forcedKeeps_forcedLoop pl _ _)

/-! ## Nothing for the drivers to choose -/

section Nothing

variable {s : State}

theorem headOf_eq_none (pl : Plane) (hqueue : s.queue = []) : s.headOf pl = none := by
  unfold State.headOf
  rw [hqueue]
  rfl

theorem not_homeDue (hhomes : ∀ b, (s.bank b).fitted = true → (s.bank b).homeOwed = false) (pl : Plane) (b : BankId) :
    ¬ HomeDue s pl b := fun ⟨hfitted, _, howed, _⟩ => Bool.false_ne_true ((hhomes b hfitted).symm.trans howed)

theorem choosePlane_nothing {pl : Plane} (hhead : s.headOf pl = none) (hhomes : ∀ b, ¬ HomeDue s pl b) :
    choosePlane pl s = s := by
  by_cases hmay : MayChoose s pl
  · rw [choosePlane_once s pl hmay, chooseOnce_nothing s pl hhead hhomes]
  · exact choosePlane_idle s pl hmay

/-- R57, step 4: with no entry and no home owed the drivers choose nothing. -/
theorem react_nothing (hnormal : s.safe.state = .normal) (hqueue : s.queue = [])
    (hhomes : ∀ b, (s.bank b).fitted = true → (s.bank b).homeOwed = false) : react s = s := by
  have hidle : ∀ pl, choosePlane pl s = s := fun pl =>
    choosePlane_nothing (headOf_eq_none pl hqueue) (not_homeDue hhomes pl)
  have hwork : hasWork s .a = false := by
    rw [hasWork, headOf_eq_none .a hqueue, (nextHome_eq_none s .a).mpr (not_homeDue hhomes .a)]
    rfl
  have hboth : chooseBoth s = choosePlane .b (choosePlane .a s) :=
    if_neg (by rw [hwork, Bool.and_false, Bool.false_and]; exact Bool.false_ne_true)
  unfold react
  rw [hnormal]
  dsimp only
  rw [hboth, hidle, hidle]

end Nothing

/-! ## NODE_RESET (R147) -/

section Reset

variable {f : Request} {s : State}

/-- R147: reset pending. -/
def resetAsked (s : State) : State := s.setSafe { s.safe with resetPending := true }

/-- R147: NODE_RESET outside NORMAL, before the clearing. -/
def resetJoined (s : State) : State :=
  s.setSafe { s.safe with causes := s.safe.causes ||| 16#5, resetPending := true }

theorem addCause_resetAsked (h : s.safe.state ≠ .normal) : addCause .reset (resetAsked s) = resetJoined s :=
  addCause_outside .reset h

theorem exec_nodeReset (h : ForThisNode f s) (hps : f.params = []) (hnot : s.safe.state ≠ .safe) :
    exec (.nodeReset f) s =
      .next (answered 0x62 f ⟨.ok, safeBytes (addCause .reset (resetAsked s)).safe⟩
        (react (addCause .reset (resetAsked s)))) := by
  refine exec_answers rfl h ?_
  rw [hps, nodeResetUnit, withoutParams_nil]
  dsimp only
  rw [if_neg hnot]
  rfl

theorem exec_nodeReset_safe (h : ForThisNode f s) (hps : f.params = []) (hsafe : s.safe.state = .safe) :
    exec (.nodeReset f) s =
      .next (answered 0x62 f ⟨.ok, safeBytes (clearing (resetJoined s)).safe⟩ (react (clearing (resetJoined s)))) := by
  have houtside : s.safe.state ≠ .normal := by rw [hsafe]; nofun
  refine exec_answers rfl h ?_
  rw [hps, nodeResetUnit, withoutParams_nil]
  dsimp only
  rw [if_pos hsafe, ← addCause_resetAsked houtside]
  rfl

theorem erase_reset (c : BitVec 5) : (c ||| 16#5) &&& ~~~16#5 = c &&& ~~~16#5 := by
  rw [BitVec.and_or_distrib_right, BitVec.and_not_self]
  exact BitVec.or_zero

theorem clearedWorking_resetJoined (s : State) (x : SafeState) :
    clearedWorking (resetJoined s) x = clearedWorking s x := by
  have hcauses := erase_reset s.safe.causes
  unfold clearedWorking resetJoined State.setSafe
  dsimp only
  rw [hcauses]

theorem clearing_resetJoined (hsafe : s.safe.state = .safe) (hnone : ∀ b, ¬ ResetOwes s b) :
    clearing (resetJoined s) =
      if s.safe.causes &&& ~~~16#5 = 0 then react (clearedWorking s .normal) else clearedWorking s .safe := by
  rw [clearing_done (resetJoined s) hsafe hnone, clearedWorking_resetJoined, clearedWorking_resetJoined]
  show (if (s.safe.causes ||| 16#5) &&& ~~~16#5 = 0 then _ else _) = _
  rw [erase_reset]

theorem eq_of_flags {x m : BitVec 22} (h : x &&& ~~~m = 0 &&& ~~~m) : x &&& ~~~m = 0 := by
  rw [h]
  exact BitVec.zero_and

/-- R147: what stands once the drivers have worked on after a clearing that makes a bank owe its home. -/
theorem clearing_outstanding {t u : State} (h : ClearedOwing (resetJoined s) t)
    (hu : u = workForced .b (workForced .a t)) :
    u.safe = { s.safe with state := .teardown, causes := s.safe.causes &&& ~~~16#5, resetPending := true } ∧
      u.claims = ClaimTable.empty ∧ u.events.flags &&& ~~~Event.pathFreed.mask = 0 ∧ u.sup.summaries = 0 ∧
      ∀ b, ResetOwes s b → u.faultsOf b = 0 ∧ (u.bank b).homeOwed = true := by
  obtain ⟨ht, hbanks⟩ := h
  have hkeeps : ForcedKeeps t u := by
    rw [hu]
    exact (forcedKeeps_workForced .a t).trans (forcedKeeps_workForced .b _)
  have haside := hkeeps.aside
  have hsup : u.sup = _ := (sup_of_aside haside).trans (congrArg State.sup ht)
  have hevents : t.events = EventUnit.reset := congrArg State.events ht
  refine ⟨?_, (congrArg (fun x => x.2.1) haside).trans (congrArg State.claims ht), ?_,
    congrArg Supervision.summaries hsup, fun b howes => ⟨?_, ?_⟩⟩
  · have hsafe : u.safe = _ := (safe_of_aside haside).trans (congrArg State.safe ht)
    rw [hsafe, ← erase_reset s.safe.causes]
    rfl
  · refine eq_of_flags ?_
    rw [hkeeps.flags, hevents]
    rfl
  · have hzero : (clearedWorking (resetJoined s) .teardown).faultsOf b = 0 := Vector.getElem_replicate _
    rw [← hzero]
    exact congrArg (fun x : Supervision => x.faults.get b) hsup
  · have hstart : HomeOutstanding t b := by
      unfold HomeOutstanding
      rw [hbanks, if_pos (show ResetOwes (resetJoined s) b from howes)]
      exact ⟨howes.2.2, rfl⟩
    exact (hkeeps.homes b hstart).2

end Reset

/-- Settles O51, by the state of the Safe Controller. -/
theorem nodeResetAndForget : Obligations.NodeResetAndForget := by
  intro f s h
  refine ⟨fun hps => ⟨exec_answers rfl h (withoutParams_of_ne_nil hps s _),
    exec_answers rfl h (withoutParams_of_ne_nil hps s _)⟩, fun hps => ⟨?forget, fun hnormal => ?enter,
      fun hstate => ?waits, fun hsafe hterm => ?done, fun hsafe howes => ?owing⟩⟩
  case forget =>
    refine exec_answers rfl h ?_
    rw [hps, forgetUnit, withoutParams_nil]
    rfl
  case enter =>
    have hentered := (causeJoins_addCause .reset (resetAsked s)).1 hnormal
    have hexec := exec_nodeReset h hps (by rw [hnormal]; nofun)
    generalize addCause .reset (resetAsked s) = u at hentered hexec
    have hsafe := safe_safelyEntered hentered
    rw [(react_cases u).1 (.inl (by rw [hsafe])), hsafe] at hexec
    exact ⟨u, hexec, hsafe, hentered⟩
  case waits =>
    have houtside : s.safe.state ≠ .normal := by rcases hstate with hstate | hstate <;> rw [hstate] <;> nofun
    have hnot : s.safe.state ≠ .safe := by rcases hstate with hstate | hstate <;> rw [hstate] <;> nofun
    rw [exec_nodeReset h hps hnot, addCause_resetAsked houtside]
    rfl
  case done =>
    have hnone : ∀ b, ¬ ResetOwes s b := fun b ⟨hfitted, hcoil, haway⟩ => haway (hterm b hfitted hcoil)
    have hexec := exec_nodeReset_safe h hps hsafe
    rw [clearing_resetJoined hsafe hnone] at hexec
    refine ⟨fun hcauses => ?_, fun hcauses hqueue hhomes => ?_⟩
    · rw [if_neg hcauses, (react_cases (clearedWorking s .safe)).1 (.inr rfl)] at hexec
      exact hexec
    · rw [if_pos hcauses, react_nothing (s := clearedWorking s .normal) rfl hqueue hhomes,
        react_nothing (s := clearedWorking s .normal) rfl hqueue hhomes] at hexec
      refine hexec.trans ?_
      have hbytes : safeBytes (clearedWorking s .normal).safe = [0x00, byteOf (s.safe.causes &&& ~~~16#5).toNat] := rfl
      rw [hbytes, hcauses]
      rfl
  case owing =>
    obtain ⟨t, ht, hclears⟩ := clearing_owing (resetJoined s) howes
    have hexec := exec_nodeReset_safe h hps hsafe
    obtain ⟨hsafe', hclaims, hflags, hsummaries, hbanks⟩ := clearing_outstanding ht rfl
    rw [hclears, hsafe'] at hexec
    exact ⟨t, _, ht, rfl, hexec, hsafe', hclaims, hflags, hsummaries, fun b hfitted hcoil haway =>
      hbanks b ⟨hfitted, hcoil, haway⟩⟩

end Sys2Proof.Machine
end

section
/-! PROOF. CADENCE (R39, R85 to R89, R99, R108, R158, R159, R170). -/

namespace Sys2Proof.Machine

/-! ## One sequencer's turn (R85, R87 to R89) -/

section Turn

variable {d : Nat} {st : Station} {s : State} {n : StepId} {test : NextTest} {r : SeqRun}

theorem takeCadenceA_still (h : (s.run st).state = .waiting ∨ (s.run st).state = .held ∨ (s.run st).state = .idle ∨
    (s.run st).state = .done ∨ (s.run st).state = .faulted) : takeCadenceA d st s = (.over, s) := by
  unfold takeCadenceA
  dsimp only
  rcases h with h | h | h | h | h <;> rw [h]

theorem takeCadenceA_dwelling (h : (s.run st).state = .dwelling) :
    takeCadenceA d st s =
      if (s.run st).dwell - d = 0 then endStepA st (s.setRun st { s.run st with dwell := (s.run st).dwell - d })
      else (.over, s.setRun st { s.run st with dwell := (s.run st).dwell - d }) := by
  unfold takeCadenceA
  dsimp only
  rw [h]

theorem takeCadenceA_stalled (h : (s.run st).state = .stalled) : takeCadenceA d st s = retryA st s := by
  unfold takeCadenceA
  dsimp only
  rw [h]

theorem endStepA_of_over (h : (endStepA st s).1 = .over) : endStepA st s = (.over, endStep st s) := by
  have hpair : endStepA st s = (.over, (endStepA st s).2) := Prod.ext h rfl
  have hend : endStep st s = (endStepA st s).2 := by
    rw [endStep, hpair]
    rfl
  rw [hend]
  exact hpair

theorem endStepA_over_of_stop (h : nextIndex (s.seqCfg st) (s.run st) = (n, test, r))
    (hstop : (s.seqCfg st).stop = some n) : (endStepA st s).1 = .over := by
  unfold endStepA
  rw [h]
  dsimp only
  rw [if_pos hstop]

theorem endStepA_over_of_hold (h : nextIndex (s.seqCfg st) (s.run st) = (n, test, r))
    (hstop : (s.seqCfg st).stop ≠ some n) (hhold : r.copy.hold = true) : (endStepA st s).1 = .over := by
  unfold endStepA
  rw [h]
  dsimp only
  rw [if_neg hstop, if_pos hhold]

theorem step_leaving (st : Station) (test : NextTest) (r : SeqRun) (s : State) (n : StepId) :
    (leaving st test r s).step n = s.step n := by
  unfold State.step
  rw [(leaving_keeps st test r s).2]

theorem endStepA_over_of_jump (h : nextIndex (s.seqCfg st) (s.run st) = (n, test, r))
    (hstop : (s.seqCfg st).stop ≠ some n) (hgo : r.copy.hold = false) {t : StepId} (hjump : (s.step n).kind = .jump t) :
    (endStepA st s).1 = .over := by
  rw [endStepA_arrives st s n test r h hstop hgo,
    arriveA_jump st n _ _ t (by rw [step_leaving]; exact hjump)]

end Turn

/-! ## The bits of the frame (R39, R159, R170) -/

section Bits

variable {w : Nat}

theorem ne_zero_iff_getLsbD (x : BitVec w) : x ≠ 0 ↔ ∃ i, i < w ∧ x.getLsbD i = true := by
  refine ⟨fun hne => ?_, fun ⟨i, _, hi⟩ heq => ?_⟩
  · by_contra hnone
    refine hne (BitVec.eq_of_getLsbD_eq fun i hi => ?_)
    have hclear : x.getLsbD i = false := by
      by_contra hset
      exact hnone ⟨i, hi, (Bool.not_eq_false _).mp hset⟩
    rw [hclear]
    exact BitVec.getLsbD_zero.symm
  · rw [heq] at hi
    exact Bool.false_ne_true (BitVec.getLsbD_zero.symm.trans hi)

/-- The events that a CADENCE frame itself raises (R170), one by one. -/
def frameEventList : List Event :=
  [.cadenceSlip, .seq1Mark, .seq2Mark, .seq1Stopped, .seq2Stopped, .seq1Fault, .seq2Fault, .seq1Stall, .seq2Stall,
    .seq1Wrap, .seq2Wrap]

theorem getLsbD_frameEvents {i : Nat} (h : i < 22) :
    frameEvents.getLsbD i = true ↔ ∃ ev ∈ frameEventList, ev.bit = i := by
  revert i
  decide

theorem settled_iff (v : State) :
    v.settled = true ↔ v.queue = [] ∧ (∀ p, (v.path p).state = .free ∨ (v.path p).state = .live) ∧
      v.safe.state = .normal := by
  simp only [State.settled, Bool.and_eq_true, Bool.or_eq_true, List.isEmpty_iff, List.all_eq_true, List.mem_finRange,
    true_implies, decide_eq_true_iff, isNormal_iff, and_assoc]
  exact Iff.rfl

theorem frameAttention_iff (v : State) :
    v.frameAttention = true ↔
      ∃ ev ∈ frameEventList, v.flagSet ev = true ∧ v.settings.attentionMask.getLsbD ev.bit = true := by
  unfold State.frameAttention
  rw [decide_eq_true_iff, ne_zero_iff_getLsbD]
  refine ⟨fun ⟨i, hi, hset⟩ => ?_, fun ⟨ev, hev, hflag, hmask⟩ => ⟨ev.bit, by cases ev <;> decide, ?_⟩⟩
  · rw [BitVec.getLsbD_and, BitVec.getLsbD_and, Bool.and_eq_true, Bool.and_eq_true] at hset
    obtain ⟨⟨hflag, hframe⟩, hmask⟩ := hset
    obtain ⟨ev, hev, rfl⟩ := (getLsbD_frameEvents hi).mp hframe
    exact ⟨ev, hev, hflag, hmask⟩
  · rw [BitVec.getLsbD_and, BitVec.getLsbD_and, Bool.and_eq_true, Bool.and_eq_true]
    exact ⟨⟨hflag, (getLsbD_frameEvents (by cases ev <;> decide)).mpr ⟨ev, hev, rfl⟩⟩, hmask⟩

theorem attention_of_frameAttention {v : State} (h : v.frameAttention = true) : v.attention = true := by
  obtain ⟨ev, -, hflag, hmask⟩ := (frameAttention_iff v).mp h
  refine decide_eq_true ((ne_zero_iff_getLsbD _).mpr ⟨ev.bit, by cases ev <;> decide, ?_⟩)
  rw [BitVec.getLsbD_and]
  exact (Bool.and_eq_true _ _).mpr ⟨hflag, hmask⟩

theorem attention_or_frameAttention (v : State) : (v.attention || v.frameAttention) = v.attention := by
  cases h : v.frameAttention with
  | false => exact Bool.or_false _
  | true => rw [attention_of_frameAttention h]; rfl

end Bits

/-! ## The points of a frame (R85, R99, R158) -/

section Points

variable {d : Nat} {x : Arb} {s : State}

/-- The points that a frame passes, the sequencer `p` being first (R85, R99). -/
def PointsOf (d : Nat) (p q : Station) (s : State) (points : List State) : Prop :=
  let pA := takeCadenceA d p s
  let pB := finishTurn p pA
  let qA := takeCadenceA d q (react pB)
  let qA' := takeCadenceA d q pA.2
  points = [s, pA.2, pB, react pB, qA.2, finishTurn q qA, react (finishTurn q qA)] ∨
    points =
      [s, pA.2, qA'.2, finishTurn q qA', finishTurn p (pA.1, finishTurn q qA'),
       react (finishTurn p (pA.1, finishTurn q qA'))] ∨
    points =
      [s, pA.2, qA'.2, finishTurn p (pA.1, qA'.2), finishTurn q (qA'.1, finishTurn p (pA.1, qA'.2)),
       react (finishTurn q (qA'.1, finishTurn p (pA.1, qA'.2)))]

theorem pointsOf_ne_nil {p q : Station} {points : List State} (h : PointsOf d p q s points) : points ≠ [] := by
  rcases h with rfl | rfl | rfl <;> exact List.cons_ne_nil _ _

theorem cadencePoints_pointsOf (d : Nat) (x : Arb) (s : State) :
    ∃ p q : Station, p ≠ q ∧ PointsOf d p q s (cadencePoints d x s) := by
  refine ⟨if x.seq2First then .s2 else .s1, if x.seq2First then .s1 else .s2, ?_, ?_⟩
  · split <;> decide
  · unfold cadencePoints
    cases x.weave with
    | apart => exact .inl rfl
    | within => exact .inr (.inl rfl)
    | crossed => exact .inr (.inr rfl)

theorem getLast_eq_getLastD {α : Type} {l : List α} (h : l ≠ []) (a : α) : l.getLast? = some (l.getLastD a) := by
  rw [List.getLastD_eq_getLast?, List.getLast?_eq_some_getLast h, Option.getD_some]

theorem getD_mod_mem {α : Type} {l : List α} (h : l ≠ []) (i : Nat) (a : α) : l.getD (i % l.length) a ∈ l := by
  have hlt := Nat.mod_lt i (List.length_pos_of_ne_nil h)
  rw [List.getD_eq_getElem _ _ hlt]
  exact List.getElem_mem hlt

/-- With neither sequencer acting and nothing chosen, every point is the first. -/
theorem points_still {p q : Station} {points : List State} (h : PointsOf d p q s points)
    (hstill : ∀ st, takeCadenceA d st s = (.over, s)) (hreact : react s = s) : ∀ v ∈ points, v = s := by
  have hover : ∀ st, finishTurn st (.over, s) = s := fun _ => rfl
  unfold PointsOf at h
  simp only [hstill, hover, hreact] at h
  intro v hv
  rcases h with rfl | rfl | rfl <;> simpa using hv

end Points

/-! ## CADENCE (R153, R158, R159) -/

section Frame

variable {f : CadenceFrame} {s : State}

theorem exec_cadence (hs : Ready s) : exec (.cadence f) s = .next (deliverCadence f s).driveOutputs :=
  perform_receive_ready (deliverCadence f) hs

theorem deliverCadence_unaddressed (ha : s.ring.address = none) :
    deliverCadence f s = finishFrame (cadenceBytes f) s := by
  simp only [deliverCadence, ha]

/-- R158: the frame has been recorded. -/
def cadenceRecorded (f : CadenceFrame) (slip : Bool) (s : State) : State := recordCadence f slip s.redraw

theorem cadenceRecorded_eq (f : CadenceFrame) (slip : Bool) (s : State) :
    cadenceRecorded f slip s =
      if slip = true then
        ({ s.redraw with
            ring := { s.ring with lastCadence := some f.number, gates := f.gates.setWidth 4 } } : State).raise
          .cadenceSlip
      else { s.redraw with ring := { s.ring with lastCadence := some f.number, gates := f.gates.setWidth 4 } } := by
  cases slip <;> rfl

/-- The frame is forwarded with the bits of one of its points, at the state of the last (R158, R159). -/
theorem deliverCadence_addressed {a : BitVec 4} {d : Nat} {slip : Bool} (ha : s.ring.address = some a)
    (hstep : cadenceStep s.ring.lastCadence f.number = (d, slip)) :
    ∃ (p q : Station) (points : List State) (u t : State), p ≠ q ∧ u ∈ points ∧ points.getLast? = some t ∧
      deliverCadence f s =
        finishFrame
          (cadenceBytes
            { f with
              hdr := hopped f.hdr, settle := writeBit f.settle a.toNat u.settled
              attention := writeBit f.attention a.toNat (u.attention || t.frameAttention) })
          t ∧
      PointsOf d p q (cadenceRecorded f slip s) points := by
  obtain ⟨p, q, hne, hpoints⟩ := cadencePoints_pointsOf d s.arb (cadenceRecorded f slip s)
  have hsome := pointsOf_ne_nil hpoints
  refine ⟨p, q, _, _, _, hne, getD_mod_mem hsome s.arb.bits (cadenceRecorded f slip s),
    getLast_eq_getLastD hsome (cadenceRecorded f slip s), ?_, hpoints⟩
  simp only [deliverCadence, ha, hstep]
  rfl

/-- R57, R71, R72: there is nothing for the drivers to choose. -/
def NothingChosen (s : State) : Prop :=
  s.safe.state = .grace ∨ s.safe.state = .safe ∨
    (s.safe.state = .normal ∧ canChoose s .a = false ∧ canChoose s .b = false)

theorem react_nothingChosen (h : NothingChosen s) : react s = s := by
  rcases h with h | h | ⟨h, ha, hb⟩
  · exact (react_cases s).1 (.inl h)
  · exact (react_cases s).1 (.inr h)
  · have hidle : ∀ pl, canChoose s pl = false → choosePlane pl s = s := fun pl hpl =>
      choosePlane_idle s pl fun hmay => Bool.false_ne_true (hpl.symm.trans ((canChoose_iff s pl).mpr hmay))
    have hboth : chooseBoth s = choosePlane .b (choosePlane .a s) :=
      if_neg (by rw [ha]; exact Bool.false_ne_true)
    unfold react
    rw [h]
    dsimp only
    rw [hboth, hidle .a ha, hidle .b hb]

theorem nothingChosen_cadenceRecorded {slip : Bool} (h : NothingChosen s) :
    NothingChosen (cadenceRecorded f slip s) := by
  cases slip <;> exact h

theorem run_cadenceRecorded (f : CadenceFrame) (slip : Bool) (s : State) (st : Station) :
    (cadenceRecorded f slip s).run st = s.run st := by
  cases slip <;> rfl

theorem deliverCadence_still {a : BitVec 4} {d : Nat} {slip : Bool} (ha : s.ring.address = some a)
    (hstep : cadenceStep s.ring.lastCadence f.number = (d, slip))
    (hruns : ∀ st, (s.run st).state ≠ .dwelling ∧ (s.run st).state ≠ .stalled) (hnothing : NothingChosen s) :
    deliverCadence f s =
      finishFrame
        (cadenceBytes
          { f with
            hdr := hopped f.hdr, settle := writeBit f.settle a.toNat (cadenceRecorded f slip s).settled
            attention := writeBit f.attention a.toNat (cadenceRecorded f slip s).attention })
        (cadenceRecorded f slip s) := by
  obtain ⟨p, q, points, u, t, -, hu, ht, hdeliver, hpoints⟩ := deliverCadence_addressed ha hstep
  have hturns : ∀ st, takeCadenceA d st (cadenceRecorded f slip s) = (.over, cadenceRecorded f slip s) := fun st => by
    refine takeCadenceA_still ?_
    obtain ⟨hdwell, hstall⟩ := hruns st
    rw [run_cadenceRecorded]
    cases hstate : (s.run st).state <;> simp_all
  have hsame := points_still hpoints hturns (react_nothingChosen (nothingChosen_cadenceRecorded hnothing))
  rw [hdeliver, hsame u hu, hsame t (List.mem_of_getLast? ht), attention_or_frameAttention]

end Frame

/-- Settles O54: the turns by the laws of the sequencers, the frame by the points it passes. -/
theorem cadenceTaken : Obligations.CadenceTaken := by
  refine ⟨fun number => rfl, fun last number => rfl, ⟨fun d st s => ?turns, fun v => ⟨settled_iff v,
    decide_eq_true_iff, frameAttention_iff v⟩, fun f s hs => ?frame⟩⟩
  case turns =>
    refine ⟨takeCadenceA_still, fun hdwell hleft => ?_, fun hdwell hends => ?_, fun hstall => ?_, rfl,
      fun n test r t h hstop hgo hkind => ?_, fun n test r h hends => endStepA_of_over ?_, rfl,
      secondEvaluated_finishTurn st s, secondRetried_finishTurn st s⟩
    · rw [takeCadenceA_dwelling hdwell, if_neg (by omega)]
    · rw [takeCadenceA_dwelling hdwell, if_pos (by omega), Nat.sub_eq_zero_of_le hends]
    · rw [takeCadenceA_stalled hstall]
      exact retryA_spec st s
    · have hstep : ((leaving st test r s).step n).kind = .apply t := by rw [step_leaving]; exact hkind
      obtain ⟨w, fault, hevaluated, hends⟩ := arriveA_apply st n (decide (test = .loopback)) _ t hstep
      refine ⟨_, w, fault, arrivesAt_arriveAt st n _ (leaving st test r s), hevaluated, ?_⟩
      rw [endStepA_arrives st s n test r h hstop (by rw [copy_of_nextIndex h]; exact hgo), hends]
    · by_cases hstop : (s.seqCfg st).stop = some n
      · exact endStepA_over_of_stop h hstop
      · rw [← copy_of_nextIndex h] at hends
        cases hhold : r.copy.hold with
        | true => exact endStepA_over_of_hold h hstop hhold
        | false =>
          obtain ⟨t, hjump⟩ := (hends.resolve_left hstop).resolve_left (by rw [hhold]; exact Bool.false_ne_true)
          exact endStepA_over_of_jump h hstop hhold hjump
  case frame =>
    rw [exec_cadence hs]
    refine ⟨fun ha => by rw [deliverCadence_unaddressed ha], fun a d slip s0 ha hstep hs0 => ?_⟩
    rw [← cadenceRecorded_eq] at hs0
    subst hs0
    refine ⟨?_, fun hruns hnothing => by rw [deliverCadence_still ha hstep hruns hnothing]⟩
    obtain ⟨p, q, points, u, t, hne, hu, ht, hdeliver, hpoints⟩ := deliverCadence_addressed ha hstep
    exact ⟨p, q, points, u, t, hne, hu, ht, by rw [hdeliver], hpoints⟩

end Sys2Proof.Machine
end

section
/-! PROOF. The ends of the grace and the keepalive timers, TEARDOWN and its end (R71 to R73, R139 to R142, R147,
R160). -/

namespace Sys2Proof.Machine

/-! ## A cause that joins in NORMAL (R139, R140, R144) -/

/-- R140, R144: the node has entered the safe state with the causes `c`, and shows it. -/
theorem normal_causeJoins {m : BitVec 5} {s u : State} (h : CauseJoins m s u) (hnormal : s.safe.state = .normal) :
    u.driveOutputs.safe =
        { state := .grace, causes := s.safe.causes ||| m, grace := some (s.settings.muteGrace * 100)
          resetPending := s.safe.resetPending } ∧
      u.driveOutputs.flagSet .safe = true ∧ u.driveOutputs.chamber.mute1 = true ∧
      u.driveOutputs.chamber.mute2 = true ∧ u.driveOutputs.chamber.alert = true := by
  have hentered := h.1 hnormal
  have hsafe := safe_safelyEntered hentered
  have houtside : u.driveOutputs.safe.state ≠ .normal := by
    show u.safe.state ≠ .normal
    rw [hsafe]
    nofun
  have hflag : u.flagSet .safe = true := flagSet_safelyEntered hentered (flagSet_raise_self s .safe)
  obtain ⟨hmute1, hmute2, halert⟩ := outputs_driveOutputs u
  exact ⟨hsafe, hflag, hmute1.mpr houtside, hmute2.mpr houtside,
    halert.mpr (.inr houtside)⟩

/-! ## One driver's forced work (R72, R73) -/

section Work

variable {s t : State} {pl : Plane} {p : Slot} {b : BankId}

/-- R71: the driver is in forced mode. -/
def forcedMode (pl : Plane) (s : State) : State := s.setDriver pl { s.driver pl with forced := true }

theorem workForced_flying (h : (s.driver pl).leg ≠ none) : workForced pl s = s :=
  if_pos (Option.isSome_iff_ne_none.mpr h)

theorem workForced_pausing (hleg : (s.driver pl).leg = none) (hpause : (s.driver pl).pause ≠ none) :
    workForced pl s = forcedMode pl s := by
  have hpause' : ((forcedMode pl s).driver pl).pause.isSome = true := by
    rw [forcedMode, driver_setDriver, if_pos rfl]
    exact Option.isSome_iff_ne_none.mpr hpause
  have hnot : ¬ (s.driver pl).leg.isSome = true := by rw [hleg]; exact Bool.false_ne_true
  unfold workForced
  rw [if_neg hnot]
  exact if_pos hpause'

theorem workForced_goes_on (hleg : (s.driver pl).leg = none) (hpause : (s.driver pl).pause = none)
    (h : forcedOnce pl (forcedMode pl s) = (true, t)) : workForced pl s = forcedLoop pl 64 t := by
  have honce := workForced_once s pl hleg hpause
  unfold forcedMode at h
  rw [h] at honce
  exact honce

theorem workForced_ends (hleg : (s.driver pl).leg = none) (hpause : (s.driver pl).pause = none)
    (h : forcedOnce pl (forcedMode pl s) = (false, t)) : workForced pl s = t := by
  have honce := workForced_once s pl hleg hpause
  unfold forcedMode at h
  rw [h] at honce
  exact honce

/-! ### A path of the plane -/

/-- The slot is the first of the plane's that holds a path. -/
def NextForced (s : State) (pl : Plane) (p : Slot) : Prop := UsedOn s pl p ∧ ∀ q, q < p → ¬ UsedOn s pl q

theorem heldBanks_closeForced (p : Slot) (s : State) : (closeForced p s).heldBanks p = s.heldBanks p := by
  have hroute : ((closeForced p s).path p).route = (s.path p).route := by
    unfold closeForced
    dsimp only
    split
    · rw [path_setPath, if_pos rfl]
    · rfl
  have hsame : (closeForced p s).routes = s.routes ∧ (closeForced p s).banks = s.banks := by
    unfold closeForced
    dsimp only
    split <;> exact ⟨rfl, rfl⟩
  have hbank : ∀ b, (closeForced p s).bank b = s.bank b := bank_of_banks _ _ hsame.2
  unfold State.heldBanks
  rw [slotLegs_of_path hroute hsame.1]
  simp only [hbank]

theorem forcedOnce_frees (h : NextForced s pl p) (hbanks : s.heldBanks p = []) :
    forcedOnce pl s = (true, freeSlot p (closeForced p s)) := by
  unfold forcedOnce
  rw [(forcedPath_eq_some s pl p).mpr h]
  dsimp only
  rw [heldBanks_closeForced, hbanks]

theorem forcedOnce_breaks {more : List BankId} (h : NextForced s pl p) (hbanks : s.heldBanks p = b :: more) :
    forcedOnce pl s = takeForcedBreak pl p b (closeForced p s) := by
  unfold forcedOnce
  rw [(forcedPath_eq_some s pl p).mpr h]
  dsimp only
  rw [heldBanks_closeForced, hbanks]

theorem bank_closeForced (p : Slot) (s : State) (b : BankId) : (closeForced p s).bank b = s.bank b := by
  unfold closeForced
  dsimp only
  split <;> rfl

theorem faultValid_closeForced (p : Slot) (s : State) (b : BankId) (k : FaultKind) :
    (closeForced p s).faultValid b k = s.faultValid b k := by
  unfold closeForced
  dsimp only
  split <;> rfl

theorem takeForcedBreak_atTerm (h : (s.bank b).position = some .term) :
    takeForcedBreak pl p b s = (true, endForcedBreak p b s) := if_pos h

theorem takeForcedBreak_skips (h : (s.bank b).position ≠ some .term) (hcoil : s.faultValid b .coil = true) :
    takeForcedBreak pl p b s = (true, endForcedBreak p b (s.setBank b { s.bank b with position := none })) := by
  rw [takeForcedBreak, if_neg h, if_pos ((breakSkipped_iff s b).mpr ⟨hcoil, h⟩)]
  rfl

theorem takeForcedBreak_drives (h : (s.bank b).position ≠ some .term) (hcoil : s.faultValid b .coil = false) :
    takeForcedBreak pl p b s = (false, startLeg pl { bank := b, target := .term, source := .forcedBreak p } s) := by
  have hnot : ¬ s.breakSkipped b = true := fun hskip =>
    Bool.false_ne_true (hcoil.symm.trans ((breakSkipped_iff s b).mp hskip).1)
  rw [takeForcedBreak, if_neg h, if_neg hnot]

/-! ### A bank that leaves its path -/

theorem heldBanks_bankLeft (p : Slot) (b : BankId) (s : State) :
    (bankLeft p b s).heldBanks p = (s.heldBanks p).filter fun x => decide (x ≠ b) := by
  have hroute : ((bankLeft p b s).path p).route = (s.path p).route := by
    unfold bankLeft
    split
    · rw [addLegDone, path_setPath, if_pos rfl]
      rfl
    · rfl
  have hroutes : (bankLeft p b s).routes = s.routes := by
    unfold bankLeft
    split <;> rfl
  have hholder : ∀ x, decide (((bankLeft p b s).bank x).holder = some p) =
      (decide (x ≠ b) && decide ((s.bank x).holder = some p)) := fun x => by
    rw [bank_of_banks _ _ (bankLeft_keeps p b s).1, State.setHolder, bank_setBank]
    by_cases hx : x = b <;> simp [hx]
  unfold State.heldBanks
  rw [slotLegs_of_path hroute hroutes, List.filter_filter]
  simp only [hholder]

theorem endForcedBreak_last (h : s.heldBanks p = [b]) : endForcedBreak p b s = freeSlot p (bankLeft p b s) := by
  rw [endForcedBreak_eq, heldBanks_bankLeft, h]
  simp

theorem currentsDrop_endForcedBreak (h : s.heldBanks p = [b]) : CurrentsDrop p s (endForcedBreak p b s) := by
  intro st pl
  have hseqs : (bankLeft p b s).seqs = s.seqs := by
    unfold bankLeft
    split <;> rfl
  rw [endForcedBreak_last h, current_freeSlot, current_of_seqs hseqs]

/-! ### A home of the plane -/

theorem forcedOnce_home (hpaths : ∀ p, ¬ UsedOn s pl p) (hdue : ForcedHomeDue s pl b)
    (hfirst : ∀ x, x < b → ¬ ForcedHomeDue s pl x) :
    forcedOnce pl s =
      if (s.bank b).position = some .term then (true, s.setHomeOwed b false)
      else (false, startLeg pl { bank := b, target := .term, source := .forcedHome } s) := by
  unfold forcedOnce
  rw [(forcedPath_eq_none s pl).mpr hpaths, (forcedHome_eq_some s pl b).mpr ⟨hdue, hfirst⟩]

theorem forcedOnce_nothing (hpaths : ∀ p, ¬ UsedOn s pl p) (hhomes : ∀ b, ¬ ForcedHomeDue s pl b) :
    forcedOnce pl s = (false, s) := by
  unfold forcedOnce
  rw [(forcedPath_eq_none s pl).mpr hpaths, (forcedHome_eq_none s pl).mpr hhomes]

theorem workForced_nothing (hleg : (s.driver pl).leg = none) (hpause : (s.driver pl).pause = none)
    (hpaths : ∀ p, ¬ UsedOn s pl p) (hhomes : ∀ b, ¬ ForcedHomeDue s pl b) : workForced pl s = forcedMode pl s :=
  workForced_ends hleg hpause (forcedOnce_nothing (s := forcedMode pl s) hpaths hhomes)

end Work

/-! ## TEARDOWN passes to SAFE (R142, R147) -/

section Teardown

variable {s : State}

theorem allDone_iff (s : State) : (planeDone s .a && planeDone s .b) = true ↔ ∀ pl, PlaneDone s pl := by
  rw [Bool.and_eq_true, planeDone_iff, planeDone_iff]
  exact ⟨fun ⟨ha, hb⟩ pl => by cases pl; exacts [ha, hb], fun h => ⟨h .a, h .b⟩⟩

/-- R72, R142: the state is SAFE and the drivers have left forced mode. -/
def safeReached (w : State) : State :=
  { w with
    safe := { w.safe with state := .safe }
    drivers :=
      ⟨{ w.drivers.a with forced := false, passed := 0, waiting := none },
       { w.drivers.b with forced := false, passed := 0, waiting := none }⟩ }

theorem settleTeardown_works (h : ¬ ∀ pl, PlaneDone (workForced .b (workForced .a s)) pl) :
    settleTeardown s = workForced .b (workForced .a s) := if_neg (mt (allDone_iff _).mp h)

theorem settleTeardown_done {v : State} (h : ∀ pl, PlaneDone (workForced .b (workForced .a s)) pl)
    (hv : v = safeReached (workForced .b (workForced .a s))) :
    settleTeardown s =
      if causeIn .reset v.safe.causes = true then clearing v
      else if v.safe.resetPending = true then finishReset v
      else v := by
  rw [hv]
  exact if_pos ((allDone_iff _).mpr h)

end Teardown

/-! ## The ends of the two timers (R141, R160) -/

section Timers

variable {s : State} {n : Nat}

theorem exec_graceEnd (hs : s.inReset = false) (hgrace : s.safe.grace = some n) (hstate : s.safe.state = .grace) :
    exec .graceEnd s =
      .next (settleTeardown
        ((s.elapse n).setSafe { s.safe with state := .teardown, grace := none })).driveOutputs := by
  have hexec : exec .graceEnd s = perform graceTimerEnd s := rfl
  have hend : graceTimerEnd s =
      settleTeardown ((s.elapse n).setSafe { s.safe with state := .teardown, grace := none }) := by
    unfold graceTimerEnd
    rw [hgrace]
    dsimp only
    rw [if_pos hstate]
    rfl
  rw [hexec, perform_awake _ _ hs, hend]

theorem exec_keepaliveExpiry (hs : s.inReset = false) (hkeepalive : s.ring.keepalive = some n) :
    exec .keepaliveExpiry s =
      .next (addCause .keepalive
        ((s.elapse n).setRing { (s.elapse n).ring with keepalive := none })).driveOutputs := by
  have hexec : exec .keepaliveExpiry s = perform keepaliveEnd s := rfl
  have hend : keepaliveEnd s =
      addCause .keepalive ((s.elapse n).setRing { (s.elapse n).ring with keepalive := none }) := by
    unfold keepaliveEnd
    rw [hkeepalive]
  rw [hexec, perform_awake _ _ hs, hend]

/-- R72: both drivers are in forced mode and have nothing to do. -/
def bothForced (s : State) : State := forcedMode .b (forcedMode .a s)

theorem workForced_both (hpaths : ∀ p, (s.path p).state = .free)
    (hhomes : ∀ b, (s.bank b).fitted = true → (s.bank b).homeOwed = false)
    (hidle : ∀ pl, (s.driver pl).leg = none ∧ (s.driver pl).pause = none) :
    workForced .b (workForced .a s) = bothForced s := by
  have hfree : ∀ pl p, ¬ UsedOn s pl p := fun pl p h => h.1 (hpaths p)
  have hhome : ∀ pl b, ¬ ForcedHomeDue s pl b := fun pl b ⟨hfitted, _, howed, _⟩ =>
    Bool.false_ne_true ((hhomes b hfitted).symm.trans howed)
  rw [workForced_nothing (hidle .a).1 (hidle .a).2 (hfree .a) (hhome .a)]
  exact workForced_nothing (s := forcedMode .a s) (hidle .b).1 (hidle .b).2 (hfree .b) (hhome .b)

theorem planeDone_bothForced (hpaths : ∀ p, (s.path p).state = .free)
    (hhomes : ∀ b, (s.bank b).fitted = true → (s.bank b).homeOwed = false)
    (hidle : ∀ pl, (s.driver pl).leg = none ∧ (s.driver pl).pause = none) (pl : Plane) :
    PlaneDone (bothForced s) pl := by
  have hdriver : ((bothForced s).driver pl).forced = true ∧ ((bothForced s).driver pl).leg = (s.driver pl).leg ∧
      ((bothForced s).driver pl).pause = (s.driver pl).pause := by cases pl <;> exact ⟨rfl, rfl, rfl⟩
  obtain ⟨hforced, hleg, hpause⟩ := hdriver
  exact ⟨hforced, hleg.trans (hidle pl).1, hpause.trans (hidle pl).2, fun p h => h.1 (hpaths p),
    fun b ⟨hfitted, _, howed, _⟩ => Bool.false_ne_true ((hhomes b hfitted).symm.trans howed)⟩

/-- R142: with nothing to tear down, SAFE is reached at once. -/
theorem settleTeardown_nothing (hpaths : ∀ p, (s.path p).state = .free)
    (hhomes : ∀ b, (s.bank b).fitted = true → (s.bank b).homeOwed = false)
    (hidle : ∀ pl, (s.driver pl).leg = none ∧ (s.driver pl).pause = none)
    (hreset : causeIn .reset s.safe.causes = false) (hpending : s.safe.resetPending = false) :
    settleTeardown s = safeReached (bothForced s) := by
  have hboth := workForced_both hpaths hhomes hidle
  rw [settleTeardown_done (v := safeReached (bothForced s))
    (by rw [hboth]; exact planeDone_bothForced hpaths hhomes hidle) (by rw [hboth]),
    if_neg (by show ¬ causeIn .reset s.safe.causes = true; rw [hreset]; exact Bool.false_ne_true),
    if_neg (by show ¬ s.safe.resetPending = true; rw [hpending]; exact Bool.false_ne_true)]

end Timers

/-- Settles O57: the timers by what ends them, TEARDOWN by `settleTeardown_done`, and the forced work by its first
piece. -/
theorem graceAndKeepaliveEnd : Obligations.GraceAndKeepaliveEnd := by
  refine ⟨fun s hs => ⟨fun n hgrace hstate => ⟨exec_graceEnd hs hgrace hstate, ?nothing⟩,
      fun n hkeepalive => ?keepalive⟩,
    fun s => ⟨(react_cases s).2.2, settleTeardown_works, fun w v hw hdone hv => ?teardown⟩,
    fun s pl => ⟨workForced_flying, fun hleg s1 hs1 => ⟨fun hpause => ?pausing, fun hpause =>
      ⟨fun p s2 hused hfirst hs2 => ?path, fun hfree => ?home⟩⟩⟩⟩
  case nothing =>
    intro hpaths hhomes hidle hreset hpending
    have hend := settleTeardown_nothing (s := (s.elapse n).setSafe { s.safe with state := .teardown, grace := none })
      (fun p => (congrArg PathRecord.state (path_elapse n s p)).trans (hpaths p)) hhomes ?_ hreset hpending
    · rw [exec_graceEnd hs hgrace hstate, hend]
      exact ⟨_, rfl, rfl, fun pl => by cases pl <;> rfl, rfl, rfl, rfl, rfl, rfl⟩
    · intro pl
      have hdriver : ((s.elapse n).setSafe { s.safe with state := .teardown, grace := none }).driver pl =
          (s.driver pl).elapse n := driver_elapse n s pl
      obtain ⟨hleg, hpause⟩ := hidle pl
      rw [hdriver]
      unfold Driver.elapse
      dsimp only
      rw [hpause]
      exact ⟨hleg, rfl⟩
  case keepalive =>
    have hexec := exec_keepaliveExpiry hs hkeepalive
    generalize hstart : (s.elapse n).setRing { (s.elapse n).ring with keepalive := none } = v at hexec
    have hjoins := causeJoins_addCause .keepalive v
    have hring : (addCause .keepalive v).ring.keepalive = none := by rw [ring_addCause, ← hstart]; rfl
    generalize addCause .keepalive v = u at hexec hjoins hring
    refine ⟨⟨u, hexec, hjoins⟩, fun hnormal => ?_, fun houtside => ?_⟩
    · obtain ⟨hsafe, hshown⟩ := normal_causeJoins hjoins (by rw [← hstart]; exact hnormal)
      refine ⟨_, hexec, hring, hsafe.trans ?_, hshown⟩
      rw [← hstart]
      rfl
    · have hu := hjoins.2 (by rw [← hstart]; exact houtside)
      refine ⟨_, hexec, hring, ?_⟩
      rw [hu, ← hstart]
      exact ⟨rfl, rfl, rfl, rfl, rfl⟩
  case teardown =>
    have hend := settleTeardown_done (s := s) (v := v) (by rw [← hw]; exact hdone) (by rw [hv, ← hw]; rfl)
    have hsafe : v.safe.state = .safe := by rw [hv]
    refine ⟨fun hreset => ?_, fun hreset => ?_⟩
    · rw [if_neg (by rw [hreset]; exact Bool.false_ne_true)] at hend
      refine ⟨fun hpending => ?_, fun hpending hcauses => ?_, fun hpending hcauses => ?_⟩
      · rw [hend, if_neg (by rw [hpending]; exact Bool.false_ne_true)]
      · rw [hend, if_pos hpending, finishReset_eq, if_neg hcauses]
      · rw [hend, if_pos hpending, finishReset_eq, if_pos hcauses]
    · rw [if_pos hreset] at hend
      refine ⟨fun hnone => ⟨fun hcauses => ?_, fun hcauses => ?_⟩, fun howes => ?_⟩
      · rw [hend, clearing_done v hsafe hnone, if_neg hcauses]
      · rw [hend, clearing_done v hsafe hnone, if_pos hcauses]
      · obtain ⟨t, ht, hclears⟩ := clearing_owing v howes
        exact ⟨t, ht, hend.trans hclears⟩
  case pausing =>
    rw [hs1]
    exact workForced_pausing hleg hpause
  case path =>
    have hnext : NextForced (forcedMode pl s) pl p := ⟨hused, hfirst⟩
    have hclosed : s2 = closeForced p (forcedMode pl s) := by
      rw [hs2, hs1]
      rfl
    have hheld : s2.heldBanks p = s.heldBanks p := by rw [hclosed]; exact heldBanks_closeForced p (forcedMode pl s)
    refine ⟨fun hbanks => ?_, fun b more hbanks => ?_⟩
    · rw [hclosed]
      exact workForced_goes_on hleg hpause (forcedOnce_frees hnext hbanks)
    · have hbreaks := forcedOnce_breaks hnext hbanks
      rw [← hclosed] at hbreaks
      have hbank : s2.bank b = s.bank b := by rw [hclosed]; exact bank_closeForced p (forcedMode pl s) b
      have hfault : s2.faultValid b .coil = s.faultValid b .coil := by
        rw [hclosed]
        exact faultValid_closeForced p (forcedMode pl s) b .coil
      refine ⟨fun hterm => ?_, fun haway hcoil => ?_, fun haway hcoil => ?_, holder_endForcedBreak p b s2,
        fun hlast => ?_⟩
      · exact workForced_goes_on hleg hpause (hbreaks.trans (takeForcedBreak_atTerm (by rw [hbank]; exact hterm)))
      · rw [← hbank]
        exact workForced_goes_on hleg hpause
          (hbreaks.trans (takeForcedBreak_skips (by rw [hbank]; exact haway) (hfault.trans hcoil)))
      · exact workForced_ends hleg hpause
          (hbreaks.trans (takeForcedBreak_drives (by rw [hbank]; exact haway) (hfault.trans hcoil)))
      · have hone : s2.heldBanks p = [b] := by rw [hheld, hbanks, hlast]
        rw [endForcedBreak_last hone, path_freeSlot, if_pos rfl, ← endForcedBreak_last hone]
        exact ⟨rfl, by rw [endForcedBreak_last hone]; exact flagSet_raise_self _ _, currentsDrop_endForcedBreak hone⟩
  case home =>
    rw [hs1]
    refine ⟨workForced_nothing hleg hpause hfree, fun b hdue hfirst => ?_⟩
    have hhome := forcedOnce_home (s := forcedMode pl s) hfree hdue hfirst
    refine ⟨fun hterm => ?_, fun haway => ?_⟩
    · exact workForced_goes_on hleg hpause (hhome.trans (if_pos hterm))
    · exact workForced_ends hleg hpause (hhome.trans (if_neg haway))

end Sys2Proof.Machine
end

section
/-! PROOF. The visits of the Supervision Unit (R123 to R126, R128, R130). -/

namespace Sys2Proof.Machine

/-! ## What one result leaves (R128, R130) -/

/-- Of the Supervision Unit, the visit cycles and the samples. -/
def Supervision.timing (x : Supervision) :
    CycleState × BankId × Nat × Bool × Option Visit × Vector (Option Sample) 24 :=
  (x.cycle, x.position, x.elapsed, x.running, x.visit, x.samples)

/-- From `s`, the results of the kind `k` alone have been taken in `w`. -/
structure ResultKeeps (k : FaultKind) (s w : State) : Prop where
  worn : w.worn = s.worn
  timing : w.sup.timing = s.sup.timing
  counters : ∀ b j, j ≠ k → w.counter b j = s.counter b j
  faults : ∀ b j, j ≠ k → w.faultValid b j = s.faultValid b j

section Results

variable {b : BankId} {k : FaultKind} {s v w : State}

theorem ResultKeeps.refl (k : FaultKind) (s : State) : ResultKeeps k s s :=
  ⟨rfl, rfl, fun _ _ _ => rfl, fun _ _ _ => rfl⟩

theorem ResultKeeps.trans (h : ResultKeeps k s v) (g : ResultKeeps k v w) : ResultKeeps k s w :=
  ⟨g.worn.trans h.worn, g.timing.trans h.timing, fun b j hj => (g.counters b j hj).trans (h.counters b j hj),
    fun b j hj => (g.faults b j hj).trans (h.faults b j hj)⟩

theorem resultKeeps_setCounter (s : State) (b : BankId) (n : Nat) (hk : k ≠ .worn) :
    ResultKeeps k s (s.setCounter b k n) := by
  refine ⟨rfl, rfl, fun c j hj => ?_, fun _ _ _ => rfl⟩
  rw [counter_setCounter s b c k j n hk]
  exact if_neg fun ⟨_, heq⟩ => hj heq

theorem kindIn_or_mask {j k : FaultKind} (h : j ≠ k) (x : KindSet) : kindIn j (x ||| k.mask) = kindIn j x := by
  have hclear : k.mask.getLsbD j.bit = false := by
    revert h
    cases j <;> cases k <;> decide
  rw [kindIn, BitVec.getLsbD_or, hclear, Bool.or_false]
  rfl

theorem sup_becameValid (h : BecameValid b k s w) :
    w.sup = { s.sup with summaries := w.sup.summaries, faults := w.sup.faults } ∧
      ∀ x, w.faultsOf x = if x = b then s.faultsOf b ||| k.mask else s.faultsOf x := by
  obtain ⟨v, ⟨-, hsup, hfaults, -⟩, hjoins, hsame⟩ := h
  have hw : w.sup = v.sup := by
    cases hmask : kindIn k s.settings.safeMask with
    | true => exact sup_causeJoins (hjoins hmask)
    | false => rw [hsame hmask]
  refine ⟨by rw [hw, hsup], fun x => ?_⟩
  rw [← hfaults x]
  exact congrArg (fun y : Supervision => y.faults.get x) hw

theorem resultKeeps_becameValid (h : BecameValid b k s w) : ResultKeeps k s w := by
  obtain ⟨hsup, hfaults⟩ := sup_becameValid h
  refine ⟨worn_becameValid h, by rw [hsup]; rfl, fun c j _ => ?_, fun c j hj => ?_⟩
  · exact congrArg (fun y : Vector MissCounters 24 => (y.get c).get j) (counters_becameValid h)
  · unfold State.faultValid
    rw [hfaults]
    split
    next hc => rw [kindIn_or_mask hj, hc]
    next => rfl

theorem resultKeeps_resultTaken {miss : Prop} (h : ResultTaken b k miss s w) (hk : k ≠ .worn) : ResultKeeps k s w := by
  obtain ⟨hvalid, hnot⟩ := h
  cases hfault : s.faultValid b k with
  | true =>
    rw [hvalid hfault]
    exact .refl k s
  | false =>
    obtain ⟨hpass, hbecomes, hcounts⟩ := hnot hfault
    by_cases hmiss : miss
    · have hcounted := resultKeeps_setCounter s b (min 7 (s.counter b k + 1)) hk
      by_cases hmakes : MissMakesValid s b k
      · exact hcounted.trans (resultKeeps_becameValid (hbecomes hmiss hmakes))
      · rw [hcounts hmiss hmakes]
        exact hcounted
    · rw [hpass hmiss]
      exact resultKeeps_setCounter s b 0 hk

theorem counter_resultTaken_pass {miss : Prop} (h : ResultTaken b k miss s w) (hk : k ≠ .worn)
    (hvalid : s.faultValid b k = false) (hmiss : ¬ miss) : w.counter b k = 0 := by
  rw [(h.2 hvalid).1 hmiss, counter_setCounter s b b k k 0 hk]
  exact if_pos ⟨rfl, rfl⟩

theorem counter_resultTaken_miss {miss : Prop} (h : ResultTaken b k miss s w) (hk : k ≠ .worn)
    (hvalid : s.faultValid b k = false) (hmiss : miss) : w.counter b k = min 7 (s.counter b k + 1) := by
  obtain ⟨-, hbecomes, hcounts⟩ := h.2 hvalid
  have hcounted : (s.setCounter b k (min 7 (s.counter b k + 1))).counter b k = min 7 (s.counter b k + 1) :=
    (counter_setCounter s b b k k _ hk).trans (if_pos ⟨rfl, rfl⟩)
  rw [← hcounted]
  by_cases hmakes : MissMakesValid s b k
  · exact congrArg (fun y : Vector MissCounters 24 => (y.get b).get k) (counters_becameValid (hbecomes hmiss hmakes))
  · rw [hcounts hmiss hmakes]

end Results

/-! ## What the judging of a visit leaves (R124 to R126) -/

section Judged

variable {b : BankId} {x : Sample} {s w : State}

/-- The four results of a visit, each taken on what the one before left. -/
theorem visitJudged_keeps (h : VisitJudged b x s w) :
    ∃ c d y : State,
      (ResultTaken b .coil (x.coil.toNat < s.settings.coilMin ∨ s.settings.coilMax < x.coil.toNat) s c ∧
        ResultKeeps .coil s c) ∧
      (ResultTaken b .drift ((s.bank b).position ≠ none ∧ (s.bank b).position ≠ x.reading) c d ∧
        ResultKeeps .drift c d) ∧
      ((s.bank b).position = some .term ∧ (s.bank b).holder = none →
        ResultTaken b .stray (s.settings.strayThreshold ≤ x.detector.toNat) d y) ∧
      (¬ ((s.bank b).position = some .term ∧ (s.bank b).holder = none) → y = d) ∧
      ResultKeeps .stray d y ∧ ResultKeeps .worn y w ∧
      ((y.bank b).lifeLimit ≠ 0 → (y.bank b).lifeLimit ≤ (y.bank b).lifeCount → w.faultValid b .worn = true) := by
  obtain ⟨c, d, y, hcoil, hdrift, hstray, hheld, hworn, hsame⟩ := h
  refine ⟨c, d, y, ⟨hcoil, resultKeeps_resultTaken hcoil nofun⟩, ⟨hdrift, resultKeeps_resultTaken hdrift nofun⟩, hstray,
    hheld, ?_, ?_, fun hlimit hreached => ?_⟩
  · by_cases hchecked : (s.bank b).position = some .term ∧ (s.bank b).holder = none
    · exact resultKeeps_resultTaken (hstray hchecked) nofun
    · rw [hheld hchecked]
      exact .refl .stray d
  · by_cases hreport : (y.bank b).lifeLimit ≠ 0 ∧ (y.bank b).lifeLimit ≤ (y.bank b).lifeCount ∧
        y.faultValid b .worn = false
    · exact resultKeeps_becameValid (hworn hreport)
    · rw [hsame hreport]
      exact .refl .worn y
  · cases hvalid : y.faultValid b .worn with
    | false => exact faultValid_becameValid (hworn ⟨hlimit, hreached, hvalid⟩)
    | true =>
      rw [hsame fun ⟨_, _, hnot⟩ => Bool.false_ne_true (hnot.symm.trans hvalid)]
      exact hvalid

theorem kept_visitJudged (h : VisitJudged b x s w) : w.worn = s.worn ∧ w.sup.timing = s.sup.timing := by
  obtain ⟨c, d, y, ⟨-, hcoil⟩, ⟨-, hdrift⟩, -, -, hstray, hworn, -⟩ := visitJudged_keeps h
  exact ⟨hworn.worn.trans (hstray.worn.trans (hdrift.worn.trans hcoil.worn)),
    hworn.timing.trans (hstray.timing.trans (hdrift.timing.trans hcoil.timing))⟩

theorem coil_visitJudged (h : VisitJudged b x s w) (hvalid : s.faultValid b .coil = false) :
    w.counter b .coil =
      if s.settings.coilMin ≤ x.coil.toNat ∧ x.coil.toNat ≤ s.settings.coilMax then 0
      else min 7 (s.counter b .coil + 1) := by
  obtain ⟨c, d, y, ⟨hcoil, -⟩, ⟨-, hdrift⟩, -, -, hstray, hworn, -⟩ := visitJudged_keeps h
  rw [hworn.counters b .coil nofun, hstray.counters b .coil nofun, hdrift.counters b .coil nofun]
  split
  next hwithin => exact counter_resultTaken_pass hcoil nofun hvalid (by omega)
  next hbeyond => exact counter_resultTaken_miss hcoil nofun hvalid (by omega)

theorem drift_visitJudged (h : VisitJudged b x s w) (hvalid : s.faultValid b .drift = false) :
    w.counter b .drift =
      if (s.bank b).position = none ∨ (s.bank b).position = x.reading then 0
      else min 7 (s.counter b .drift + 1) := by
  obtain ⟨c, d, y, ⟨-, hcoil⟩, ⟨hdrift, -⟩, -, -, hstray, hworn, -⟩ := visitJudged_keeps h
  have hvalid' : c.faultValid b .drift = false := (hcoil.faults b .drift nofun).trans hvalid
  rw [hworn.counters b .drift nofun, hstray.counters b .drift nofun, ← hcoil.counters b .drift nofun]
  split
  next hagrees => exact counter_resultTaken_pass hdrift nofun hvalid' fun ⟨hknown, haway⟩ => hagrees.elim hknown haway
  next hdiffers => exact counter_resultTaken_miss hdrift nofun hvalid' (not_or.mp hdiffers)

theorem stray_visitJudged (h : VisitJudged b x s w) (hvalid : s.faultValid b .stray = false)
    (hterm : (s.bank b).position = some .term) (hfree : (s.bank b).holder = none) :
    w.counter b .stray =
      if x.detector.toNat < s.settings.strayThreshold then 0 else min 7 (s.counter b .stray + 1) := by
  obtain ⟨c, d, y, ⟨-, hcoil⟩, ⟨-, hdrift⟩, hstray, -, -, hworn, -⟩ := visitJudged_keeps h
  have hvalid' : d.faultValid b .stray = false :=
    (hdrift.faults b .stray nofun).trans ((hcoil.faults b .stray nofun).trans hvalid)
  rw [hworn.counters b .stray nofun, ← hcoil.counters b .stray nofun, ← hdrift.counters b .stray nofun]
  split
  next hquiet => exact counter_resultTaken_pass (hstray ⟨hterm, hfree⟩) nofun hvalid' (Nat.not_le.mpr hquiet)
  next hloud => exact counter_resultTaken_miss (hstray ⟨hterm, hfree⟩) nofun hvalid' (Nat.not_lt.mp hloud)

theorem stray_visitJudged_held (h : VisitJudged b x s w)
    (hheld : (s.bank b).position ≠ some .term ∨ (s.bank b).holder ≠ none) :
    w.counter b .stray = s.counter b .stray := by
  obtain ⟨c, d, y, ⟨-, hcoil⟩, ⟨-, hdrift⟩, -, hsame, -, hworn, -⟩ := visitJudged_keeps h
  have hy : y = d := hsame fun ⟨hterm, hfree⟩ => hheld.elim (· hterm) (· hfree)
  rw [hworn.counters b .stray nofun, hy, hdrift.counters b .stray nofun, hcoil.counters b .stray nofun]

theorem worn_visitJudged (h : VisitJudged b x s w) (hlimit : (s.bank b).lifeLimit ≠ 0)
    (hreached : (s.bank b).lifeLimit ≤ (s.bank b).lifeCount) : w.faultValid b .worn = true := by
  obtain ⟨c, d, y, ⟨-, hcoil⟩, ⟨-, hdrift⟩, -, -, hstray, -, hworn⟩ := visitJudged_keeps h
  obtain ⟨-, hcount, -, -, hlife, -⟩ := bank_of_worn (hstray.worn.trans (hdrift.worn.trans hcoil.worn)) b
  exact hworn (by rw [hlife]; exact hlimit) (by rw [hlife, hcount]; exact hreached)

end Judged

/-! ## The cycle goes on (R123, R124) -/

section Cycle

variable {n : Nat} {s : State} {x : BankId}

/-- R124: the three readings of a bank. -/
def sampled (s : State) (b : BankId) : Sample := ⟨(s.lines.get b).coil, (s.lines.get b).detector, s.readback b⟩

/-- R123, R124: the cycle goes on from index `n`, the next cycle starting at once where it is due. -/
def cycleOn (n : Nat) (s : State) : State :=
  if cycleDue (seekVisit n s) then startCycle (seekVisit n s) else seekVisit n s

theorem onlyCycles_cycleOn (n : Nat) (s : State) : OnlyCycles s (cycleOn n s) := by
  unfold cycleOn
  split
  · exact (onlyCycles_seekVisit n s).trans (onlyCycles_startCycle _)
  · exact onlyCycles_seekVisit n s

/-- The bank is the first that the cycle visits from index `n` on. -/
def VisitsNext (n : Nat) (s : State) (x : BankId) : Prop :=
  (n ≤ x.1 ∧ (s.bank x).fitted = true ∧ s.inFlight x = false) ∧
    ∀ y, y < x → ¬ (n ≤ y.1 ∧ (s.bank y).fitted = true ∧ s.inFlight y = false)

/-- The cycle has no bank to visit from index `n` on. -/
def VisitsNone (n : Nat) (s : State) : Prop :=
  ∀ y : BankId, ¬ (n ≤ y.1 ∧ (s.bank y).fitted = true ∧ s.inFlight y = false)

theorem visit_sampled {y : Sample} {t : State} (h : sampled t x = y) :
    some { sample := sampled t x, left := 4 } = some ({ sample := y, left := 4 } : Visit) := by rw [h]

theorem cycleOn_visits (h : VisitsNext n s x) :
    cycleOn n s =
      s.setSup
        { s.sup with cycle := .visiting, position := x, visit := some { sample := sampled s x, left := 4 } } := by
  have hseek : seekVisit n s = startVisit x s := by
    unfold seekVisit
    rw [nextVisit_eq_some.mpr h]
  have hnot : ¬ cycleDue (startVisit x s) = true := fun hdue => nomatch ((cycleDue_iff _).mp hdue).1
  rw [cycleOn, hseek, if_neg hnot]
  rfl

theorem seekVisit_ends (h : VisitsNone n s) : seekVisit n s = endCycle s := by
  unfold seekVisit
  rw [nextVisit_eq_none.mpr h]

theorem cycleOn_stops (h : VisitsNone n s) (hinterval : s.settings.interval = 0) :
    cycleOn n s = s.setSup { s.sup with cycle := .stopped, running := false, visit := none } := by
  have hend : endCycle s = s.setSup { s.sup with cycle := .stopped, running := false, visit := none } :=
    if_pos hinterval
  have hnot : ¬ cycleDue (endCycle s) = true := fun hdue => by
    rw [hend] at hdue
    exact nomatch ((cycleDue_iff _).mp hdue).1
  rw [cycleOn, seekVisit_ends h, if_neg hnot, hend]

theorem cycleOn_restarts (h : VisitsNone n s) (hinterval : s.settings.interval ≠ 0)
    (hstill : s.sup.running = false) :
    cycleOn n s = s.setSup { s.sup with cycle := .waiting, elapsed := 0, running := true, visit := none } := by
  have hend : endCycle s =
      s.setSup { s.sup with cycle := .waiting, elapsed := 0, running := true, visit := none } := by
    refine (if_neg hinterval).trans (if_neg ?_)
    show ¬ s.sup.running = true
    rw [hstill]
    exact Bool.false_ne_true
  have hnot : ¬ cycleDue (endCycle s) = true := fun hdue => by
    rw [hend] at hdue
    have hreached : s.settings.interval * 100 ≤ 0 := ((cycleDue_iff _).mp hdue).2.2.2
    omega
  rw [cycleOn, seekVisit_ends h, if_neg hnot, hend]

/-- R123: the cycle has ended, its interval timer going on. -/
def cycleEnded (s : State) : State := s.setSup { s.sup with cycle := .waiting, visit := none }

theorem endCycle_waits (hinterval : s.settings.interval ≠ 0) (hruns : s.sup.running = true) :
    endCycle s = cycleEnded s :=
  (if_neg hinterval).trans (if_pos hruns)

theorem cycleOn_waits (h : VisitsNone n s) (hinterval : s.settings.interval ≠ 0) (hruns : s.sup.running = true)
    (helapsed : s.sup.elapsed < s.settings.interval * 100) :
    cycleOn n s = cycleEnded s := by
  have hend := endCycle_waits hinterval hruns
  have hnot : ¬ cycleDue (endCycle s) = true := fun hdue => by
    rw [hend] at hdue
    exact absurd helapsed (Nat.not_lt.mpr ((cycleDue_iff _).mp hdue).2.2.2)
  rw [cycleOn, seekVisit_ends h, if_neg hnot, hend]

theorem cycleOn_starts (h : VisitsNone n s) (hinterval : s.settings.interval ≠ 0) (hruns : s.sup.running = true)
    (helapsed : s.settings.interval * 100 ≤ s.sup.elapsed) :
    cycleOn n s = startCycle (cycleEnded s) := by
  have hend := endCycle_waits hinterval hruns
  have hdue : cycleDue (endCycle s) = true := by
    rw [hend]
    exact (cycleDue_iff _).mpr ⟨rfl, hruns, hinterval, helapsed⟩
  rw [cycleOn, seekVisit_ends h, if_pos hdue, hend]

/-- R123: a cycle that starts, whether or not it finds a bank to visit. -/
theorem startCycle_running (s : State) (hinterval : s.settings.interval ≠ 0) :
    (startCycle s).sup.elapsed = 0 ∧ (startCycle s).sup.running = true := by
  generalize hv : s.setSup { s.sup with cycle := .visiting, position := 0, elapsed := 0, running := true } = v
  have hstart : startCycle s = seekVisit 0 v := by rw [← hv]; rfl
  have hsup : v.sup.elapsed = 0 ∧ v.sup.running = true ∧ v.settings.interval ≠ 0 := by
    rw [← hv]
    exact ⟨rfl, rfl, hinterval⟩
  obtain ⟨helapsed, hruns, hinterval'⟩ := hsup
  rw [hstart]
  unfold seekVisit
  split
  · exact ⟨helapsed, hruns⟩
  · rw [endCycle_waits hinterval' hruns]
    exact ⟨helapsed, hruns⟩

end Cycle

/-! ## The end of a visit (R123 to R126) -/

section VisitEnd

variable {s t : State}

/-- What a visit reads of the banks and the settings is the same. -/
structure SameBanks (s t : State) : Prop where
  fitted : ∀ b, (t.bank b).fitted = (s.bank b).fitted
  inFlight : ∀ b, t.inFlight b = s.inFlight b
  lines : t.lines = s.lines
  settings : t.settings = s.settings

theorem inFlight_of_legs (h : ∀ pl, (t.driver pl).leg = (s.driver pl).leg) (b : BankId) :
    t.inFlight b = s.inFlight b := by
  have hon : ∀ pl, t.flightOn pl b = s.flightOn pl b := fun pl => by
    unfold State.flightOn
    rw [h]
  unfold State.inFlight State.flightPlane
  rw [hon, hon]

theorem sameBanks_elapse (n : Nat) (s : State) : SameBanks s (s.elapse n) :=
  ⟨fun _ => rfl, inFlight_of_legs fun pl => by rw [driver_elapse]; rfl, rfl, rfl⟩

theorem SameBanks.trans {u : State} (h : SameBanks s t) (g : SameBanks t u) : SameBanks s u :=
  ⟨fun b => (g.fitted b).trans (h.fitted b), fun b => (g.inFlight b).trans (h.inFlight b), g.lines.trans h.lines,
    g.settings.trans h.settings⟩

theorem sameBanks_of_worn (hworn : t.worn = s.worn) (hfixed : t.fixed = s.fixed) : SameBanks s t :=
  ⟨fun b => (bank_of_worn hworn b).2.2.2.2.2, inFlight_of_legs fun pl => (driver_of_worn hworn pl).2,
    congrArg (fun x => x.1.2.2.2.1) hfixed, settings_of_fixed hfixed⟩

theorem SameBanks.visitsNext (h : SameBanks s t) {n : Nat} {x : BankId} (hn : n ≤ x.1)
    (hfitted : (s.bank x).fitted = true) (hflight : s.inFlight x = false)
    (hfirst : ∀ y : BankId, n ≤ y.1 → y < x → (s.bank y).fitted = false ∨ s.inFlight y = true) : VisitsNext n t x := by
  refine ⟨⟨hn, (h.fitted x).trans hfitted, (h.inFlight x).trans hflight⟩, fun y hy ⟨hny, hyf, hyl⟩ => ?_⟩
  rw [h.fitted] at hyf
  rw [h.inFlight] at hyl
  rcases hfirst y hny hy with hun | hup
  · exact Bool.false_ne_true (hun.symm.trans hyf)
  · exact Bool.false_ne_true (hyl.symm.trans hup)

theorem SameBanks.visitsNone (h : SameBanks s t) {n : Nat}
    (hnone : ∀ y : BankId, n ≤ y.1 → (s.bank y).fitted = false ∨ s.inFlight y = true) : VisitsNone n t := by
  intro y ⟨hny, hyf, hyl⟩
  rw [h.fitted] at hyf
  rw [h.inFlight] at hyl
  rcases hnone y hny with hun | hup
  · exact Bool.false_ne_true (hun.symm.trans hyf)
  · exact Bool.false_ne_true (hyl.symm.trans hup)

theorem SameBanks.sampled (h : SameBanks s t) (b : BankId) : sampled t b = sampled s b := by
  unfold Machine.sampled State.readback
  rw [h.lines]

theorem SameBanks.cycleEnded (h : SameBanks s t) : SameBanks s (cycleEnded t) :=
  ⟨h.fitted, h.inFlight, h.lines, h.settings⟩

/-- R123, R124: a cycle that starts, as the state before shows it. -/
theorem startCycle_none (h : SameBanks s t) (hinterval : s.settings.interval ≠ 0)
    (hnone : ∀ b, (s.bank b).fitted = false ∨ s.inFlight b = true) :
    (startCycle t).sup.cycle = .waiting ∧ (startCycle t).sup.visit = none := by
  rw [startCycle_ends (by rw [h.settings]; exact hinterval) fun b => by rw [h.fitted, h.inFlight]; exact hnone b]
  exact ⟨rfl, rfl⟩

theorem startCycle_some (h : SameBanks s t) {b : BankId} (hfitted : (s.bank b).fitted = true)
    (hflight : s.inFlight b = false) (hfirst : ∀ y, y < b → (s.bank y).fitted = false ∨ s.inFlight y = true) :
    (startCycle t).sup.cycle = .visiting ∧ (startCycle t).sup.position = b ∧
      (startCycle t).sup.visit = some { sample := sampled s b, left := 4 } := by
  rw [startCycle_visits ((h.fitted b).trans hfitted) ((h.inFlight b).trans hflight) fun y hy => by
    rw [h.fitted, h.inFlight]; exact hfirst y hy]
  exact ⟨rfl, rfl, visit_sampled (h.sampled b)⟩

theorem supervision_of_judged {x y : Supervision} (hcounters : x.counters = y.counters) (hfaults : x.faults = y.faults)
    (hsummaries : x.summaries = y.summaries) :
    x =
      { y with
        cycle := x.cycle, position := x.position, elapsed := x.elapsed, running := x.running, visit := x.visit
        samples := x.samples } := by
  rw [← hcounters, ← hfaults, ← hsummaries]

/-- The state at the end of a visit, the time left having passed. -/
def visitOver (v : Visit) (s : State) : State :=
  { s.elapse v.left with sup := { (s.elapse v.left).sup with visit := none } }

theorem exec_visitEnd {v : Visit} {b : BankId} (hs : s.inReset = false) (hvisit : s.sup.visit = some v)
    (hb : s.sup.position = b) :
    exec .visitEnd s = .next (cycleOn (b.1 + 1) (judgeVisit b v.sample (visitOver v s))).driveOutputs := by
  have hexec : exec .visitEnd s = perform visitTimeEnd s := rfl
  have htime : visitTimeEnd s = endVisit (s.elapse v.left) := by
    unfold visitTimeEnd
    rw [hvisit]
  have hleft : (s.elapse v.left).sup.visit = some { v with left := v.left - v.left } := by
    show s.sup.visit.map (fun y : Visit => { y with left := y.left - v.left }) = _
    rw [hvisit]
    rfl
  have hend : endVisit (s.elapse v.left) = cycleOn (b.1 + 1) (judgeVisit b v.sample (visitOver v s)) := by
    unfold endVisit
    rw [hleft, ← hb]
    rfl
  rw [hexec, perform_awake _ _ hs, htime, hend]

theorem sameBanks_visitOver (v : Visit) (s : State) : SameBanks s (visitOver v s) :=
  (sameBanks_elapse v.left s).trans ⟨fun _ => rfl, fun _ => rfl, rfl, rfl⟩

theorem judgeVisit_skips {b : BankId} {x : Sample} (h : (s.bank b).fitted = false ∨ s.inFlight b = true) :
    judgeVisit b x s = s := by
  refine if_neg fun hboth => ?_
  rw [Bool.and_eq_true, Bool.not_eq_true'] at hboth
  exact h.elim (fun hun => Bool.false_ne_true (hun.symm.trans hboth.1)) fun hup =>
    Bool.false_ne_true (hboth.2.symm.trans hup)

/-- What a visit's end leaves of what the next visits read, and of the visit cycles. -/
theorem judgeVisit_keeps (b : BankId) (x : Sample) (s : State) :
    SameBanks s (judgeVisit b x s) ∧ (judgeVisit b x s).sup.elapsed = s.sup.elapsed ∧
      (judgeVisit b x s).sup.running = s.sup.running := by
  by_cases hskips : (s.bank b).fitted = false ∨ s.inFlight b = true
  · rw [judgeVisit_skips hskips]
    exact ⟨⟨fun _ => rfl, fun _ => rfl, rfl, rfl⟩, rfl, rfl⟩
  · rw [not_or, Bool.not_eq_false, Bool.not_eq_true] at hskips
    obtain ⟨w, hjudged, heq⟩ := visitJudged_judgeVisit b x s hskips.1 hskips.2
    obtain ⟨hworn, htiming⟩ := kept_visitJudged hjudged
    have hfixed := fixed_judgeVisit s b x
    rw [heq] at hfixed ⊢
    exact ⟨sameBanks_of_worn hworn hfixed, congrArg (fun y => y.2.2.1) htiming, congrArg (fun y => y.2.2.2.1) htiming⟩

end VisitEnd

/-- Settles O58: the judging by `VisitJudged`, the cycle by `cycleOn`. -/
theorem visitsRun : Obligations.VisitsRun := by
  refine fun s hs => ⟨fun hwaiting hruns hinterval => ?start, fun v b hvisit hb => ?stop⟩
  case start =>
    have hexec : exec .visitCycleStart s = perform intervalEnd s := rfl
    have hend : intervalEnd s =
        startCycle (s.elapse (s.settings.interval * 100 - s.sup.elapsed)) := if_pos ⟨hwaiting, hruns, hinterval⟩
    rw [perform_awake _ _ hs, hend] at hexec
    have hsame := sameBanks_elapse (s.settings.interval * 100 - s.sup.elapsed) s
    generalize hv : s.elapse (s.settings.interval * 100 - s.sup.elapsed) = v at hexec hsame
    obtain ⟨hframe, hjudged⟩ := onlyCycles_startCycle v
    simp only [Supervision.judged, Prod.mk.injEq] at hjudged
    obtain ⟨hcounters, hfaults, -, hsamples⟩ := hjudged
    have hinterval' : v.settings.interval ≠ 0 := by rw [hsame.settings]; exact hinterval
    obtain ⟨helapsed, hrunning⟩ := startCycle_running v hinterval'
    refine ⟨_, hexec, helapsed, hrunning, (congrArg State.banks hframe).trans (by rw [← hv]; rfl),
      hfaults.trans (by rw [← hv]; rfl), hcounters.trans (by rw [← hv]; rfl), hsamples.trans (by rw [← hv]; rfl),
      fun hnone => startCycle_none hsame hinterval hnone,
      fun b hfitted hflight hfirst => startCycle_some hsame hfitted hflight hfirst⟩
  case stop =>
    have hexec := exec_visitEnd hs hvisit hb
    obtain ⟨hjudge, helapsed, hrunning⟩ := judgeVisit_keeps b v.sample (visitOver v s)
    have hsame := (sameBanks_visitOver v s).trans hjudge
    obtain ⟨hframe, hjudged⟩ := onlyCycles_cycleOn (b.1 + 1) (judgeVisit b v.sample (visitOver v s))
    refine ⟨_, hexec, fun x hx hfitted hflight hfirst => ?visits, fun hnone => ?ends, fun hskips => ?skips,
      fun hfitted hflight => ?judges⟩
    case visits =>
      rw [cycleOn_visits (hsame.visitsNext hx hfitted hflight hfirst)]
      exact ⟨rfl, rfl, helapsed, hrunning, visit_sampled (hsame.sampled x)⟩
    case ends =>
      have hdone := hsame.visitsNone hnone
      refine ⟨fun hinterval => ?_, fun hinterval hstill => ?_, fun hinterval hruns htime => ?_,
        fun hinterval hruns htime => ?_⟩
      · rw [cycleOn_stops hdone (by rw [hsame.settings]; exact hinterval)]
        exact ⟨rfl, rfl, rfl⟩
      · rw [cycleOn_restarts hdone (by rw [hsame.settings]; exact hinterval) (hrunning.trans hstill)]
        exact ⟨rfl, rfl, rfl, rfl⟩
      · rw [cycleOn_waits hdone (by rw [hsame.settings]; exact hinterval) (hrunning.trans hruns)
          (by rw [hsame.settings, helapsed]; exact htime)]
        exact ⟨rfl, hrunning.trans hruns, helapsed, rfl⟩
      · have hinterval' : (judgeVisit b v.sample (visitOver v s)).settings.interval ≠ 0 := by
          rw [hsame.settings]
          exact hinterval
        rw [cycleOn_starts hdone hinterval' (hrunning.trans hruns) (by rw [hsame.settings, helapsed]; exact htime)]
        obtain ⟨helapsed', hrunning'⟩ := startCycle_running
          (cycleEnded (judgeVisit b v.sample (visitOver v s))) hinterval'
        exact ⟨helapsed', hrunning', startCycle_none hsame.cycleEnded hinterval,
          fun x hfitted hflight hfirst => startCycle_some hsame.cycleEnded hfitted hflight hfirst⟩
    case skips =>
      have hover := sameBanks_visitOver v s
      rw [judgeVisit_skips (by rw [hover.fitted, hover.inFlight]; exact hskips)] at hframe hjudged ⊢
      simp only [Supervision.judged, Prod.mk.injEq] at hjudged
      obtain ⟨hcounters, hfaults, -, hsamples⟩ := hjudged
      exact ⟨hsamples, hfaults, hcounters, (congrArg State.events hframe).trans rfl⟩
    case judges =>
      have hover := sameBanks_visitOver v s
      obtain ⟨w, hvisited, heq⟩ := visitJudged_judgeVisit b v.sample (visitOver v s)
        ((hover.fitted b).trans hfitted) ((hover.inFlight b).trans hflight)
      rw [heq] at hframe hjudged ⊢
      generalize cycleOn (b.1 + 1) (keepSample b v.sample w) = u at hframe hjudged ⊢
      obtain ⟨hworn, htiming⟩ := kept_visitJudged hvisited
      simp only [Supervision.judged, Prod.mk.injEq] at hjudged
      obtain ⟨hcounters, hfaults, hsummaries, hsamples⟩ := hjudged
      have hsamples' : w.sup.samples = s.sup.samples := congrArg (fun y => y.2.2.2.2.2) htiming
      have hcounter : ∀ k, u.driveOutputs.counter b k = w.counter b k := fun k =>
        congrArg (fun y : Vector MissCounters 24 => (y.get b).get k) hcounters
      have hvalid : u.driveOutputs.faultValid b .worn = w.faultValid b .worn :=
        congrArg (fun y : Vector KindSet 24 => kindIn .worn (y.get b)) hfaults
      refine ⟨hsamples.trans ?_, ⟨w, hvisited, ?_, ?_⟩, fun h => ?_, fun h => ?_, fun h hterm hfree => ?_,
        fun h hheld => ?_, fun hlimit hreached => ?_⟩
      · show w.sup.samples.set b.1 (some v.sample) b.2 = _
        rw [hsamples']
      · rw [hframe]
        rfl
      · exact supervision_of_judged hcounters hfaults hsummaries
      · rw [hcounter]
        exact (coil_visitJudged hvisited h :)
      · rw [hcounter]
        exact (drift_visitJudged hvisited h :)
      · rw [hcounter]
        exact (stray_visitJudged hvisited h hterm hfree :)
      · rw [hcounter]
        exact (stray_visitJudged_held hvisited hheld :)
      · rw [hvalid]
        exact worn_visitJudged hvisited hlimit hreached

end Sys2Proof.Machine
end

section
/-! PROOF. The chamber inputs: level changes, the door, the seats (R116 to R121, R139), with what an unseat does to the
paths that end at its port. -/

namespace Sys2Proof.Machine

/-! ## Level changes (R116) -/

section Levels

variable {s : State} {closed : Bool}

theorem exec_inputLevelChange (i : ChamberInput) (closed : Bool) (hs : s.inReset = false) :
    exec (.inputLevelChange i closed) s = .next (changeLevel i closed s).driveOutputs := by
  have hexec : exec (.inputLevelChange i closed) s =
      .next (if s.inReset then holdLevel i closed s else changeLevel i closed s).driveOutputs := rfl
  rw [hexec, if_neg (by rw [hs]; exact Bool.false_ne_true)]

theorem setLevel_same {x : DebouncedInput} (h : x.level = closed) : x.setLevel closed = x := if_pos h

theorem setLevel_changed {x : DebouncedInput} (h : x.level ≠ closed) :
    x.setLevel closed =
      { level := closed, debounced := x.debounced, timer := if closed = x.debounced then none else some 500 } :=
  if_neg h

theorem setSeat_self (n : FixtureId) (s : State) : s.setSeat n (s.chamber.seats.get n) = s := by
  have hseats : s.chamber.seats.set n.1 (s.chamber.seats.get n) n.2 = s.chamber.seats :=
    Vector.set_getElem_self _
  unfold State.setSeat
  rw [hseats]

theorem seat_setSeat (n : FixtureId) (x : DebouncedInput) (s : State) : (s.setSeat n x).chamber.seats.get n = x :=
  (vector_get_set s.chamber.seats n n x).trans (if_pos rfl)

theorem seat_elapse (k : Nat) (n : FixtureId) (s : State) :
    (s.elapse k).chamber.seats.get n = (s.chamber.seats.get n).elapse k := vector_get_ofFn _ n

end Levels

/-! ## The door (R116, R139) -/

section Door

variable {s : State} {k : Nat}

/-- R116: the debounced state of the door has taken its level. -/
def doorTaken (k : Nat) (s : State) : State :=
  (s.elapse k).setDoor { level := s.chamber.door.level, debounced := s.chamber.door.level, timer := none }

theorem exec_doorDebouncedChange (hs : s.inReset = false) (htimer : s.chamber.door.timer = some k) :
    exec .doorDebouncedChange s =
      .next (if s.chamber.door.level then removeCause .door (doorTaken k s)
        else addCause .door (doorTaken k s)).driveOutputs := by
  have hexec : exec .doorDebouncedChange s = perform doorDebounced s := rfl
  have hdoor : doorDebounced s =
      if s.chamber.door.level then removeCause .door (doorTaken k s) else addCause .door (doorTaken k s) := by
    unfold doorDebounced
    rw [htimer]
    rfl
  rw [hexec, perform_awake _ _ hs, hdoor]

theorem removeCause_door (s : State) :
    removeCause .door s = s.setSafe { s.safe with causes := s.safe.causes &&& ~~~2#5 } := by
  unfold removeCause causeErase
  congr 2

theorem chamber_addCause (c : SafeCause) (s : State) : (addCause c s).chamber = s.chamber :=
  congrArg (fun x => x.2.1) (fixed_addCause s c)

end Door

/-! ## The seats (R116, R118 to R121) -/

section Seats

variable {s : State} {n : FixtureId} {k : Nat}

/-- R116: the debounced state of a seat has taken its level. -/
def seatTaken (n : FixtureId) (level : Bool) (k : Nat) (s : State) : State :=
  (s.elapse k).setSeat n { level := level, debounced := level, timer := none }

theorem exec_seatDebouncedChange {level : Bool} (hs : s.inReset = false)
    (htimer : (s.chamber.seats.get n).timer = some k) (hlevel : (s.chamber.seats.get n).level = level) :
    exec (.seatDebouncedChange n) s =
      .next (if level then seat n (seatTaken n level k s)
        else react (unseat n (seatTaken n level k s))).driveOutputs := by
  have hexec : exec (.seatDebouncedChange n) s = perform (seatDebounced n) s := rfl
  have hsettled : ((s.elapse k).chamber.seats.get n).settleLevel =
      { level := level, debounced := level, timer := none } := by
    rw [seat_elapse, ← hlevel]
    rfl
  have hseat : seatDebounced n s =
      if level then seat n (seatTaken n level k s) else react (unseat n (seatTaken n level k s)) := by
    unfold seatDebounced
    rw [htimer]
    dsimp only
    rw [hsettled]
    rfl
  rw [hexec, perform_awake _ _ hs, hseat]

/-- R118: the entry is WAITING and its new slot's route ends at the port. -/
def lostEntry (n : FixtureId) (s : State) (e : Entry) : Bool := !e.active && e.new.any fun p => s.slotEndsAt p n

theorem lostEntries_eq (n : FixtureId) (s : State) : lostEntries n s = s.queue.filter (lostEntry n s) := by
  unfold lostEntries
  congr 1
  funext e
  unfold lostEntry
  cases e.new <;> rfl

theorem lostEntry_iff (n : FixtureId) (s : State) (e : Entry) :
    lostEntry n s e = true ↔ e.active = false ∧ ∃ p, e.new = some p ∧ s.slotEndsAt p n = true := by
  unfold lostEntry
  rw [Bool.and_eq_true, Bool.not_eq_true', Option.any_eq_true]

theorem mem_lostSlots (n : FixtureId) (s : State) (p : Slot) : p ∈ lostSlots n s ↔ FailedByUnseat s n p := by
  unfold lostSlots FailedByUnseat
  simp [allSlots, or_assoc]

theorem pairwise_lostSlots (n : FixtureId) (s : State) : (lostSlots n s).Pairwise (· < ·) :=
  (List.pairwise_lt_finRange 16).filter _

theorem getLsbD_slotsMap (ps : List Slot) (p : Slot) : (slotsMap ps).getLsbD p.1 = true ↔ p ∈ ps := by
  unfold slotsMap
  rw [getLsbD_slotMap, List.contains_iff_mem]

theorem slotsMap_nil : slotsMap [] = 0 := by decide

theorem slotsMap_single (p : Slot) : slotsMap [p] = 1#16 <<< p.1 := by
  revert p
  decide

theorem slotEndsAt_of_path {t : State} {p : Slot} (hroute : (t.path p).route = (s.path p).route)
    (hroutes : t.routes = s.routes) : t.slotEndsAt p n = s.slotEndsAt p n := by
  have hrecord : t.route = s.route := by
    funext r
    unfold State.route
    rw [hroutes]
  unfold State.slotEndsAt State.slotRoute
  rw [hroute, hrecord]

end Seats

/-! ## An unseat that cancels one change (R35, R118) -/

section Cancelled

variable {s : State} {n : FixtureId} {e : Entry} {p : Slot}

/-- R118: of the queue, `e` alone is a WAITING entry to the port, with the new slot `p`, and `p` alone ends there. -/
structure OneLost (n : FixtureId) (s : State) (before after : List Entry) (e : Entry) (p : Slot) : Prop where
  queue : s.queue = before ++ e :: after
  waits : e.active = false
  new : e.new = some p
  ends : s.slotEndsAt p n = true
  alone : ∀ q, q ≠ p → s.slotEndsAt q n = false
  others : ∀ x ∈ before ++ after, x.active = false → x.new ≠ some p

variable {before after : List Entry}

theorem OneLost.not_lost (h : OneLost n s before after e p) {x : Entry} (hx : x ∈ before ++ after) :
    ¬ lostEntry n s x = true := fun hlost => by
  obtain ⟨hwaits, q, hnew, hends⟩ := (lostEntry_iff n s x).mp hlost
  by_cases hq : q = p
  · exact h.others x hx hwaits (hq ▸ hnew)
  · exact Bool.false_ne_true ((h.alone q hq).symm.trans hends)

theorem OneLost.lostEntries (h : OneLost n s before after e p) : lostEntries n s = [e] := by
  have hbefore : before.filter (lostEntry n s) = [] :=
    List.filter_eq_nil_iff.mpr fun x hx => h.not_lost (List.mem_append_left _ hx)
  have hafter : after.filter (lostEntry n s) = [] :=
    List.filter_eq_nil_iff.mpr fun x hx => h.not_lost (List.mem_append_right _ hx)
  rw [lostEntries_eq, h.queue, List.filter_append, hbefore,
    List.filter_cons_of_pos ((lostEntry_iff n s e).mpr ⟨h.waits, p, h.new, h.ends⟩), hafter]
  rfl

theorem OneLost.erase (h : OneLost n s before after e p) : s.queue.erase e = before ++ after := by
  have hnot : e ∉ before := fun hmem => h.others e (List.mem_append_left _ hmem) h.waits h.new
  rw [h.queue, List.erase_append_right _ hnot, List.erase_cons_head]

/-- The entry is a MAKE, or a SWAP from another slot, to the slot. -/
def FormsSlot (e : Entry) (p : Slot) : Prop :=
  e.kind = .makeChange ∨ (e.kind = .swapChange ∧ ∃ o, e.old = some o ∧ o ≠ p)

theorem undoAcceptance_swap {o : Slot} (s : State) (hkind : e.kind = .swapChange) (hold : e.old = some o)
    (hnew : e.new = some p) :
    undoAcceptance e s =
      (freeSlot p (returnBanks o p s)).setPath o (restoredPath (freeSlot p (returnBanks o p s)) o) := by
  unfold undoAcceptance
  rw [hkind, hold, hnew]

theorem route_restoredPath (s : State) (o : Slot) : (restoredPath s o).route = (s.path o).route := by
  unfold restoredPath
  dsimp only
  split <;> rfl

theorem path_returnBanks (o p : Slot) (s : State) (q : Slot) : (returnBanks o p s).path q = s.path q :=
  path_of_paths _ _ (paths_mapBanks s _) q

theorem pathFreed_freeSlot (p : Slot) (s : State) : (freeSlot p s).flagSet .pathFreed = true :=
  flagSet_raise_self _ _

/-- R35: what the cancellation of a change to the slot leaves of the paths. -/
theorem path_cancelEntry (s : State) (hforms : FormsSlot e p) (hnew : e.new = some p) :
    (cancelEntry e s).path p = PathRecord.free ∧ (cancelEntry e s).flagSet .pathFreed = true ∧
      ∀ q, q ≠ p → ((cancelEntry e s).path q).route = (s.path q).route := by
  rcases hforms with hkind | ⟨hkind, o, hold, hne⟩
  · obtain ⟨hfree, hothers, hraised, -⟩ := makeCancelled_cancelEntry e s p hkind hnew
    exact ⟨hfree, hraised, fun q hq => by rw [hothers q hq]⟩
  · obtain ⟨-, hpaths, hevents⟩ := rest_cancelEntry e s
    have hundo := undoAcceptance_swap s hkind hold hnew
    have hpath : ∀ q, (cancelEntry e s).path q =
        if q = o then restoredPath (freeSlot p (returnBanks o p s)) o
        else if q = p then PathRecord.free else s.path q := fun q => by
      rw [path_of_paths _ _ hpaths, hundo, path_setPath, path_freeSlot, path_returnBanks]
    refine ⟨?_, ?_, fun q hq => ?_⟩
    · rw [hpath, if_neg (Ne.symm hne), if_pos rfl]
    · rw [flagSet_of_events hevents, hundo, flagSet_setPath]
      exact pathFreed_freeSlot p _
    · rw [hpath]
      by_cases ho : q = o
      · rw [if_pos ho, route_restoredPath, path_freeSlot, if_neg hne, path_returnBanks, ho]
      · rw [if_neg ho, if_neg hq]

theorem OneLost.lostSlots (h : OneLost n s before after e p) (hforms : FormsSlot e p) :
    lostSlots n (cancelEntry e s) = [] := by
  obtain ⟨hfree, -, hroutes⟩ := path_cancelEntry s hforms h.new
  refine List.eq_nil_iff_forall_not_mem.mpr fun q hq => ?_
  obtain ⟨hends, hstate⟩ := (mem_lostSlots n _ q).mp hq
  by_cases hqp : q = p
  · rw [hqp, hfree] at hstate
    rcases hstate with hstate | hstate | hstate <;> cases hstate
  · rw [slotEndsAt_of_path (hroutes q hqp) (congrArg (fun x => x.1.2.2.2.2.1) (fixed_cancelEntry s e)),
      h.alone q hqp] at hends
    exact Bool.false_ne_true hends

/-- R118, R121: the change is cancelled, its slot is the one of the slots cancelled, and no path fails. -/
theorem OneLost.unseat (h : OneLost n s before after e p) (hforms : FormsSlot e p) :
    unseat n s =
      noteFixture { fixture := n, seated := false, failedSlots := 0, cancelledSlots := 1#16 <<< p.1 }
        (cancelEntry e s) := by
  have hcancelled : [e].filterMap Entry.new = [p] := by
    rw [List.filterMap_cons_some h.new, List.filterMap_nil]
  have hall : cancelAll [e] s = cancelEntry e s := rfl
  unfold Machine.unseat
  dsimp only
  rw [h.lostEntries, hall, h.lostSlots hforms, hcancelled, slotsMap_single, slotsMap_nil]
  rfl

end Cancelled

/-! ## An unseat that fails paths (R33, R34, R119) -/

/-- R119: the record of a path whose fixture is lost, in NORMAL or not; `released` of its legs have left it. -/
def lostRecord (normal : Bool) (released : Nat) (x : PathRecord) : PathRecord :=
  if normal = false then failedRecord .fixtureLost x
  else if x.state = .forming then
    { failedRecord .fixtureLost x with
      closeOwed := true
      closeOwedCause := (failedRecord .fixtureLost x).closeOwedCause.or (some .fixtureLoss) }
  else
    { failedRecord .fixtureLost x with
      state := .closing, prior := some .failed, priorLegs := (failedRecord .fixtureLost x).legsDone
      settleTimer := none, closeOwed := false, closeOwedCause := none, legsDone := released }

/-- R119: the BREAK of a path whose fixture is lost. -/
def lostBreak (s : State) (p : Slot) : Entry :=
  { kind := .breakChange, old := some p, new := none, plane := s.slotPlane p, origin := .part, active := false
    plan := breakPlan (s.heldBanks p) }

/-- R119: the slots of the list that get a BREAK. -/
def brokenOf (s : State) (ps : List Slot) : List Slot := ps.filter fun p => decide ((s.path p).state ≠ .forming)

/-- What a fixture loss leaves aside. -/
structure LossKeeps (s t : State) : Prop where
  banks : t.banks = s.banks
  routes : t.routes = s.routes
  safe : t.safe = s.safe
  chamber : t.chamber = s.chamber

section Failing

variable {s t : State} {n : FixtureId} {p : Slot}

theorem LossKeeps.trans {u : State} (h : LossKeeps s t) (g : LossKeeps t u) : LossKeeps s u :=
  ⟨g.banks.trans h.banks, g.routes.trans h.routes, g.safe.trans h.safe, g.chamber.trans h.chamber⟩

/-- What is read of a slot's route and its banks. -/
theorem route_reads (hroute : (t.path p).route = (s.path p).route) (hroutes : t.routes = s.routes)
    (hbanks : t.banks = s.banks) :
    t.legsReleased p = s.legsReleased p ∧ lostBreak t p = lostBreak s p := by
  have hrecord : t.route = s.route := by
    funext r
    unfold State.route
    rw [hroutes]
  have hlegs := slotLegs_of_path hroute hroutes
  have hbank : ∀ b, t.bank b = s.bank b := bank_of_banks _ _ hbanks
  have hplane : t.slotPlane p = s.slotPlane p := by
    unfold State.slotPlane State.slotRoute
    rw [hroute, hrecord]
  unfold lostBreak State.legsReleased State.heldBanks
  rw [hplane]
  simp only [hlegs, hbank, and_self]

theorem keeps_failSlot (p : Slot) (why : FailReason) (s : State) :
    LossKeeps s (failSlot p why s) ∧ (failSlot p why s).queue = s.queue := by
  unfold failSlot
  dsimp only
  split <;> exact ⟨⟨rfl, rfl, rfl, rfl⟩, rfl⟩

theorem route_failedRecord (why : FailReason) (x : PathRecord) : (failedRecord why x).route = x.route := by
  unfold failedRecord
  split <;> rfl

theorem loseFixture_outside (h : s.safe.state ≠ .normal) : loseFixture p s = failSlot p .fixtureLost s := by
  have hnot : (!s.isNormal) = true := by rw [Bool.not_eq_true']; exact decide_eq_false h
  exact if_pos hnot

theorem loseFixture_forming (h : s.safe.state = .normal) (hforming : (s.path p).state = .forming) :
    loseFixture p s =
      (failSlot p .fixtureLost s).setPath p
        { (failSlot p .fixtureLost s).path p with
          closeOwed := true
          closeOwedCause := ((failSlot p .fixtureLost s).path p).closeOwedCause.or (some .fixtureLoss) } := by
  have hnot : ¬ (!s.isNormal) = true := by rw [(isNormal_iff s).mpr h]; exact Bool.false_ne_true
  exact (if_neg hnot).trans (if_pos hforming)

theorem loseFixture_breaks (h : s.safe.state = .normal) (hformed : (s.path p).state ≠ .forming) :
    loseFixture p s = acceptBreak p .part (some .failed) (failSlot p .fixtureLost s) := by
  have hnot : ¬ (!s.isNormal) = true := by rw [(isNormal_iff s).mpr h]; exact Bool.false_ne_true
  exact (if_neg hnot).trans (if_neg hformed)

/-- R119: what one path's fixture loss leaves. -/
theorem loseFixture_spec (p : Slot) (s : State) :
    LossKeeps s (loseFixture p s) ∧
      (∀ q, (loseFixture p s).path q =
        if q = p then lostRecord s.isNormal (s.legsReleased p) (s.path p) else s.path q) ∧
      (loseFixture p s).queue = s.queue ++ if s.isNormal = true then (brokenOf s [p]).map (lostBreak s) else [] := by
  obtain ⟨hkeeps, hqueue⟩ := keeps_failSlot p .fixtureLost s
  have hpath := path_failSlot p .fixtureLost s
  have hself : (failSlot p .fixtureLost s).path p = failedRecord .fixtureLost (s.path p) := (hpath p).trans (if_pos rfl)
  by_cases hnormal : s.safe.state = .normal
  · have hisNormal := (isNormal_iff s).mpr hnormal
    have hnot : ¬ s.isNormal = false := by rw [hisNormal]; nofun
    unfold lostRecord
    rw [if_neg hnot, if_pos hisNormal]
    by_cases hforming : (s.path p).state = .forming
    · have hnone : brokenOf s [p] = [] :=
        List.filter_cons_of_neg (by rw [decide_eq_true_iff]; exact not_not.mpr hforming)
      rw [loseFixture_forming hnormal hforming, hself, if_pos hforming, hnone, List.map_nil, List.append_nil]
      refine ⟨hkeeps.trans ⟨rfl, rfl, rfl, rfl⟩, fun q => ?_, hqueue⟩
      rw [path_setPath, hpath]
      split <;> rfl
    · have hone : brokenOf s [p] = [p] := List.filter_cons_of_pos (decide_eq_true hforming)
      obtain ⟨hreleased, hbreak⟩ := route_reads (p := p)
        ((congrArg PathRecord.route hself).trans (route_failedRecord _ _)) hkeeps.routes hkeeps.banks
      rw [loseFixture_breaks hnormal hforming, if_neg hforming, hone]
      refine ⟨hkeeps.trans ⟨rfl, rfl, rfl, rfl⟩, fun q => ?_, ?_⟩
      · rw [path_acceptBreak, hself, hreleased]
        by_cases hq : q = p
        · rw [if_pos hq, if_pos hq]
        · rw [if_neg hq, if_neg hq, hpath, if_neg hq]
      · rw [queue_acceptBreak, hqueue]
        exact congrArg (s.queue ++ [·]) hbreak
  · have hoff : s.isNormal = false := decide_eq_false hnormal
    unfold lostRecord
    rw [loseFixture_outside hnormal, if_pos hoff, if_neg (by rw [hoff]; exact Bool.false_ne_true), List.append_nil]
    exact ⟨hkeeps, hpath, hqueue⟩

/-- The paths of the list lose their fixture, one after another. -/
def loseAll (ps : List Slot) (s : State) : State := ps.foldl (fun t p => loseFixture p t) s

theorem brokenOf_congr {ps : List Slot} (h : ∀ q ∈ ps, t.path q = s.path q) : brokenOf t ps = brokenOf s ps :=
  List.filter_congr fun q hq => by rw [h q hq]

/-- R119: what the fixture losses of the list leave. -/
theorem loseAll_spec {ps : List Slot} (hnodup : ps.Nodup) (s : State) :
    LossKeeps s (loseAll ps s) ∧
      (∀ q, (loseAll ps s).path q =
        if q ∈ ps then lostRecord s.isNormal (s.legsReleased q) (s.path q) else s.path q) ∧
      (loseAll ps s).queue = s.queue ++ if s.isNormal = true then (brokenOf s ps).map (lostBreak s) else [] := by
  induction ps generalizing s with
  | nil => exact ⟨⟨rfl, rfl, rfl, rfl⟩, fun q => (if_neg List.not_mem_nil).symm, by
      show s.queue = s.queue ++ _
      rw [brokenOf, List.filter_nil, List.map_nil, ite_self, List.append_nil]⟩
  | cons p rest ih =>
    obtain ⟨hnot, hrest⟩ := List.nodup_cons.mp hnodup
    obtain ⟨hkeeps, hpath, hqueue⟩ := loseFixture_spec p s
    obtain ⟨hkeeps', hpath', hqueue'⟩ := ih hrest (loseFixture p s)
    have hsame : ∀ q ∈ rest, (loseFixture p s).path q = s.path q := fun q hq =>
      (hpath q).trans (if_neg fun heq : q = p => hnot (heq ▸ hq))
    have hnormal : (loseFixture p s).isNormal = s.isNormal := by
      unfold State.isNormal
      rw [hkeeps.safe]
    have hreads : ∀ q ∈ rest, (loseFixture p s).legsReleased q = s.legsReleased q ∧
        lostBreak (loseFixture p s) q = lostBreak s q := fun q hq =>
      route_reads (congrArg PathRecord.route (hsame q hq)) hkeeps.routes hkeeps.banks
    have hall : loseAll (p :: rest) s = loseAll rest (loseFixture p s) := rfl
    rw [hall]
    refine ⟨hkeeps.trans hkeeps', fun q => ?_, ?_⟩
    · rw [hpath', hnormal]
      by_cases hq : q ∈ rest
      · rw [if_pos hq, if_pos (List.mem_cons_of_mem p hq), hsame q hq, (hreads q hq).1]
      · rw [if_neg hq, hpath]
        by_cases hqp : q = p
        · rw [if_pos hqp, if_pos (by rw [hqp]; exact List.mem_cons_self), hqp]
        · rw [if_neg hqp, if_neg fun hmem => (List.mem_cons.mp hmem).elim hqp hq]
    · have hbreaks : (brokenOf s rest).map (lostBreak (loseFixture p s)) = (brokenOf s rest).map (lostBreak s) :=
        List.map_congr_left fun q hq => (hreads q (List.mem_of_mem_filter hq)).2
      have hsplit : brokenOf s (p :: rest) = brokenOf s [p] ++ brokenOf s rest := List.filter_append [p] rest
      rw [hqueue', hnormal, hqueue, brokenOf_congr hsame, hbreaks, hsplit, List.map_append, List.append_assoc]
      split <;> rfl

end Failing

/-! ## What an unseat writes (R119, R121) -/

section Lost

variable {s : State} {n : FixtureId} {x : PathRecord}

theorem lostRecord_fails (normal : Bool) (released : Nat) (h : x.state ≠ .failed) :
    (lostRecord normal released x).failure = x.failure.or (some .fixtureLost) ∧
      (lostRecord normal released x).settleTimer = none := by
  unfold lostRecord
  rw [failedRecord_fails h]
  repeat' split
  all_goals exact ⟨rfl, rfl⟩

theorem lostRecord_outside (released : Nat) (x : PathRecord) :
    (lostRecord false released x).state = .failed ∧ (lostRecord false released x).closeOwed = x.closeOwed :=
  failedRecord_state .fixtureLost x

theorem lostRecord_forming (released : Nat) (h : x.state = .forming) :
    (lostRecord true released x).state = .failed ∧ (lostRecord true released x).closeOwed = true ∧
      (lostRecord true released x).closeOwedCause = x.closeOwedCause.or (some .fixtureLoss) := by
  have hrecord : lostRecord true released x =
      { failedRecord .fixtureLost x with
        closeOwed := true
        closeOwedCause := (failedRecord .fixtureLost x).closeOwedCause.or (some .fixtureLoss) } := if_pos h
  rw [hrecord, failedRecord_fails (by rw [h]; nofun)]
  exact ⟨rfl, rfl, rfl⟩

theorem lostRecord_formed (released : Nat) (h : x.state ≠ .forming) (hlive : x.state ≠ .failed) :
    (lostRecord true released x).state = .closing ∧ (lostRecord true released x).prior = some .failed ∧
      (lostRecord true released x).priorLegs = x.legsDone := by
  have hrecord : lostRecord true released x =
      { failedRecord .fixtureLost x with
        state := .closing, prior := some .failed, priorLegs := (failedRecord .fixtureLost x).legsDone
        settleTimer := none, closeOwed := false, closeOwedCause := none, legsDone := released } := if_neg h
  rw [hrecord, failedRecord_fails hlive]
  exact ⟨rfl, rfl, rfl⟩

theorem FailedByUnseat.ne_failed {p : Slot} (h : FailedByUnseat s n p) : (s.path p).state ≠ .failed := by
  rcases h.2 with hstate | hstate | hstate <;> rw [hstate] <;> nofun

/-- R119, R121: with no change cancelled, the paths that end at the port lose their fixture. -/
theorem unseat_fails (h : ∀ e ∈ s.queue, e.active = false → ∀ p, e.new = some p → s.slotEndsAt p n = false) :
    unseat n s =
      noteFixture { fixture := n, seated := false, failedSlots := slotsMap (lostSlots n s), cancelledSlots := 0 }
        (loseAll (lostSlots n s) s) := by
  have hnone : lostEntries n s = [] := by
    rw [lostEntries_eq]
    refine List.filter_eq_nil_iff.mpr fun e he hlost => ?_
    obtain ⟨hwaits, p, hnew, hends⟩ := (lostEntry_iff n s e).mp hlost
    exact Bool.false_ne_true ((h e he hwaits p hnew).symm.trans hends)
  have hall : cancelAll [] s = s := rfl
  unfold unseat
  dsimp only
  rw [hnone, hall, List.filterMap_nil, slotsMap_nil]
  rfl

theorem path_seatTaken (n : FixtureId) (level : Bool) (k : Nat) (s : State) (p : Slot) :
    (seatTaken n level k s).path p = (s.elapse k).path p := rfl

theorem route_seatTaken (n : FixtureId) (level : Bool) (k : Nat) (s : State) (p : Slot) :
    ((seatTaken n level k s).path p).route = (s.path p).route := by rw [path_seatTaken, path_elapse]

theorem seatTaken_keeps (n : FixtureId) (level : Bool) (k : Nat) (s : State) :
    (seatTaken n level k s).routes = s.routes ∧ (seatTaken n level k s).banks = s.banks := ⟨rfl, rfl⟩

theorem slotEndsAt_seatTaken (n : FixtureId) (level : Bool) (k : Nat) (s : State) (p : Slot) :
    (seatTaken n level k s).slotEndsAt p n = s.slotEndsAt p n :=
  slotEndsAt_of_path (route_seatTaken n level k s p) (seatTaken_keeps n level k s).1

theorem failedByUnseat_seatTaken (n : FixtureId) (level : Bool) (k : Nat) (s : State) (p : Slot) :
    FailedByUnseat (seatTaken n level k s) n p ↔ FailedByUnseat s n p := by
  unfold FailedByUnseat
  rw [slotEndsAt_seatTaken, path_seatTaken, path_elapse]

theorem lostBreak_seatTaken (n : FixtureId) (level : Bool) (k : Nat) (s : State) (p : Slot) :
    lostBreak (seatTaken n level k s) p = lostBreak s p :=
  (route_reads (route_seatTaken n level k s p) (seatTaken_keeps n level k s).1 (seatTaken_keeps n level k s).2).2

end Lost

/-- R116, R139: the debounced change of the door. -/
theorem doorChange {s : State} {k : Nat} (hs : s.inReset = false) (hdoor : s.chamber.door.timer = some k) :
    ∃ t : State, exec .doorDebouncedChange s = .next t ∧
      t.chamber.door = { level := s.chamber.door.level, debounced := s.chamber.door.level, timer := none } ∧
      (s.chamber.door.level = true →
        t.safe = { (s.elapse k).safe with causes := s.safe.causes &&& ~~~2#5 } ∧ t.queue = s.queue) ∧
      (s.chamber.door.level = false → s.safe.state = .normal →
        t.safe =
          { state := .grace, causes := s.safe.causes ||| 2#5, grace := some (s.settings.muteGrace * 100)
            resetPending := s.safe.resetPending }) ∧
      (s.chamber.door.level = false → s.safe.state ≠ .normal →
        t.safe = { (s.elapse k).safe with causes := s.safe.causes ||| 2#5 } ∧ t.queue = s.queue) := by
  have hexec := exec_doorDebouncedChange hs hdoor
  cases hlevel : s.chamber.door.level with
  | true =>
    rw [if_pos hlevel, removeCause_door] at hexec
    refine ⟨_, hexec, ?_, fun _ => ⟨rfl, rfl⟩, nofun, nofun⟩
    rw [← hlevel]
    rfl
  | false =>
    rw [if_neg (by rw [hlevel]; exact Bool.false_ne_true)] at hexec
    have hchamber := chamber_addCause .door (doorTaken k s)
    refine ⟨_, hexec, ?_, nofun, fun _ hnormal => ?_, fun _ houtside => ?_⟩
    · show (addCause .door (doorTaken k s)).chamber.door = _
      rw [hchamber, ← hlevel]
      rfl
    · exact (normal_causeJoins (causeJoins_addCause .door (doorTaken k s)) hnormal).1
    · rw [addCause_outside .door (s := doorTaken k s) houtside]
      exact ⟨rfl, rfl⟩

/-! ## The unseat that cancels, as the obligation states it (R35, R55, R95, R118) -/

section Cancels

variable {s : State} {n : FixtureId} {k : Nat} {e : Entry} {p : Slot} {before after : List Entry}

theorem OneLost.seatTaken (h : OneLost n s before after e p) (level : Bool) (k : Nat) :
    OneLost n (seatTaken n level k s) before after e p :=
  ⟨h.queue, h.waits, h.new, (slotEndsAt_seatTaken n level k s p).trans h.ends,
    fun q hq => (slotEndsAt_seatTaken n level k s q).trans (h.alone q hq), h.others⟩

/-- R35: the record of the old slot of a cancelled SWAP, of which only the settle timer has moved on. -/
theorem restoredTo_elapsed {x : PriorState} (hx : x ≠ .failed) (r : RouteRecord) (y : PathRecord) (m : Option Nat) :
    restoredTo x r { y with settleTimer := m } =
      if x = .settling then
        { y with state := .settling, settleTimer := some (r.extraSettle * 10), legsDone := r.legs.length }
      else { y with state := .live, settleTimer := m, legsDone := r.legs.length } := by
  cases x with
  | settling => rfl
  | live => rfl
  | failed => exact absurd rfl hx

/-- R55, R84: the sequencer's one record of the entry leaves its pending list. -/
theorem changes_noticeTaken {w : State} {st : Station} {c : PendingChange} (h : NoticeTaken e s w)
    (horigin : e.origin = .sequencer st) (hnew : e.new = some p) (hchanges : (s.run st).changes = [c])
    (hc : c.new = some p) : (w.run st).changes = [] := by
  have hrun := congrArg (fun q : Sequencer => q.run.changes) (h st)
  have hw : (w.run st).changes = if e.origin = .sequencer st then
      (s.run st).changes.filter fun c => decide (¬ RecordOf e c) else (s.run st).changes := hrun
  have hrecord : RecordOf e c := .inl ⟨by rw [hnew]; nofun, hc.trans hnew.symm⟩
  rw [hw, if_pos horigin, hchanges]
  exact List.filter_cons_of_neg (by rw [decide_eq_true_iff]; exact not_not.mpr hrecord)

end Cancels

/-! ## The unseat that fails paths, as the obligation states it (R119, R121) -/

section Fails

variable {s : State} {n : FixtureId} {k : Nat} {p : Slot}

/-- R119: the state that an unseat leaves where it cancels nothing. -/
def unseatedPaths (n : FixtureId) (k : Nat) (s : State) : State :=
  loseAll (lostSlots n (seatTaken n false k s)) (seatTaken n false k s)

theorem unseatedPaths_spec (n : FixtureId) (k : Nat) (s : State) :
    LossKeeps (seatTaken n false k s) (unseatedPaths n k s) ∧
      (∀ q, (unseatedPaths n k s).path q =
        if q ∈ lostSlots n (seatTaken n false k s) then
          lostRecord (seatTaken n false k s).isNormal ((seatTaken n false k s).legsReleased q) ((s.elapse k).path q)
        else (s.elapse k).path q) ∧
      (unseatedPaths n k s).queue =
        s.queue ++
          if (seatTaken n false k s).isNormal = true then
            (brokenOf (seatTaken n false k s) (lostSlots n (seatTaken n false k s))).map
              (lostBreak (seatTaken n false k s))
          else [] :=
  loseAll_spec ((pairwise_lostSlots n _).imp fun h => (Fin.ne_of_lt h)) (seatTaken n false k s)

theorem mem_lostSlots_seatTaken (n : FixtureId) (k : Nat) (s : State) (p : Slot) :
    p ∈ lostSlots n (seatTaken n false k s) ↔ FailedByUnseat s n p :=
  (mem_lostSlots n _ p).trans (failedByUnseat_seatTaken n false k s p)

theorem path_unseatedPaths_lost (h : FailedByUnseat s n p) :
    (unseatedPaths n k s).path p =
      lostRecord (seatTaken n false k s).isNormal ((seatTaken n false k s).legsReleased p) ((s.elapse k).path p) := by
  rw [(unseatedPaths_spec n k s).2.1, if_pos ((mem_lostSlots_seatTaken n k s p).mpr h)]

theorem path_unseatedPaths_same (h : ¬ FailedByUnseat s n p) :
    (unseatedPaths n k s).path p = (s.elapse k).path p := by
  rw [(unseatedPaths_spec n k s).2.1, if_neg (mt (mem_lostSlots_seatTaken n k s p).mp h)]

theorem isNormal_seatTaken (n : FixtureId) (k : Nat) (s : State) :
    (seatTaken n false k s).isNormal = s.isNormal := rfl

theorem queue_unseatedPaths (hnormal : s.safe.state = .normal) :
    (unseatedPaths n k s).queue =
      s.queue ++ (brokenOf (seatTaken n false k s) (lostSlots n (seatTaken n false k s))).map (lostBreak s) := by
  have hbreak : lostBreak (seatTaken n false k s) = lostBreak s := funext fun p => lostBreak_seatTaken n false k s p
  rw [(unseatedPaths_spec n k s).2.2, isNormal_seatTaken, if_pos ((isNormal_iff s).mpr hnormal), hbreak]

theorem mem_brokenOf_seatTaken (n : FixtureId) (k : Nat) (s : State) (p : Slot) :
    p ∈ brokenOf (seatTaken n false k s) (lostSlots n (seatTaken n false k s)) ↔
      FailedByUnseat s n p ∧ (s.path p).state ≠ .forming := by
  rw [brokenOf, List.mem_filter, mem_lostSlots_seatTaken, decide_eq_true_iff, path_seatTaken, path_elapse]

end Fails

/-- Settles O59, by the input whose level or debounced state changes. -/
theorem chamberInputs : Obligations.ChamberInputs := by
  intro s hs
  refine ⟨fun n closed => ⟨fun hsame => ?seatSame, fun hchanged => ?seatLevel⟩,
    fun closed => ⟨fun hsame => ?doorSame, fun hchanged => ?doorLevel⟩, fun k hdoor hopen => ?opens,
    fun k hdoor => doorChange hs hdoor,
    fun n k hseat => ⟨fun hlevel => ?seats,
      fun hlevel before after e p hqueue hwaits hnew hends halone hothers hforms => ?cancels,
      fun hlevel hnone => ?fails⟩⟩
  case seatSame =>
    rw [exec_inputLevelChange _ _ hs, changeLevel, setLevel_same hsame, setSeat_self]
  case seatLevel => rw [exec_inputLevelChange _ _ hs, changeLevel, setLevel_changed hchanged]
  case doorSame =>
    rw [exec_inputLevelChange _ _ hs, changeLevel, setLevel_same hsame]
    rfl
  case doorLevel => rw [exec_inputLevelChange _ _ hs, changeLevel, setLevel_changed hchanged]
  case opens =>
    have hexec := exec_doorDebouncedChange hs hdoor
    rw [if_neg (by rw [hopen]; exact Bool.false_ne_true)] at hexec
    have htaken : (s.elapse k).setDoor { level := false, debounced := false, timer := none } = doorTaken k s := by
      rw [doorTaken, hopen]
    refine ⟨_, hexec, ?_⟩
    rw [htaken]
    exact causeJoins_addCause .door (doorTaken k s)
  case seats =>
    have hexec := exec_seatDebouncedChange hs hseat hlevel
    rw [if_pos rfl] at hexec
    exact ⟨_, hexec, seat_setSeat n _ (s.elapse k), rfl, rfl, rfl, rfl, rfl, rfl⟩
  case cancels =>
    have hlost : OneLost n (seatTaken n false k s) before after e p :=
      (⟨hqueue, hwaits, hnew, hends, halone, hothers⟩ : OneLost n s before after e p).seatTaken false k
    have hexec := exec_seatDebouncedChange hs hseat hlevel
    rw [if_neg Bool.false_ne_true, hlost.unseat hforms] at hexec
    have hcancelled := cancelled_cancelEntry e (seatTaken n false k s)
    obtain ⟨hfree, hfreed, -⟩ := path_cancelEntry (seatTaken n false k s) hforms hnew
    have hseat' : (cancelEntry e (seatTaken n false k s)).chamber = (seatTaken n false k s).chamber :=
      congrArg (fun x => x.2.1) (fixed_cancelEntry (seatTaken n false k s) e)
    have hqueue' : (cancelEntry e (seatTaken n false k s)).queue = before ++ after :=
      (queue_cancelEntry e _).trans hlost.erase
    refine ⟨_, hexec, ⟨_, hcancelled, rfl⟩, ?_, hfree, hqueue', flagSet_raise _ _ .fixture hfreed,
      flagSet_raise_self _ _, rfl, fun hkind => ?make, fun o r x hkind hold hroute hprior hx => ?swap⟩
    · show (cancelEntry e (seatTaken n false k s)).chamber.seats.get n = _
      rw [hseat']
      exact seat_setSeat n _ (s.elapse k)
    case make =>
      obtain ⟨-, hothers', -, hbanks, -⟩ := makeCancelled_cancelEntry e (seatTaken n false k s) p hkind hnew
      exact ⟨hothers', hbanks⟩
    case swap =>
      have hne : o ≠ p := by
        rcases hforms with hmake | ⟨-, o', hold', hne'⟩
        · rw [hkind] at hmake
          cases hmake
        · rw [hold] at hold'
          cases hold'
          exact hne'
      have hroute' : ((seatTaken n false k s).path o).route = some r := (route_seatTaken n false k s o).trans hroute
      have hprior' : ((seatTaken n false k s).path o).prior = some x := by
        rw [path_seatTaken, path_elapse]
        exact hprior
      obtain ⟨-, hold'', hothers', -, hbanks, hcurrents⟩ :=
        swapCancelled_cancelEntry e (seatTaken n false k s) o p r x hkind hold hnew hne hroute' hprior'
      refine ⟨?_, fun q hqo hqp => hothers' q hqo hqp, hbanks, fun st horigin ⟨c, hchanges, hc⟩ hcurrent => ⟨?_, ?_⟩⟩
      · rw [path_seatTaken, path_elapse, restoredTo_elapsed hx] at hold''
        rw [path_elapse]
        exact hold''
      · exact changes_noticeTaken hcancelled.2.2.1 horigin hnew hchanges hc
      · exact (hcurrents st e.plane).trans ((if_pos (.inl hcurrent)).trans (if_pos ⟨horigin, rfl⟩))
  case fails =>
    have hexec := exec_seatDebouncedChange hs hseat hlevel
    rw [if_neg Bool.false_ne_true, unseat_fails fun e he hwaits p hnew =>
      (slotEndsAt_seatTaken n false k s p).trans (hnone e he hwaits p hnew)] at hexec
    have hexec' : exec (.seatDebouncedChange n) s =
        .next (react (noteFixture
          { fixture := n, seated := false, failedSlots := slotsMap (lostSlots n (seatTaken n false k s))
            cancelledSlots := 0 } (unseatedPaths n k s))).driveOutputs := hexec
    obtain ⟨hkeeps, -, hqueue⟩ := unseatedPaths_spec n k s
    have hpath : ∀ p, FailedByUnseat s n p → _ := fun p hp => path_unseatedPaths_lost (k := k) hp
    have hsame : ∀ p, ¬ FailedByUnseat s n p → _ := fun p hp => path_unseatedPaths_same (k := k) hp
    have hbroken : s.safe.state = .normal → _ := fun hnormal => queue_unseatedPaths (n := n) (k := k) hnormal
    have hbanks : (unseatedPaths n k s).banks = s.banks := hkeeps.banks.trans (seatTaken_keeps n false k s).2
    have hseat' : (unseatedPaths n k s).chamber.seats.get n =
        { level := false, debounced := false, timer := none } := by
      rw [hkeeps.chamber]
      exact seat_setSeat n _ (s.elapse k)
    have hstate : ∀ p, ((s.elapse k).path p).state = (s.path p).state := fun p => by rw [path_elapse]
    have hlive : ∀ p, FailedByUnseat s n p → ((s.elapse k).path p).state ≠ .failed := fun p hp => by
      rw [hstate]
      exact hp.ne_failed
    have hbits : ∀ p : Slot, (slotsMap (lostSlots n (seatTaken n false k s))).getLsbD p.1 = true ↔
        FailedByUnseat s n p := fun p => (getLsbD_slotsMap _ p).trans (mem_lostSlots_seatTaken n k s p)
    generalize unseatedPaths n k s = w at hexec' hqueue hpath hsame hbroken hbanks hseat'
    generalize slotsMap (lostSlots n (seatTaken n false k s)) = m at hexec' hbits
    refine ⟨_, { fixture := n, seated := false, failedSlots := m, cancelledSlots := 0 }, hexec', hseat', hbanks,
      flagSet_raise_self _ _, rfl, rfl, rfl, rfl, hbits, hsame,
      fun p hp => ?record, fun houtside => ?outside, fun hnormal => ?normal⟩
    case record =>
      obtain ⟨hfailure, htimer⟩ := lostRecord_fails (seatTaken n false k s).isNormal
        ((seatTaken n false k s).legsReleased p) (hlive p hp)
      rw [← hpath p hp, path_elapse] at hfailure
      rw [← hpath p hp] at htimer
      exact ⟨hfailure, htimer⟩
    case outside =>
      have hoff : (seatTaken n false k s).isNormal = false := decide_eq_false houtside
      refine ⟨?_, fun p hp => ?_⟩
      · rw [hoff, if_neg Bool.false_ne_true, List.append_nil] at hqueue
        exact hqueue
      · obtain ⟨hfailed, howed⟩ := lostRecord_outside ((seatTaken n false k s).legsReleased p) ((s.elapse k).path p)
        have hlost := hpath p hp
        rw [hoff] at hlost
        rw [← hlost] at hfailed howed
        rw [path_elapse] at howed
        exact ⟨hfailed, howed⟩
    case normal =>
      have hon : (seatTaken n false k s).isNormal = true := (isNormal_iff s).mpr hnormal
      refine ⟨fun p hp hforming => ?_, fun p hp hformed => ?_, brokenOf (seatTaken n false k s)
        (lostSlots n (seatTaken n false k s)), mem_brokenOf_seatTaken n k s, (pairwise_lostSlots n _).filter _,
        hbroken hnormal⟩
      · obtain ⟨hfailed, howed, hcause⟩ := lostRecord_forming ((seatTaken n false k s).legsReleased p)
          ((hstate p).trans hforming)
        have hlost := hpath p hp
        rw [hon] at hlost
        rw [← hlost] at hfailed howed hcause
        rw [path_elapse] at hcause
        exact ⟨hfailed, howed, hcause⟩
      · obtain ⟨hclosing, hprior, hlegs⟩ := lostRecord_formed ((seatTaken n false k s).legsReleased p)
          (by rw [hstate]; exact hformed) (hlive p hp)
        have hlost := hpath p hp
        rw [hon] at hlost
        rw [← hlost] at hclosing hprior hlegs
        rw [path_elapse] at hlegs
        exact ⟨hclosing, hprior, hlegs⟩

end Sys2Proof.Machine
end

section
/-! PROOF. Hardware reset and its end (R2, R116, R122 to R124, R139). -/

namespace Sys2Proof.Machine

/-! ## The last fixture change record stands through a safe entry (R121) -/

section LastFixture

variable {s w : State}

theorem lastFixture_freeSlot (p : Slot) (s : State) :
    (freeSlot p s).events.lastFixture = s.events.lastFixture := by simp [freeSlot, State.raise]

theorem lastFixture_undoAcceptance (e : Entry) (s : State) :
    (undoAcceptance e s).events.lastFixture = s.events.lastFixture := by
  unfold undoAcceptance
  split
  · rw [lastFixture_freeSlot, events_mapBanks]
  · rfl
  · rw [events_setPath, lastFixture_freeSlot, returnBanks, events_mapBanks]
  · rfl

theorem lastFixture_cancelAll (es : List Entry) (s : State) :
    (cancelAll es s).events.lastFixture = s.events.lastFixture := by
  induction es generalizing s with
  | nil => rfl
  | cons e rest ih =>
    have hfirst : (cancelEntry e s).events.lastFixture = s.events.lastFixture := by
      rw [(rest_cancelEntry e s).2.2, lastFixture_undoAcceptance]
    exact (ih (cancelEntry e s)).trans hfirst

theorem lastFixture_failSlot (p : Slot) (why : FailReason) (s : State) :
    (failSlot p why s).events.lastFixture = s.events.lastFixture := by
  unfold failSlot
  dsimp only
  split <;> rfl

theorem lastFixture_freeOpt (p : Option Slot) (s : State) :
    (freeOpt p s).events.lastFixture = s.events.lastFixture := by
  cases p with
  | none => rfl
  | some p => exact lastFixture_freeSlot p s

theorem lastFixture_failPaths (e : Entry) (s : State) :
    (failPaths e s).events.lastFixture = s.events.lastFixture := by
  unfold failPaths
  repeat' split
  all_goals simp only [lastFixture_failSlot, lastFixture_freeOpt]

theorem lastFixture_failEntry (e : Entry) (why : EntryFailure) (b : Option BankId) (s : State) :
    (failEntry e why b s).events.lastFixture = s.events.lastFixture := by
  have hfailed : (failedState e why b s).events.lastFixture = s.events.lastFixture :=
    (congrArg EventUnit.lastFixture (events_failedState e why b s)).trans
      (lastFixture_failPaths e (clearHeld e.plane s))
  cases hn : e.new with
  | none =>
    rw [failEntry_old why b s hn]
    exact hfailed
  | some n =>
    rw [failEntry_new why b s hn, (applyCloseOwed_keeps n _).1]
    exact hfailed

theorem lastFixture_failIdleHead (pl : Plane) (s : State) :
    (failIdleHead pl s).events.lastFixture = s.events.lastFixture := by
  rcases failIdleHead_cases pl s with ⟨e, -, hfails⟩ | hstill
  · rw [hfails, lastFixture_failEntry]
  · rw [hstill]

theorem lastFixture_causeJoins {m : BitVec 5} (h : CauseJoins m s w) :
    w.events.lastFixture = s.events.lastFixture := by
  by_cases hnormal : s.safe.state = .normal
  · obtain ⟨p, q, -, rfl⟩ := safelyEntered_orders (h.1 hnormal)
    have hstart : (WaitingGone (s.safe.causes ||| m) s).events.lastFixture = s.events.lastFixture :=
      (lastFixture_cancelAll _ _).trans rfl
    rw [lastFixture_failIdleHead, lastFixture_failIdleHead, hstart]
  · rw [h.2 hnormal]
    rfl

end LastFixture

/-! ## Hardware reset (R2) -/

theorem exec_hardwareReset (s : State) : exec .hardwareReset s = .next (resetAll s).driveOutputs := rfl

/-- The outputs are deasserted at hardware reset: the state is NORMAL, with no summary set. -/
theorem driveOutputs_resetAll (s : State) : (resetAll s).driveOutputs = resetAll s := by
  have hmute : (resetAll s).muteDue = false := rfl
  have halert : (resetAll s).alertDue = false := by
    show (decide ((0 : KindSet) &&& 63 ≠ 0) || !decide (SafeState.normal = .normal)) = false
    decide
  unfold State.driveOutputs
  rw [hmute, halert]
  rfl

/-! ## The end of hardware reset (R116, R122 to R124, R139) -/

section ResetEnd

variable {s : State}

/-- R116: the part is out of reset, and its debounced states are the levels. -/
def outOfReset (s : State) : State := { s with inReset := false, chamber := s.chamber.sampled }

theorem exec_hardwareResetEnd (hs : s.inReset = true) :
    exec .hardwareResetEnd s =
      .next (if s.chamber.door.level then startCycle (outOfReset s)
        else addCause .door (startCycle (outOfReset s))).driveOutputs := by
  have hexec : exec .hardwareResetEnd s = .next (if s.inReset then leaveReset s else s).driveOutputs := rfl
  have hdoor : (startCycle (outOfReset s)).chamber.door.debounced = s.chamber.door.level := by
    rw [(onlyCycles_startCycle (outOfReset s)).1]
    rfl
  have hleave : leaveReset s =
      if s.chamber.door.level then startCycle (outOfReset s) else addCause .door (startCycle (outOfReset s)) := by
    rw [← hdoor]
    rfl
  rw [hexec, if_pos hs, hleave]

theorem sameBanks_outOfReset (s : State) : SameBanks s (outOfReset s) := ⟨fun _ => rfl, fun _ => rfl, rfl, rfl⟩

theorem seat_outOfReset (s : State) (n : FixtureId) :
    (outOfReset s).chamber.seats.get n =
      { level := (s.chamber.seats.get n).level, debounced := (s.chamber.seats.get n).level, timer := none } := by
  show (s.chamber.seats.map DebouncedInput.settleLevel).get n = _
  have hmap : (s.chamber.seats.map DebouncedInput.settleLevel).get n = (s.chamber.seats.get n).settleLevel :=
    Vector.getElem_map _ _
  rw [hmap]
  rfl

theorem elapsed_seekVisit {n : Nat} (h : s.sup.elapsed = 0) : (seekVisit n s).sup.elapsed = 0 := by
  unfold seekVisit
  split
  · exact h
  · unfold endCycle
    dsimp only
    split
    · exact h
    · split
      · exact h
      · rfl

/-- R123: a cycle that starts has its interval timer at 0. -/
theorem startCycle_elapsed (s : State) : (startCycle s).sup.elapsed = 0 := elapsed_seekVisit rfl

theorem visit_endCycle (s : State) : (endCycle s).sup.visit = none := by
  unfold endCycle
  dsimp only
  repeat' split
  all_goals rfl

/-- R124: a cycle that starts with no bank to visit makes no visit. -/
theorem startCycle_noVisit (hnone : ∀ b, (s.bank b).fitted = false ∨ s.inFlight b = true) :
    (startCycle (outOfReset s)).sup.visit = none := by
  have hnext : VisitsNone 0 (outOfReset s) := (sameBanks_outOfReset s).visitsNone fun y _ => hnone y
  unfold startCycle
  rw [seekVisit_ends]
  · exact visit_endCycle _
  · exact hnext

end ResetEnd

/-- What stands of the state out of reset once its first cycle has started, and DOOR has joined where the door is
open. -/
structure ResetLeft (s u : State) : Prop where
  sup : u.sup = (startCycle (outOfReset s)).sup
  fixed : u.fixed = (startCycle (outOfReset s)).fixed
  lastFixture : u.events.lastFixture = s.events.lastFixture
  closed : s.chamber.door.level = true → u = startCycle (outOfReset s)
  opened : s.chamber.door.level = false → CauseJoins 2#5 (startCycle (outOfReset s)) u

theorem resetLeft_leave (s : State) :
    ResetLeft s (if s.chamber.door.level then startCycle (outOfReset s)
      else addCause .door (startCycle (outOfReset s))) := by
  have hframe := (onlyCycles_startCycle (outOfReset s)).1
  have hevents : (startCycle (outOfReset s)).events.lastFixture = s.events.lastFixture := by
    rw [hframe]
    rfl
  cases hlevel : s.chamber.door.level with
  | true =>
    rw [if_pos rfl]
    exact ⟨rfl, rfl, hevents, fun _ => rfl, fun h => absurd (hlevel.symm.trans h) (by decide)⟩
  | false =>
    rw [if_neg Bool.false_ne_true]
    have hjoins := causeJoins_addCause .door (startCycle (outOfReset s))
    exact ⟨sup_causeJoins hjoins, fixed_addCause _ _, (lastFixture_causeJoins hjoins).trans hevents,
      fun h => absurd (hlevel.symm.trans h) (by decide), fun _ => hjoins⟩

/-- Settles O60: the reset values by evaluation, the end of reset by `ResetLeft`. -/
theorem hardwareResetStatement : Obligations.HardwareResetStatement := by
  intro s
  refine ⟨?reset, fun hs => ?frame, fun hs => ?fields, fun hs => ?out⟩
  case reset =>
    rw [exec_hardwareReset, driveOutputs_resetAll]
    rfl
  case frame =>
    have hleft := resetLeft_leave s
    have hexec := exec_hardwareResetEnd hs
    generalize (if s.chamber.door.level then startCycle (outOfReset s)
      else addCause .door (startCycle (outOfReset s))) = u at hleft hexec
    obtain ⟨hframe, hjudged⟩ := onlyCycles_startCycle (outOfReset s)
    simp only [Supervision.judged, Prod.mk.injEq] at hjudged
    obtain ⟨hcounters, hfaults, hsummaries, hsamples⟩ := hjudged
    have hv : startCycle (outOfReset s) = { outOfReset s with sup := u.sup } := by rw [hleft.sup]; exact hframe
    refine ⟨_, u, hexec, rfl, ?_, fun hlevel => (hleft.closed hlevel).trans hv, fun hlevel => ?_⟩
    · rw [← hleft.sup] at hcounters hfaults hsummaries hsamples
      refine (supervision_of_judged hcounters hfaults hsummaries).trans ?_
      rw [hsamples]
      rfl
    · have hjoins := hleft.opened hlevel
      rw [hv] at hjoins
      exact hjoins
  case fields =>
    have hleft := resetLeft_leave s
    have hexec := exec_hardwareResetEnd hs
    generalize (if s.chamber.door.level then startCycle (outOfReset s)
      else addCause .door (startCycle (outOfReset s))) = u at hleft hexec
    have hframe := (onlyCycles_startCycle (outOfReset s)).1
    have hfixed : u.fixed = (outOfReset s).fixed := hleft.fixed.trans (by rw [hframe]; rfl)
    have hchamber : u.chamber = (outOfReset s).chamber := congrArg (fun x => x.2.1) hfixed
    have hsettings' : u.settings = (outOfReset s).settings := settings_of_fixed hfixed
    have hsame := sameBanks_outOfReset s
    refine ⟨_, hexec, congrArg (fun x => x.1.1) hfixed, fun n => ?_, ?_, hleft.lastFixture, ?_,
      hsettings', fun hinterval => ?_, fun b hfitted hflight hfirst => ?_,
      fun hnone => ⟨?_, fun hinterval => ?_⟩, fun hlevel => ?_, fun hlevel hnormal => ?_⟩
    · show u.chamber.seats.get n = _
      rw [hchamber]
      exact seat_outOfReset s n
    · show u.chamber.door = _
      rw [hchamber]
      rfl
    · show u.sup.elapsed = 0
      rw [hleft.sup]
      exact startCycle_elapsed _
    · show u.sup.running = true
      rw [hleft.sup]
      exact (startCycle_running (outOfReset s) hinterval).2
    · show u.sup.cycle = _ ∧ u.sup.position = _ ∧ u.sup.visit = _
      rw [hleft.sup]
      exact startCycle_some hsame hfitted hflight hfirst
    · show u.sup.visit = _
      rw [hleft.sup]
      exact startCycle_noVisit hnone
    · show u.sup.cycle = _
      rw [hleft.sup]
      exact (startCycle_none hsame hinterval hnone).1
    · rw [hleft.closed hlevel, hframe]
      exact ⟨rfl, rfl, rfl, rfl, rfl⟩
    · have hsafe : (startCycle (outOfReset s)).safe = s.safe := by
        rw [hframe]
        rfl
      have hsettings : (startCycle (outOfReset s)).settings = s.settings := by
        rw [hframe]
        rfl
      have hentered := normal_causeJoins (hleft.opened hlevel) (by rw [hsafe]; exact hnormal)
      rw [hsafe, hsettings] at hentered
      exact hentered
  case out =>
    have hexec : exec .hardwareResetEnd s = .next (if s.inReset then leaveReset s else s).driveOutputs := rfl
    rw [hexec, if_neg (by rw [hs]; exact Bool.false_ne_true)]

end Sys2Proof.Machine
end

section
/-! PROOF. CLEAR_FAULTS (R131 to R135, R143): the pairs of a bank and a kind are cleared one after another, and
`ClearedSoFar` says what stands after the kinds `done b` of each bank `b`. -/

namespace Sys2Proof.Machine

/-! ## Sets of kinds (R131) -/

section Kinds

theorem kindIn_insert (j k : FaultKind) (d : KindSet) : kindIn j (kindInsert k d) = (kindIn j d || decide (j = k)) := by
  by_cases h : j = k
  · subst h
    cases j <;> simp [kindIn, kindInsert, FaultKind.mask, FaultKind.bit]
  · rw [decide_eq_false h, Bool.or_false]
    exact kindIn_or_mask h d

theorem kindIn_erase (j k : FaultKind) (d : KindSet) : kindIn j (kindErase k d) = (kindIn j d && !decide (j = k)) := by
  have hmask : k.mask.getLsbD j.bit = decide (j = k) := by cases j <;> cases k <;> rfl
  have hlt : j.bit < 6 := by cases j <;> decide
  rw [kindIn, kindErase, BitVec.getLsbD_and, BitVec.getLsbD_not, hmask, decide_eq_true hlt, Bool.true_and]
  rfl

theorem kindIn_and_not (j : FaultKind) (d e : KindSet) : kindIn j (d &&& ~~~e) = (kindIn j d && !kindIn j e) := by
  have hlt : j.bit < 6 := by cases j <;> decide
  rw [kindIn, BitVec.getLsbD_and, BitVec.getLsbD_not, decide_eq_true hlt, Bool.true_and]
  rfl

theorem kindSet_ext {d e : KindSet} (h : ∀ j, kindIn j d = kindIn j e) : d = e := by
  refine BitVec.eq_of_getLsbD_eq fun i hi => ?_
  have hbit : ∀ i < 6, ∃ j ∈ allKinds, j.bit = i := by decide
  obtain ⟨j, -, rfl⟩ := hbit i hi
  exact h j

theorem kindIn_zero (j : FaultKind) : kindIn j 0 = false := by cases j <;> decide

end Kinds

/-! ## One pair (R132, R133) -/

section Pair

variable {b : BankId} {k : FaultKind} {s : State}

theorem faultValid_clearPair (b : BankId) (k : FaultKind) (s : State) (c : BankId) (j : FaultKind) :
    (clearPair b k s).faultValid c j = if c = b ∧ j = k then false else s.faultValid c j := by
  have hfaults : (clearPair b k s).faultsOf c = if c = b then kindErase k (s.faultsOf b) else s.faultsOf c :=
    faultsOf_setFaults s b c _
  unfold State.faultValid
  rw [hfaults]
  by_cases hc : c = b
  · rw [if_pos hc, kindIn_erase, hc]
    by_cases hj : j = k
    · rw [if_pos ⟨rfl, hj⟩, decide_eq_true hj, Bool.not_true, Bool.and_false]
    · rw [if_neg fun h => hj h.2, decide_eq_false hj, Bool.not_false, Bool.and_true]
  · rw [if_neg hc, if_neg fun h => hc h.1]

theorem counter_clearPair (b : BankId) (k : FaultKind) (s : State) (c : BankId) (j : FaultKind) :
    (clearPair b k s).counter c j = if c = b ∧ j = k then 0 else s.counter c j := by
  have hfaults : ∀ x, (s.setFaults b x).counter c j = s.counter c j := fun _ => rfl
  by_cases hk : k = .worn
  · have hsame : (clearPair b k s).counter c j = s.counter c j := by
      have hset := vector_get_set s.sup.counters b c (s.sup.counters.get b)
      rw [hk]
      show ((s.sup.counters.set b.1 (s.sup.counters.get b) b.2).get c).get j = (s.sup.counters.get c).get j
      rw [hset]
      split
      next hc => rw [hc]
      next => rfl
    rw [hsame]
    split
    next h =>
      rw [h.2, hk]
      rfl
    next => rfl
  · exact (counter_setCounter _ b c k j 0 hk).trans (by rw [hfaults])

end Pair

/-! ## What stands after some pairs (R132 to R135, R143) -/

/-- The kinds `d` of the bank have been cleared, the pair of the kind `j` with them: a DRIFT that is kept is not. -/
abbrev PairCleared (s : State) (d : KindSet) (b : BankId) (j : FaultKind) : Prop :=
  kindIn j d = true ∧ ¬ (j = .drift ∧ DriftRefused s b)

/-- The recorded position that a COIL clear reads, with DRIFT cleared before it or not (log 17). -/
def coilReads (s : State) (coilFirst drift : Bool) (b : BankId) : Position :=
  if coilFirst = true then (s.bank b).position else (driftCleared drift s b).position

/-- The bank once COIL, DRIFT or both have been cleared on it. -/
def bankCleared (s : State) (coilFirst coil drift : Bool) (b : BankId) : BankRecord :=
  { driftCleared drift s b with
    homeOwed :=
      (driftCleared drift s b).homeOwed || decide (CoilOwesAt coil s b (coilReads s coilFirst drift b)) }

/-- Those clears set home owed on the bank. -/
def OwesCleared (s : State) (coilFirst coil drift : Bool) (b : BankId) : Prop :=
  (drift = true ∧ DriftDue s b ∧ ¬ DriftRefused s b ∧ s.readback b ≠ some .term ∧ (s.bank b).holder = none) ∨
    CoilOwesAt coil s b (coilReads s coilFirst drift b)

/-- From `s`, the kinds `done b` have been cleared on each bank `b` in `x`, with the map of the banks whose DRIFT was
kept. -/
structure ClearedSoFar (s : State) (coilFirst : Bool) (done : BankId → KindSet) (x : BitVec 24 × State) : Prop where
  work : ClearWork s x.2
  sup : x.2.sup =
    { s.sup with summaries := x.2.sup.summaries, faults := x.2.sup.faults, counters := x.2.sup.counters }
  faults : ∀ b j, x.2.faultValid b j = (s.faultValid b j && !decide (PairCleared s (done b) b j))
  counters : ∀ b j, x.2.counter b j = if PairCleared s (done b) b j then 0 else s.counter b j
  banks : ∀ b, x.2.bank b = bankCleared s coilFirst (kindIn .coil (done b)) (kindIn .drift (done b)) b
  owing : s.safe.state = .safe →
    (∃ b, OwesCleared s coilFirst (kindIn .coil (done b)) (kindIn .drift (done b)) b) →
    x.2.safe = { s.safe with state := .teardown }
  still : ¬ (s.safe.state = .safe ∧
      ∃ b, OwesCleared s coilFirst (kindIn .coil (done b)) (kindIn .drift (done b)) b) →
    x.2.safe = s.safe
  kept : ∀ b : BankId, x.1.getLsbD b.1 = decide (kindIn .drift (done b) = true ∧ DriftRefused s b)

/-- The kinds cleared on one bank grow by `k`. -/
def moreDone (done : BankId → KindSet) (b : BankId) (k : FaultKind) (c : BankId) : KindSet :=
  if c = b then kindInsert k (done c) else done c

section Step

variable {s : State} {coilFirst : Bool} {done : BankId → KindSet} {x y : BitVec 24 × State} {b : BankId}
  {k : FaultKind}

theorem moreDone_self (done : BankId → KindSet) (b : BankId) (k : FaultKind) :
    moreDone done b k b = kindInsert k (done b) := if_pos rfl

theorem moreDone_other {c : BankId} (h : c ≠ b) : moreDone done b k c = done c := if_neg h

theorem pairCleared_moreDone (c : BankId) (j : FaultKind) :
    PairCleared s (moreDone done b k c) c j ↔
      PairCleared s (done c) c j ∨ (c = b ∧ j = k ∧ ¬ (k = .drift ∧ DriftRefused s b)) := by
  unfold PairCleared
  by_cases hc : c = b
  · subst hc
    rw [moreDone_self, kindIn_insert, Bool.or_eq_true, decide_eq_true_iff]
    constructor
    · rintro ⟨hin | rfl, hnot⟩
      · exact .inl ⟨hin, hnot⟩
      · exact .inr ⟨rfl, rfl, hnot⟩
    · rintro (⟨hin, hnot⟩ | ⟨-, rfl, hnot⟩)
      · exact ⟨.inl hin, hnot⟩
      · exact ⟨.inr rfl, hnot⟩
  · rw [moreDone_other hc]
    exact ⟨.inl, fun h => h.elim id fun ⟨heq, _⟩ => absurd heq hc⟩

/-- Home owed in SAFE is TEARDOWN (R143, log 16). -/
def owedSafe (z : SafeController) : SafeController := if z.state = .safe then { z with state := .teardown } else z

/-- One more pair: what clearing it does to its bank, its fault and counter, the Safe Controller and the kept map. -/
theorem ClearedSoFar.more (h : ClearedSoFar s coilFirst done x) {owes : Prop} (hwork : ClearWork x.2 y.2)
    (hsup : y.2.sup =
      { x.2.sup with summaries := y.2.sup.summaries, faults := y.2.sup.faults, counters := y.2.sup.counters })
    (hfaults : ∀ c j, y.2.faultValid c j =
      if c = b ∧ j = k ∧ ¬ (k = .drift ∧ DriftRefused s b) then false else x.2.faultValid c j)
    (hcounters : ∀ c j, y.2.counter c j =
      if c = b ∧ j = k ∧ ¬ (k = .drift ∧ DriftRefused s b) then 0 else x.2.counter c j)
    (hbank : ∀ c, c ≠ b → y.2.bank c = x.2.bank c)
    (hself : y.2.bank b =
      bankCleared s coilFirst (kindIn .coil (kindInsert k (done b))) (kindIn .drift (kindInsert k (done b))) b)
    (howes : OwesCleared s coilFirst (kindIn .coil (kindInsert k (done b))) (kindIn .drift (kindInsert k (done b))) b ↔
      OwesCleared s coilFirst (kindIn .coil (done b)) (kindIn .drift (done b)) b ∨ owes)
    (hsafe : owes → y.2.safe = owedSafe x.2.safe) (hsame : ¬ owes → y.2.safe = x.2.safe)
    (hkept : ∀ c : BankId, y.1.getLsbD c.1 =
      (x.1.getLsbD c.1 || decide (c = b ∧ k = .drift ∧ DriftRefused s b))) :
    ClearedSoFar s coilFirst (moreDone done b k) y := by
  have hexists : (∃ c, OwesCleared s coilFirst (kindIn .coil (moreDone done b k c))
        (kindIn .drift (moreDone done b k c)) c) ↔
      (∃ c, OwesCleared s coilFirst (kindIn .coil (done c)) (kindIn .drift (done c)) c) ∨ owes := by
    constructor
    · rintro ⟨c, hc⟩
      by_cases hcb : c = b
      · subst hcb
        rw [moreDone_self] at hc
        exact (howes.mp hc).imp (fun hold => ⟨c, hold⟩) id
      · rw [moreDone_other hcb] at hc
        exact .inl ⟨c, hc⟩
    · rintro (⟨c, hc⟩ | hnew)
      · by_cases hcb : c = b
        · subst hcb
          exact ⟨c, by rw [moreDone_self]; exact howes.mpr (.inl hc)⟩
        · exact ⟨c, by rw [moreDone_other hcb]; exact hc⟩
      · exact ⟨b, by rw [moreDone_self]; exact howes.mpr (.inr hnew)⟩
  refine ⟨h.work.trans hwork, ?_, fun c j => ?_, fun c j => ?_, fun c => ?_, fun hstate hany => ?_, fun hnone => ?_,
    fun c => ?_⟩
  · rw [hsup, h.sup]
  · rw [hfaults, h.faults, decide_eq_decide.mpr (pairCleared_moreDone c j)]
    by_cases hnew : c = b ∧ j = k ∧ ¬ (k = .drift ∧ DriftRefused s b)
    · rw [if_pos hnew, decide_eq_true (.inr hnew), Bool.not_true, Bool.and_false]
    · rw [if_neg hnew, decide_eq_decide.mpr (or_iff_left hnew)]
  · rw [hcounters, h.counters]
    by_cases hnew : c = b ∧ j = k ∧ ¬ (k = .drift ∧ DriftRefused s b)
    · rw [if_pos hnew, if_pos ((pairCleared_moreDone c j).mpr (.inr hnew))]
    · rw [if_neg hnew]
      by_cases hold : PairCleared s (done c) c j
      · rw [if_pos hold, if_pos ((pairCleared_moreDone c j).mpr (.inl hold))]
      · rw [if_neg hold, if_neg fun hboth => ((pairCleared_moreDone c j).mp hboth).elim hold hnew]
  · by_cases hcb : c = b
    · rw [hcb, moreDone_self, hself]
    · rw [hbank c hcb, moreDone_other hcb, h.banks]
  · by_cases hold : ∃ c, OwesCleared s coilFirst (kindIn .coil (done c)) (kindIn .drift (done c)) c
    · have hx := h.owing hstate hold
      have hx' : owedSafe x.2.safe = x.2.safe := by rw [hx]; rfl
      by_cases hnew : owes
      · rw [hsafe hnew, hx', hx]
      · rw [hsame hnew, hx]
    · have hnew : owes := (hexists.mp hany).resolve_left hold
      rw [hsafe hnew, h.still fun hboth => hold hboth.2]
      exact if_pos hstate
  · have hx := h.still fun ⟨hstate, hold⟩ => hnone ⟨hstate, hexists.mpr (.inl hold)⟩
    by_cases hnew : owes
    · have hstate : s.safe.state ≠ .safe := fun hstate => hnone ⟨hstate, hexists.mpr (.inr hnew)⟩
      rw [hsafe hnew, hx]
      exact if_neg hstate
    · rw [hsame hnew, hx]
  · rw [hkept, h.kept]
    by_cases hcb : c = b
    · subst hcb
      rw [moreDone_self, kindIn_insert]
      rw [← Bool.decide_or, decide_eq_decide, Bool.or_eq_true, decide_eq_true_iff]
      constructor
      · rintro (⟨hin, hr⟩ | ⟨-, hk, hr⟩)
        · exact ⟨.inl hin, hr⟩
        · exact ⟨.inr hk.symm, hr⟩
      · rintro ⟨hin | hk, hr⟩
        · exact .inl ⟨hin, hr⟩
        · exact .inr ⟨rfl, hk.symm, hr⟩
    · rw [moreDone_other hcb, decide_eq_false (fun hboth : c = b ∧ _ => hcb hboth.1), Bool.or_false]

theorem path_of_clearWork {s t : State} (h : ClearWork s t) (p : Slot) : t.path p = s.path p := by
  rw [h]
  rfl

theorem readback_of_clearWork {s t : State} (h : ClearWork s t) (c : BankId) : t.readback c = s.readback c := by
  rw [h]
  rfl

theorem inFlight_of_clearWork {s t : State} (h : ClearWork s t) (c : BankId) : t.inFlight c = s.inFlight c := by
  rw [h]
  rfl

theorem driftCleared_config (named : Bool) (s : State) (b : BankId) :
    (driftCleared named s b).fitted = (s.bank b).fitted ∧ (driftCleared named s b).holder = (s.bank b).holder := by
  unfold driftCleared
  split <;> exact ⟨rfl, rfl⟩

theorem driftCleared_false (s : State) (b : BankId) : driftCleared false s b = s.bank b :=
  if_neg fun h => Bool.false_ne_true h.1

theorem driftCleared_kept {named : Bool} (h : ¬ (DriftDue s b ∧ ¬ DriftRefused s b)) :
    driftCleared named s b = s.bank b :=
  if_neg fun hall => h hall.2

theorem driftCleared_resynced (h : DriftDue s b ∧ ¬ DriftRefused s b) : driftCleared true s b = resynced s b :=
  if_pos ⟨rfl, h⟩

theorem coilReads_kept (drift : Bool) (h : ¬ (DriftDue s b ∧ ¬ DriftRefused s b)) :
    coilReads s coilFirst drift b = (s.bank b).position := by
  unfold coilReads
  rw [driftCleared_kept h]
  exact ite_self _

/-- A bank whose fault `k` is not cleared yet still has it as in `s`. -/
theorem ClearedSoFar.faultValid_left (h : ClearedSoFar s coilFirst done x) (hk : kindIn k (done b) = false) :
    x.2.faultValid b k = s.faultValid b k := by
  rw [h.faults, decide_eq_false (fun hboth : PairCleared s (done b) b k => Bool.false_ne_true (hk ▸ hboth.1)),
    Bool.not_false, Bool.and_true]

theorem ClearedSoFar.bank_config (h : ClearedSoFar s coilFirst done x) (c : BankId) :
    (x.2.bank c).fitted = (s.bank c).fitted ∧ (x.2.bank c).holder = (s.bank c).holder := by
  rw [h.banks]
  exact driftCleared_config _ s c

/-- The DRIFT of the bank is not cleared yet: its recorded position is that of `s`. -/
theorem ClearedSoFar.position_left (h : ClearedSoFar s coilFirst done x) (hk : kindIn .drift (done b) = false) :
    (x.2.bank b).position = (s.bank b).position := by
  rw [h.banks, hk]
  show (driftCleared false s b).position = _
  rw [driftCleared_false]

/-! ### STRAY, POSITION, HOT and WORN -/

theorem bank_clearPair (b : BankId) (k : FaultKind) (s : State) (c : BankId) :
    (clearPair b k s).bank c = s.bank c := rfl

theorem safe_clearPair (b : BankId) (k : FaultKind) (s : State) : (clearPair b k s).safe = s.safe := rfl

theorem ClearedSoFar.more_plain (h : ClearedSoFar s coilFirst done x) (hcoil : k ≠ .coil) (hdrift : k ≠ .drift) :
    ClearedSoFar s coilFirst (moreDone done b k) (x.1, clearPair b k x.2) := by
  have hin : ∀ j, j ≠ k → kindIn j (kindInsert k (done b)) = kindIn j (done b) := fun j hj => by
    rw [kindIn_insert, decide_eq_false hj, Bool.or_false]
  have hnew : ∀ c j, (c = b ∧ j = k ∧ ¬ (k = .drift ∧ DriftRefused s b)) ↔ c = b ∧ j = k := fun c j =>
    ⟨fun hall => ⟨hall.1, hall.2.1⟩, fun hboth => ⟨hboth.1, hboth.2, fun hd => hdrift hd.1⟩⟩
  refine h.more (owes := False) (clearWork_clearPair b k x.2) rfl (fun c j => ?_) (fun c j => ?_) (fun _ _ => rfl) ?_ ?_
    False.elim (fun _ => rfl) fun c => ?_
  · rw [faultValid_clearPair, if_congr (hnew c j).symm rfl rfl]
  · rw [counter_clearPair, if_congr (hnew c j).symm rfl rfl]
  · rw [hin _ hcoil.symm, hin _ hdrift.symm]
    exact h.banks b
  · rw [hin _ hcoil.symm, hin _ hdrift.symm, or_false]
  · rw [decide_eq_false (fun hall : c = b ∧ k = .drift ∧ DriftRefused s b => hdrift hall.2.1), Bool.or_false]

/-! ### COIL (R135) -/

/-- Home owed set where `p` holds. -/
def oweIf (p : Bool) (b : BankId) (s : State) : State := if p = true then oweByClear b s else s

theorem oweByClear_eq (b : BankId) (s : State) :
    oweByClear b s = { s.setBank b { s.bank b with homeOwed := true } with safe := owedSafe s.safe } :=
  owedInSafe_eq (s.setHomeOwed b true)

theorem clearWork_oweIf (p : Bool) (b : BankId) (s : State) : ClearWork s (oweIf p b s) := by
  cases p with
  | true => exact clearWork_oweByClear b s
  | false => exact .refl s

theorem sup_oweIf (p : Bool) (b : BankId) (s : State) : (oweIf p b s).sup = s.sup := by
  cases p with
  | true =>
    show (oweByClear b s).sup = s.sup
    rw [oweByClear_eq]
    rfl
  | false => rfl

theorem safe_oweIf (p : Bool) (b : BankId) (s : State) :
    (oweIf p b s).safe = if p = true then owedSafe s.safe else s.safe := by
  cases p with
  | true => exact congrArg State.safe (oweByClear_eq b s)
  | false => rfl

theorem bank_oweIf_other {c : BankId} (p : Bool) (h : c ≠ b) (s : State) : (oweIf p b s).bank c = s.bank c := by
  cases p with
  | true =>
    show (oweByClear b s).bank c = _
    rw [oweByClear_eq]
    exact (bank_setBank s b c _).trans (if_neg h)
  | false => rfl

theorem bank_oweIf_self (p : Bool) (b : BankId) (s : State) :
    (oweIf p b s).bank b = { s.bank b with homeOwed := (s.bank b).homeOwed || p } := by
  cases p with
  | true =>
    show (oweByClear b s).bank b = _
    rw [oweByClear_eq, Bool.or_true]
    exact (bank_setBank s b b _).trans (if_pos rfl)
  | false => rw [Bool.or_false]; rfl

theorem faultValid_of_sup {s t : State} (h : t.sup = s.sup) (c : BankId) (j : FaultKind) :
    t.faultValid c j = s.faultValid c j := by
  unfold State.faultValid State.faultsOf
  rw [h]

theorem counter_of_sup {s t : State} (h : t.sup = s.sup) (c : BankId) (j : FaultKind) :
    t.counter c j = s.counter c j := by
  unfold State.counter
  rw [h]

/-- COIL is read before DRIFT is resynchronised on the bank, or after, as the order says. -/
theorem coilReads_eq {drift : Bool} (h : coilFirst = true → drift = false) (coil : Bool) :
    coilReads s coilFirst drift b = (bankCleared s coilFirst coil drift b).position := by
  cases coilFirst with
  | false => rfl
  | true =>
    rw [h rfl]
    exact (congrArg BankRecord.position (driftCleared_false s b)).symm

/-- What decides that the clear of COIL sets home owed. -/
def coilOwes (b : BankId) (s : State) : Bool :=
  s.breakSkipped b && (s.bank b).fitted && decide ((s.bank b).holder = none)

theorem clearCoil_eq (b : BankId) (s : State) : clearCoil b s = oweIf (coilOwes b s) b (clearPair b .coil s) := rfl

theorem coilOwes_iff (b : BankId) (s : State) :
    coilOwes b s = true ↔ s.faultValid b .coil = true ∧ (s.bank b).fitted = true ∧ (s.bank b).position ≠ some .term ∧
      (s.bank b).holder = none := by
  unfold coilOwes State.breakSkipped
  rw [Bool.and_eq_true, Bool.and_eq_true, Bool.and_eq_true, decide_eq_true_iff, decide_eq_true_iff]
  constructor
  · rintro ⟨⟨⟨hvalid, hpos⟩, hfit⟩, hfree⟩
    exact ⟨hvalid, hfit, hpos, hfree⟩
  · rintro ⟨hvalid, hfit, hpos, hfree⟩
    exact ⟨⟨⟨hvalid, hpos⟩, hfit⟩, hfree⟩

theorem ClearedSoFar.coilOwes_iff (h : ClearedSoFar s coilFirst done x) (hcoil : kindIn .coil (done b) = false)
    (horder : coilFirst = true → kindIn .drift (done b) = false) :
    coilOwes b x.2 = true ↔ CoilOwesAt true s b (coilReads s coilFirst (kindIn .drift (done b)) b) := by
  obtain ⟨hfit, hholder⟩ := h.bank_config b
  rw [Machine.coilOwes_iff, h.faultValid_left hcoil, hfit, hholder, coilReads_eq horder (kindIn .coil (done b)),
    h.banks b]
  exact (and_iff_right rfl).symm

theorem ClearedSoFar.more_coil (h : ClearedSoFar s coilFirst done x) (hcoil : kindIn .coil (done b) = false)
    (horder : coilFirst = true → kindIn .drift (done b) = false) :
    ClearedSoFar s coilFirst (moreDone done b .coil) (x.1, clearCoil b x.2) := by
  have howes := h.coilOwes_iff hcoil horder
  have hdrift : kindIn .drift (kindInsert .coil (done b)) = kindIn .drift (done b) := by
    rw [kindIn_insert, decide_eq_false (by decide), Bool.or_false]
  have hnew : kindIn .coil (kindInsert .coil (done b)) = true := by
    rw [kindIn_insert, decide_eq_true rfl, Bool.or_true]
  have hplain : ∀ c j, (c = b ∧ j = FaultKind.coil ∧ ¬ (FaultKind.coil = .drift ∧ DriftRefused s b)) ↔
      c = b ∧ j = .coil := fun c j =>
    ⟨fun hall => ⟨hall.1, hall.2.1⟩, fun hboth => ⟨hboth.1, hboth.2, fun hd => FaultKind.noConfusion hd.1⟩⟩
  rw [clearCoil_eq]
  have hsup := sup_oweIf (coilOwes b x.2) b (clearPair b .coil x.2)
  refine h.more (owes := coilOwes b x.2 = true)
    ((clearWork_clearPair b .coil x.2).trans (clearWork_oweIf _ b _)) ?_ (fun c j => ?_) (fun c j => ?_)
    (fun c hc => bank_oweIf_other _ hc _) ?_ ?_ (fun ho => ?_) (fun hn => ?_) fun c => ?_
  · rw [hsup]
    rfl
  · rw [faultValid_of_sup hsup, faultValid_clearPair, if_congr (hplain c j).symm rfl rfl]
  · rw [counter_of_sup hsup, counter_clearPair, if_congr (hplain c j).symm rfl rfl]
  · rw [bank_oweIf_self, bank_clearPair, h.banks b, hdrift, hnew, hcoil,
      Bool.eq_iff_iff.mpr (howes.trans decide_eq_true_iff.symm)]
    unfold bankCleared
    rw [decide_eq_false (fun ho : CoilOwesAt false s b _ => Bool.false_ne_true ho.1), Bool.or_false]
  · rw [hdrift, hnew, hcoil, howes]
    unfold OwesCleared
    rw [or_iff_left (fun ho : CoilOwesAt false s b _ => Bool.false_ne_true ho.1)]
  · rw [safe_oweIf, if_pos ho, safe_clearPair]
  · rw [safe_oweIf, if_neg hn, safe_clearPair]
  · rw [decide_eq_false (fun hall : c = b ∧ FaultKind.coil = .drift ∧ _ => FaultKind.noConfusion hall.2.1),
      Bool.or_false]

/-! ### DRIFT (R134) -/

theorem driftKept_iff {s t : State} (b : BankId) (hread : t.readback b = s.readback b)
    (hholder : (t.bank b).holder = (s.bank b).holder) (hpos : (t.bank b).position = (s.bank b).position)
    (hpath : ∀ p, t.path p = s.path p) (hdue : DriftDue s b) : driftKept t b = true ↔ DriftRefused s b := by
  unfold driftKept DriftRefused
  rw [hread, hholder, hpos, and_iff_right hdue]
  cases hr : s.readback b with
  | none => exact ⟨fun _ => .inl rfl, fun _ => rfl⟩
  | some c =>
    cases hh : (s.bank b).holder with
    | none =>
      refine ⟨fun hf => absurd hf Bool.false_ne_true, ?_⟩
      rintro (hn | ⟨p, hp, -⟩)
      · cases hn
      · cases hp
    | some p =>
      dsimp only
      rw [hpath, Bool.and_eq_true, Bool.or_eq_true, decide_eq_true_iff, decide_eq_true_iff, decide_eq_true_iff]
      constructor
      · rintro ⟨hpos, hstate⟩
        exact .inr ⟨p, rfl, hpos, hstate⟩
      · rintro (hn | ⟨q, hq, hpos, hstate⟩)
        · cases hn
        · cases hq
          exact ⟨hpos, hstate⟩

/-- What decides that the clear of DRIFT is a resynchronisation. -/
def driftDue (b : BankId) (s : State) : Bool := s.faultValid b .drift && (s.bank b).fitted && !s.inFlight b

theorem ClearedSoFar.driftDue_iff (h : ClearedSoFar s coilFirst done x) (hdrift : kindIn .drift (done b) = false) :
    driftDue b x.2 = true ↔ DriftDue s b := by
  unfold driftDue
  rw [h.faultValid_left hdrift, (h.bank_config b).1, inFlight_of_clearWork h.work, Bool.and_eq_true, Bool.and_eq_true,
    Bool.not_eq_true', and_assoc]

theorem ClearedSoFar.driftKept_iff (h : ClearedSoFar s coilFirst done x) (hdrift : kindIn .drift (done b) = false)
    (hdue : DriftDue s b) : driftKept x.2 b = true ↔ DriftRefused s b :=
  Machine.driftKept_iff b (readback_of_clearWork h.work b) (h.bank_config b).2 (h.position_left hdrift)
    (path_of_clearWork h.work) hdue

theorem coil_in_insert_drift (d : KindSet) : kindIn .coil (kindInsert .drift d) = kindIn .coil d := by
  rw [kindIn_insert, decide_eq_false (by decide), Bool.or_false]

theorem drift_in_insert_drift (d : KindSet) : kindIn .drift (kindInsert .drift d) = true := by
  rw [kindIn_insert, decide_eq_true rfl, Bool.or_true]

theorem bankCleared_drift_kept (coil drift : Bool) (h : ¬ (DriftDue s b ∧ ¬ DriftRefused s b)) :
    bankCleared s coilFirst coil drift b = bankCleared s coilFirst coil false b := by
  unfold bankCleared
  rw [coilReads_kept drift h, coilReads_kept false h, driftCleared_kept h, driftCleared_kept h]

theorem owesCleared_drift_kept (coil drift : Bool) (h : ¬ (DriftDue s b ∧ ¬ DriftRefused s b)) :
    OwesCleared s coilFirst coil drift b ↔ OwesCleared s coilFirst coil false b := by
  unfold OwesCleared
  rw [coilReads_kept drift h, coilReads_kept false h]
  exact or_congr_left ⟨fun hall => absurd ⟨hall.2.1, hall.2.2.1⟩ h, fun hall => absurd hall.1 Bool.false_ne_true⟩

/-- DRIFT cleared on a bank that is not resynchronised: its record stays, and nothing is owed. -/
theorem ClearedSoFar.more_unsynced (h : ClearedSoFar s coilFirst done x) (hdrift : kindIn .drift (done b) = false)
    (hnot : ¬ (DriftDue s b ∧ ¬ DriftRefused s b)) (hwork : ClearWork x.2 y.2)
    (hsup : y.2.sup =
      { x.2.sup with summaries := y.2.sup.summaries, faults := y.2.sup.faults, counters := y.2.sup.counters })
    (hfaults : ∀ c j, y.2.faultValid c j =
      if c = b ∧ j = .drift ∧ ¬ (FaultKind.drift = .drift ∧ DriftRefused s b) then false else x.2.faultValid c j)
    (hcounters : ∀ c j, y.2.counter c j =
      if c = b ∧ j = .drift ∧ ¬ (FaultKind.drift = .drift ∧ DriftRefused s b) then 0 else x.2.counter c j)
    (hbank : ∀ c, y.2.bank c = x.2.bank c) (hsafe : y.2.safe = x.2.safe)
    (hkept : ∀ c : BankId, y.1.getLsbD c.1 = (x.1.getLsbD c.1 || decide (c = b ∧ DriftRefused s b))) :
    ClearedSoFar s coilFirst (moreDone done b .drift) y := by
  refine h.more (owes := False) hwork hsup hfaults hcounters (fun c _ => hbank c) ?_ ?_ False.elim (fun _ => hsafe)
    fun c => ?_
  · rw [hbank, h.banks, hdrift, coil_in_insert_drift]
    exact (bankCleared_drift_kept _ _ hnot).symm
  · rw [hdrift, coil_in_insert_drift, or_false]
    exact owesCleared_drift_kept _ _ hnot
  · rw [hkept, decide_eq_decide.mpr (and_congr_right' (and_iff_right rfl).symm)]

/-- The resynchronisation before it may owe a home. -/
def resyncTaken (b : BankId) (s : State) : State := clearPair b .drift (s.recordPosition b (s.readback b))

/-- The resynchronisation owes a home. -/
def resyncOwes (b : BankId) (s : State) : Bool :=
  decide (s.readback b ≠ some .term) && decide ((s.bank b).holder = none)

theorem resyncBank_eq (b : BankId) (s : State) : resyncBank b s = oweIf (resyncOwes b s) b (resyncTaken b s) := rfl

theorem bank_resyncTaken (b : BankId) (s : State) (c : BankId) :
    (resyncTaken b s).bank c = if c = b then { s.bank b with position := s.readback b } else s.bank c :=
  bank_setBank s b c _

theorem coilReads_drift (h : coilFirst = true) (drift drift' : Bool) :
    coilReads s coilFirst drift b = coilReads s coilFirst drift' b := by
  unfold coilReads
  rw [if_pos h, if_pos h]

/-- The order of COIL and DRIFT makes a later DRIFT not matter to what COIL has read. -/
theorem coilOwesAt_drift {coil : Bool} (h : coilFirst = false → coil = false) (drift drift' : Bool) :
    CoilOwesAt coil s b (coilReads s coilFirst drift b) ↔ CoilOwesAt coil s b (coilReads s coilFirst drift' b) := by
  cases hfirst : coilFirst with
  | true => rw [coilReads_drift rfl drift drift']
  | false =>
    rw [h hfirst]
    exact ⟨fun ho => absurd ho.1 Bool.false_ne_true, fun ho => absurd ho.1 Bool.false_ne_true⟩

theorem resynced_owes (s : State) (b : BankId) (coil owes : Bool) :
    { resynced s b with homeOwed := ((s.bank b).homeOwed || coil) || owes } =
      { resynced s b with homeOwed := ((s.bank b).homeOwed || owes) || coil } := by
  rw [Bool.or_right_comm]

theorem ClearedSoFar.more_resync (h : ClearedSoFar s coilFirst done x) (hdrift : kindIn .drift (done b) = false)
    (horder : coilFirst = false → kindIn .coil (done b) = false) (hdue : DriftDue s b) (hnot : ¬ DriftRefused s b) :
    ClearedSoFar s coilFirst (moreDone done b .drift) (x.1, resyncBank b x.2) := by
  have hread := readback_of_clearWork h.work b
  have hholder := (h.bank_config b).2
  have hplain : ∀ c j, (c = b ∧ j = FaultKind.drift ∧ ¬ (FaultKind.drift = .drift ∧ DriftRefused s b)) ↔
      c = b ∧ j = .drift := fun c j =>
    ⟨fun hall => ⟨hall.1, hall.2.1⟩, fun hboth => ⟨hboth.1, hboth.2, fun hd => hnot hd.2⟩⟩
  have howes : resyncOwes b x.2 = (decide (s.readback b ≠ some .term) && decide ((s.bank b).holder = none)) := by
    unfold resyncOwes
    rw [hread, hholder]
  rw [resyncBank_eq]
  have hsup := sup_oweIf (resyncOwes b x.2) b (resyncTaken b x.2)
  have hwork : ClearWork x.2 (resyncTaken b x.2) := rfl
  refine h.more (owes := resyncOwes b x.2 = true) (hwork.trans (clearWork_oweIf _ b _)) ?_ (fun c j => ?_)
    (fun c j => ?_) (fun c hc => ?_) ?_ ?_ (fun ho => ?_) (fun hn => ?_) fun c => ?_
  · rw [hsup]
    rfl
  · rw [faultValid_of_sup hsup, if_congr (hplain c j) rfl rfl]
    exact faultValid_clearPair b .drift (x.2.recordPosition b _) c j
  · rw [counter_of_sup hsup, if_congr (hplain c j) rfl rfl]
    exact counter_clearPair b .drift (x.2.recordPosition b _) c j
  · rw [bank_oweIf_other _ hc, bank_resyncTaken, if_neg hc]
  · rw [bank_oweIf_self, bank_resyncTaken, if_pos rfl, h.banks b, coil_in_insert_drift, drift_in_insert_drift, howes,
      hread, hdrift]
    unfold bankCleared
    rw [driftCleared_false, driftCleared_resynced ⟨hdue, hnot⟩,
      decide_eq_decide.mpr (coilOwesAt_drift horder true false)]
    exact resynced_owes s b _ _
  · rw [coil_in_insert_drift, drift_in_insert_drift, hdrift, howes, Bool.and_eq_true, decide_eq_true_iff,
      decide_eq_true_iff]
    unfold OwesCleared
    rw [coilOwesAt_drift horder true false]
    constructor
    · rintro (⟨-, -, -, ho⟩ | hc)
      · exact .inr ho
      · exact .inl (.inr hc)
    · rintro ((⟨hf, -⟩ | hc) | ho)
      · exact absurd hf Bool.false_ne_true
      · exact .inr hc
      · exact .inl ⟨rfl, hdue, hnot, ho⟩
  · rw [safe_oweIf, if_pos ho]
    rfl
  · rw [safe_oweIf, if_neg hn]
    rfl
  · rw [decide_eq_false (fun hall : c = b ∧ FaultKind.drift = .drift ∧ DriftRefused s b => hnot hall.2.2),
      Bool.or_false]

theorem getLsbD_or_bank (m : BitVec 24) (b c : BankId) :
    (m ||| (1#24 <<< b.1)).getLsbD c.1 = (m.getLsbD c.1 || decide (c = b)) := by
  have hbit : ∀ b c : BankId, (1#24 <<< b.1).getLsbD c.1 = decide (c = b) := by decide
  rw [BitVec.getLsbD_or, hbit]

theorem ClearedSoFar.more_drift (h : ClearedSoFar s coilFirst done x) (hdrift : kindIn .drift (done b) = false)
    (horder : coilFirst = false → kindIn .coil (done b) = false) :
    ClearedSoFar s coilFirst (moreDone done b .drift) (clearNoting b .drift x) := by
  by_cases hdue : DriftDue s b
  · have hdue' := (h.driftDue_iff hdrift).mpr hdue
    by_cases hkept : DriftRefused s b
    · have hnoting : clearNoting b .drift x = (x.1 ||| (1#24 <<< b.1), x.2) := by
        have hkind : clearKindOn b .drift x.2 = (true, x.2) :=
          (if_pos hdue').trans (if_pos ((h.driftKept_iff hdrift hdue).mpr hkept))
        unfold clearNoting
        rw [hkind]
      rw [hnoting]
      refine h.more_unsynced hdrift (fun hboth => hboth.2 hkept) (.refl x.2) rfl (fun c j => ?_) (fun c j => ?_)
        (fun _ => rfl) rfl fun c => ?_
      · rw [if_neg fun hall => hall.2.2 ⟨rfl, hkept⟩]
      · rw [if_neg fun hall => hall.2.2 ⟨rfl, hkept⟩]
      · rw [getLsbD_or_bank, decide_eq_decide.mpr (and_iff_left hkept).symm]
    · have hnoting : clearNoting b .drift x = (x.1, resyncBank b x.2) := by
        have hkind : clearKindOn b .drift x.2 = (false, resyncBank b x.2) :=
          (if_pos hdue').trans (if_neg fun hk => hkept ((h.driftKept_iff hdrift hdue).mp hk))
        unfold clearNoting
        rw [hkind]
      rw [hnoting]
      exact h.more_resync hdrift horder hdue hkept
  · have hnoting : clearNoting b .drift x = (x.1, clearPair b .drift x.2) := by
      have hkind : clearKindOn b .drift x.2 = (false, clearPair b .drift x.2) :=
        if_neg fun hd => hdue ((h.driftDue_iff hdrift).mp hd)
      unfold clearNoting
      rw [hkind]
    have hplain : ∀ c j, (c = b ∧ j = FaultKind.drift ∧ ¬ (FaultKind.drift = .drift ∧ DriftRefused s b)) ↔
        c = b ∧ j = .drift := fun c j =>
      ⟨fun hall => ⟨hall.1, hall.2.1⟩, fun hboth => ⟨hboth.1, hboth.2, fun hd => hdue hd.2.1⟩⟩
    rw [hnoting]
    refine h.more_unsynced hdrift (fun hboth => hdue hboth.1) (clearWork_clearPair b .drift x.2) rfl (fun c j => ?_)
      (fun c j => ?_) (fun _ => rfl) rfl fun c => ?_
    · rw [faultValid_clearPair, if_congr (hplain c j).symm rfl rfl]
    · rw [counter_clearPair, if_congr (hplain c j).symm rfl rfl]
    · rw [decide_eq_false (fun hall : c = b ∧ DriftRefused s b => hdue hall.2.1), Bool.or_false]

/-- The kind `k` is not cleared yet after `d`, and comes in the order of COIL and DRIFT. -/
abbrev InOrder (coilFirst : Bool) (d : KindSet) (k : FaultKind) : Prop :=
  kindIn k d = false ∧ (k = .coil → coilFirst = true → kindIn .drift d = false) ∧
    (k = .drift → coilFirst = false → kindIn .coil d = false)

/-- One more pair cleared, of any kind. -/
theorem ClearedSoFar.clearNoting (h : ClearedSoFar s coilFirst done x) (hk : InOrder coilFirst (done b) k) :
    ClearedSoFar s coilFirst (moreDone done b k) (clearNoting b k x) := by
  obtain ⟨hleft, hcoil, hdrift⟩ := hk
  cases k with
  | coil => exact h.more_coil hleft (hcoil rfl)
  | drift => exact h.more_drift hleft (hdrift rfl)
  | stray | position | hot | worn => exact h.more_plain (by decide) (by decide)

end Step

/-! ## The kinds of the request (R131, R132) -/

/-- The order of COIL and DRIFT is kept along the list, after `d`. -/
def ordered (coilFirst : Bool) : KindSet → List FaultKind → Bool
  | _, [] => true
  | d, k :: ks => decide (InOrder coilFirst d k) && ordered coilFirst (kindInsert k d) ks

/-- The kinds of the list added to `d`. -/
def insertAll (d : KindSet) (kinds : List FaultKind) : KindSet := kinds.foldl (fun e k => kindInsert k e) d

/-- The kinds of a set in either order (R131, log 17). -/
def kindsOf (coilFirst : Bool) (ks : KindSet) : List FaultKind :=
  (if coilFirst then [.coil, .drift, .stray, .position, .hot, .worn]
   else [.drift, .coil, .stray, .position, .hot, .worn] : List FaultKind).filter fun k => kindIn k ks

theorem clearOrder_eq (s : State) (ks : KindSet) : clearOrder s ks = kindsOf s.arb.coilFirst ks := rfl

theorem ordered_kindsOf : ∀ (coilFirst : Bool) (ks : KindSet), ordered coilFirst 0 (kindsOf coilFirst ks) = true := by
  decide

theorem insertAll_kindsOf : ∀ (coilFirst : Bool) (ks : KindSet), insertAll 0 (kindsOf coilFirst ks) = ks := by
  decide

/-- Nothing is cleared yet. -/
theorem clearedSoFar_start (s : State) (coilFirst : Bool) : ClearedSoFar s coilFirst (fun _ => 0) (0, s) := by
  have hnone : ∀ j : FaultKind, kindIn j (0 : KindSet) = false := kindIn_zero
  have hpair : ∀ b j, ¬ PairCleared s 0 b j := fun b j h => Bool.false_ne_true (hnone j ▸ h.1)
  have howes : ∀ b, ¬ OwesCleared s coilFirst (kindIn .coil 0) (kindIn .drift 0) b := fun b h =>
    h.elim (fun hd => Bool.false_ne_true (hnone .drift ▸ hd.1)) fun hc => Bool.false_ne_true (hnone .coil ▸ hc.1)
  refine ⟨.refl s, rfl, fun b j => ?_, fun b j => (if_neg (hpair b j)).symm, fun b => ?_,
    fun _ ⟨b, hb⟩ => absurd hb (howes b), fun _ => rfl, fun b => ?_⟩
  · rw [decide_eq_false (hpair b j), Bool.not_false, Bool.and_true]
  · unfold bankCleared
    rw [hnone, hnone, driftCleared_false, decide_eq_false fun h : CoilOwesAt false s b _ => Bool.false_ne_true h.1,
      Bool.or_false]
  · rw [hnone, decide_eq_false fun h : false = true ∧ _ => Bool.false_ne_true h.1]
    exact BitVec.getLsbD_zero

section Folds

variable {s : State} {coilFirst : Bool} {done : BankId → KindSet} {x : BitVec 24 × State} {b : BankId} {k : FaultKind}
  {d : KindSet}

/-- Form 1: the kinds of the list on one bank. -/
theorem ClearedSoFar.foldKinds (kinds : List FaultKind) (h : ClearedSoFar s coilFirst done x)
    (hk : ordered coilFirst (done b) kinds = true) :
    ClearedSoFar s coilFirst (fun c => if c = b then insertAll (done c) kinds else done c)
      (kinds.foldl (fun y k => Machine.clearNoting b k y) x) := by
  induction kinds generalizing done x with
  | nil =>
    have hsame : (fun c => if c = b then insertAll (done c) [] else done c) = done := funext fun c => ite_self _
    rw [hsame]
    exact h
  | cons k kinds ih =>
    obtain ⟨hfirst, hrest⟩ := (Bool.and_eq_true _ _).mp hk
    have hnext := ih (h.clearNoting (of_decide_eq_true hfirst)) (by rw [moreDone_self]; exact hrest)
    have hsame : (fun c => if c = b then insertAll (moreDone done b k c) kinds else moreDone done b k c) =
        fun c => if c = b then insertAll (done c) (k :: kinds) else done c := by
      funext c
      unfold moreDone
      split <;> rfl
    rw [← hsame]
    exact hnext

/-- Form 0: one kind on the banks of the list. -/
theorem ClearedSoFar.foldBanks (banks : List BankId) (h : ClearedSoFar s coilFirst done x) (hnodup : banks.Nodup)
    (hk : ∀ c ∈ banks, InOrder coilFirst (done c) k) :
    ClearedSoFar s coilFirst (fun c => if c ∈ banks then kindInsert k (done c) else done c)
      (banks.foldl (fun y b => Machine.clearNoting b k y) x) := by
  induction banks generalizing done x with
  | nil =>
    have hsame : (fun c => if c ∈ ([] : List BankId) then kindInsert k (done c) else done c) = done :=
      funext fun c => if_neg List.not_mem_nil
    rw [hsame]
    exact h
  | cons b banks ih =>
    obtain ⟨hfresh, hnodup⟩ := List.nodup_cons.mp hnodup
    have hother : ∀ c ∈ banks, moreDone done b k c = done c := fun c hc =>
      moreDone_other fun heq : c = b => hfresh (heq ▸ hc)
    have hnext := ih (h.clearNoting (hk b List.mem_cons_self)) hnodup fun c hc => by
      rw [hother c hc]
      exact hk c (List.mem_cons_of_mem b hc)
    have hsame : (fun c => if c ∈ banks then kindInsert k (moreDone done b k c) else moreDone done b k c) =
        fun c => if c ∈ b :: banks then kindInsert k (done c) else done c := by
      funext c
      by_cases hc : c ∈ banks
      · rw [if_pos hc, if_pos (List.mem_cons_of_mem b hc), hother c hc]
      · rw [if_neg hc]
        exact if_congr (List.mem_cons.trans (or_iff_left hc)).symm rfl rfl
    rw [← hsame]
    exact hnext

theorem ClearedSoFar.allBanks (h : ClearedSoFar s coilFirst (fun _ => d) x) (hk : InOrder coilFirst d k) :
    ClearedSoFar s coilFirst (fun _ => kindInsert k d)
      (Machine.allBanks.foldl (fun y b => Machine.clearNoting b k y) x) := by
  have hall := h.foldBanks Machine.allBanks (List.nodup_finRange 24) fun _ _ => hk
  have hsame : (fun c => if c ∈ Machine.allBanks then kindInsert k d else d) = fun _ => kindInsert k d :=
    funext fun c => if_pos (List.mem_finRange c)
  rw [hsame] at hall
  exact hall

/-! ## The summaries (R132) -/

theorem summaries_clearKindOn (b : BankId) (k : FaultKind) (s : State) :
    (clearKindOn b k s).2.sup.summaries = s.sup.summaries := by
  cases k with
  | coil => exact (congrArg Supervision.summaries (sup_oweIf (coilOwes b s) b (clearPair b .coil s))).trans rfl
  | drift =>
    show (clearDrift b s).2.sup.summaries = _
    unfold clearDrift
    split
    next =>
      split
      next => rfl
      next => exact (congrArg Supervision.summaries (sup_oweIf (resyncOwes b s) b (resyncTaken b s))).trans rfl
    next => rfl
  | stray | position | hot | worn => rfl

theorem summaries_clearNoting (b : BankId) (k : FaultKind) (x : BitVec 24 × State) :
    (clearNoting b k x).2.sup.summaries = x.2.sup.summaries := by
  have hkind := summaries_clearKindOn b k x.2
  unfold clearNoting
  split
  next heq => rw [heq] at hkind; exact hkind
  next heq => rw [heq] at hkind; exact hkind

theorem summaries_foldl {α : Type} {f : BitVec 24 × State → α → BitVec 24 × State}
    (hf : ∀ x a, (f x a).2.sup.summaries = x.2.sup.summaries) (as : List α) (x : BitVec 24 × State) :
    (as.foldl f x).2.sup.summaries = x.2.sup.summaries := by
  induction as generalizing x with
  | nil => rfl
  | cons a as ih => exact (ih (f x a)).trans (hf x a)

theorem supervision_withSummaries {a c : Supervision}
    (h : a = { c with summaries := a.summaries, faults := a.faults, counters := a.counters }) (m : KindSet) :
    { a with summaries := m } = { c with summaries := m, faults := a.faults, counters := a.counters } := by
  rw [h]

theorem ClearedSoFar.withSummaries (h : ClearedSoFar s coilFirst done x) (m : KindSet) :
    ClearedSoFar s coilFirst done (x.1, x.2.setSup { x.2.sup with summaries := m }) := by
  obtain ⟨hwork, hsup, hfaults, hcounters, hbanks, howing, hstill, hkept⟩ := h
  exact ⟨hwork.trans rfl, supervision_withSummaries hsup m, hfaults, hcounters, hbanks, howing, hstill, hkept⟩

/-- From `s`, form 0 has cleared the kinds `d`: on every bank, and in the summaries. -/
structure TableCleared (s : State) (coilFirst : Bool) (d : KindSet) (x : BitVec 24 × State) : Prop where
  pairs : ClearedSoFar s coilFirst (fun _ => d) x
  summaries : ∀ j, kindIn j x.2.sup.summaries =
    (kindIn j s.sup.summaries && !decide (kindIn j d = true ∧ ¬ (j = .drift ∧ ∃ b, DriftRefused s b)))

theorem ClearedSoFar.kept_ne_zero (h : ClearedSoFar s coilFirst (fun _ => d) x) (hd : kindIn .drift d = true) :
    x.1 ≠ 0 ↔ ∃ b, DriftRefused s b := by
  constructor
  · intro hne
    by_contra hnone
    refine hne (BitVec.eq_of_getLsbD_eq fun i hi => ?_)
    have hbit := h.kept ⟨i, hi⟩
    rw [decide_eq_false fun hboth : _ ∧ _ => hnone ⟨_, hboth.2⟩] at hbit
    exact hbit.trans BitVec.getLsbD_zero.symm
  · rintro ⟨b, hb⟩ hzero
    have hbit := h.kept b
    rw [hzero, decide_eq_true ⟨hd, hb⟩] at hbit
    exact Bool.false_ne_true (BitVec.getLsbD_zero.symm.trans hbit)

theorem TableCleared.clearKindAll (h : TableCleared s coilFirst d x) (hk : InOrder coilFirst d k) :
    TableCleared s coilFirst (kindInsert k d) (clearKindAll k x) := by
  have hpairs := h.pairs.allBanks hk
  have hsum := summaries_foldl (fun y b => summaries_clearNoting b k y) Machine.allBanks x
  have hin : ∀ j, kindIn j (kindInsert k d) = true ↔ kindIn j d = true ∨ j = k := fun j => by
    rw [kindIn_insert, Bool.or_eq_true, decide_eq_true_iff]
  unfold Machine.clearKindAll clearSummary
  by_cases hkeep : k = .drift ∧ (Machine.allBanks.foldl (fun y b => Machine.clearNoting b k y) x).1 ≠ 0
  · rw [if_pos hkeep]
    obtain ⟨rfl, hne⟩ := hkeep
    have hrefused := (hpairs.kept_ne_zero ((hin .drift).mpr (.inr rfl))).mp hne
    refine ⟨hpairs, fun j => ?_⟩
    rw [hsum, h.summaries]
    congr 2
    refine decide_eq_decide.mpr ⟨fun hboth => ⟨(hin j).mpr (.inl hboth.1), hboth.2⟩, fun ⟨hj, hnot⟩ => ⟨?_, hnot⟩⟩
    exact ((hin j).mp hj).resolve_right fun heq => hnot ⟨heq, hrefused⟩
  · rw [if_neg hkeep]
    refine ⟨hpairs.withSummaries _, fun j => ?_⟩
    show kindIn j (kindErase k _) = _
    rw [kindIn_erase, hsum, h.summaries, Bool.and_assoc, ← Bool.not_or, ← Bool.decide_or]
    congr 2
    refine decide_eq_decide.mpr ⟨?_, fun ⟨hj, hnot⟩ => ((hin j).mp hj).imp (fun hold => ⟨hold, hnot⟩) id⟩
    rintro (⟨hj, hnot⟩ | heq)
    · exact ⟨(hin j).mpr (.inl hj), hnot⟩
    · refine ⟨(hin j).mpr (.inr heq), fun ⟨hj, hrefused⟩ => ?_⟩
      have hkd : k = .drift := heq.symm.trans hj
      subst hkd
      exact hkeep ⟨rfl, (hpairs.kept_ne_zero ((hin .drift).mpr (.inr rfl))).mpr hrefused⟩

theorem TableCleared.foldKinds (kinds : List FaultKind) (h : TableCleared s coilFirst d x)
    (hk : ordered coilFirst d kinds = true) :
    TableCleared s coilFirst (insertAll d kinds) (kinds.foldl (fun y k => Machine.clearKindAll k y) x) := by
  induction kinds generalizing d x with
  | nil => exact h
  | cons k kinds ih =>
    obtain ⟨hfirst, hrest⟩ := (Bool.and_eq_true _ _).mp hk
    exact ih (h.clearKindAll (of_decide_eq_true hfirst)) hrest

end Folds

/-- Form 0 clears the kinds of the request on every bank (R132). -/
theorem tableCleared (s : State) (ks : KindSet) :
    TableCleared s s.arb.coilFirst ks ((clearOrder s ks).foldl (fun x k => clearKindAll k x) (0, s)) := by
  have hstart : TableCleared s s.arb.coilFirst 0 (0, s) :=
    ⟨clearedSoFar_start s _, fun j => by
      rw [kindIn_zero, decide_eq_false fun h : false = true ∧ _ => Bool.false_ne_true h.1, Bool.not_false,
        Bool.and_true]⟩
  have hall := hstart.foldKinds (kindsOf s.arb.coilFirst ks) (ordered_kindsOf _ ks)
  rw [insertAll_kindsOf] at hall
  exact hall

/-- Form 1 clears the kinds of the request on its bank, and no summary (R133). -/
theorem bankKindsCleared (s : State) (b : BankId) (ks : KindSet) :
    ClearedSoFar s s.arb.coilFirst (fun c => if c = b then ks else 0)
      ((clearOrder s ks).foldl (fun x k => clearNoting b k x) (0, s)) := by
  have hall := (clearedSoFar_start s s.arb.coilFirst).foldKinds (b := b) (kindsOf s.arb.coilFirst ks)
    (ordered_kindsOf _ ks)
  rw [insertAll_kindsOf] at hall
  exact hall

/-! ## The answer (R131) -/

section Answer

variable {s : State} {coilFirst : Bool} {x : BitVec 24 × State} {on : BankId → Bool} {ks : KindSet}

/-- The state of the answer: naming both COIL and DRIFT uses up one free order (log 17). -/
def clearedState (ks : KindSet) (t : State) : State :=
  if kindIn .coil ks && kindIn .drift ks then t.redraw else t

theorem clearedState_frame {t : State} (ks : KindSet) (h : ClearWork s t) :
    clearedState ks t =
      { (if ks.getLsbD 0 = true ∧ ks.getLsbD 1 = true then s.redraw else s) with
        banks := (clearedState ks t).banks, sup := (clearedState ks t).sup, safe := (clearedState ks t).safe } := by
  unfold clearedState
  have hiff : (kindIn .coil ks && kindIn .drift ks) = true ↔ ks.getLsbD 0 = true ∧ ks.getLsbD 1 = true :=
    Bool.and_eq_true_iff
  by_cases hboth : ks.getLsbD 0 = true ∧ ks.getLsbD 1 = true
  · rw [if_pos hboth, if_pos (hiff.mpr hboth), h]
    rfl
  · rw [if_neg hboth, if_neg fun hall => hboth (hiff.mp hall), h]

theorem clearedState_parts (ks : KindSet) (t : State) :
    (clearedState ks t).banks = t.banks ∧ (clearedState ks t).sup = t.sup ∧ (clearedState ks t).safe = t.safe := by
  unfold clearedState
  split <;> exact ⟨rfl, rfl, rfl⟩

/-- The kinds without a DRIFT that is kept. -/
theorem kindIn_spared (j : FaultKind) (ks : KindSet) (q : Prop) [Decidable q] :
    kindIn j (if ks.getLsbD 1 = true ∧ q then ks &&& ~~~2#6 else ks) =
      decide (kindIn j ks = true ∧ ¬ (j = .drift ∧ q)) := by
  by_cases hq : ks.getLsbD 1 = true ∧ q
  · rw [if_pos hq]
    refine (kindIn_erase j .drift ks).trans ?_
    rw [Bool.eq_iff_iff, Bool.and_eq_true, Bool.not_eq_true', decide_eq_false_iff_not, decide_eq_true_iff]
    exact and_congr_right' (not_congr (and_iff_left hq.2).symm)
  · rw [if_neg hq, Bool.eq_iff_iff, decide_eq_true_iff]
    refine ⟨fun hin => ⟨hin, fun ⟨hj, hhold⟩ => hq ⟨?_, hhold⟩⟩, And.left⟩
    rw [hj] at hin
    exact hin

theorem kindIn_on (j : FaultKind) (p : Bool) (ks : KindSet) :
    kindIn j (if p = true then ks else 0) = (p && kindIn j ks) := by
  cases p with
  | true => rfl
  | false => exact kindIn_zero j

/-- The pairs cleared on the banks of `on` are those that the request names. -/
theorem pairCleared_on (b : BankId) (j : FaultKind) :
    PairCleared s (if on b = true then ks else 0) b j ↔
      on b = true ∧ kindIn j ks = true ∧ ¬ (j = .drift ∧ DriftRefused s b) := by
  unfold PairCleared
  rw [kindIn_on, Bool.and_eq_true, and_assoc]

/-- What the clear of every pair leaves is what the request clears. -/
theorem ClearedSoFar.faultsCleared {table : Bool}
    (h : ClearedSoFar s coilFirst (fun b => if on b = true then ks else 0) x)
    (hsummaries : x.2.sup.summaries =
      if table = true then
        s.sup.summaries &&& ~~~(if ks.getLsbD 1 = true ∧ ∃ b, DriftRefused s b then ks &&& ~~~2#6 else ks)
      else s.sup.summaries) :
    FaultsCleared on table coilFirst ks s (clearedState ks x.2) := by
  obtain ⟨hbanks, hsup, hsafe⟩ := clearedState_parts ks x.2
  have hcoil : ∀ b, kindIn .coil (if on b = true then ks else 0) = (on b && ks.getLsbD 0) := fun b => kindIn_on _ _ _
  have hdrift : ∀ b, kindIn .drift (if on b = true then ks else 0) = (on b && ks.getLsbD 1) := fun b => kindIn_on _ _ _
  refine ⟨clearedState_frame ks h.work, ?_, ?_, fun b => ?_, fun b k => ?_, fun b => ?_, ?_⟩
  · rw [hsup]
    exact h.sup
  · rw [hsup]
    exact hsummaries
  · refine kindSet_ext fun j => ?_
    have hvalid := (faultValid_of_sup hsup b j).trans (h.faults b j)
    refine hvalid.trans ?_
    by_cases hon : on b = true
    · have hpair : PairCleared s (if on b = true then ks else 0) b j ↔
          kindIn j ks = true ∧ ¬ (j = .drift ∧ DriftRefused s b) := (pairCleared_on b j).trans (and_iff_right hon)
      rw [decide_eq_decide.mpr hpair, if_pos hon, kindIn_and_not, kindIn_spared]
      rfl
    · rw [decide_eq_false fun hall => hon ((pairCleared_on b j).mp hall).1, if_neg hon, Bool.not_false, Bool.and_true]
      rfl
  · rw [counter_of_sup hsup, h.counters, if_congr (pairCleared_on b k) rfl rfl]
  · rw [bank_of_banks _ _ hbanks, h.banks, hcoil, hdrift]
    rfl
  · have howes : ∀ b, OwesCleared s coilFirst (kindIn .coil (if on b = true then ks else 0))
        (kindIn .drift (if on b = true then ks else 0)) b ↔
        OwesCleared s coilFirst (on b && ks.getLsbD 0) (on b && ks.getLsbD 1) b := fun b => by rw [hcoil, hdrift]
    rw [hsafe]
    by_cases hall : s.safe.state = .safe ∧ ∃ b, OwesCleared s coilFirst (on b && ks.getLsbD 0) (on b && ks.getLsbD 1) b
    · rw [h.owing hall.1 ((exists_congr howes).mpr hall.2)]
      exact (if_pos hall).symm
    · rw [h.still fun hboth => hall ⟨hboth.1, (exists_congr howes).mp hboth.2⟩]
      exact (if_neg hall).symm

/-- The answer is taken once the pairs are cleared, and the drivers choose then (log 10). -/
theorem clearFaultsUnit_good {ps : List Byte} (sf : Byte) (s : State) (hgood : clearFaultsBad ps = false)
    (hx : clearFaultsOf ps s = x) (hks : BitVec.ofNat 6 (val1 ps 2) = ks) :
    clearFaultsUnit sf ps s =
      (⟨.ok, [byteOf (clearedState ks x.2).sup.summaries.toNat] ++ bankMapBytes fun b => x.1.getLsbD b.1⟩,
        react (clearedState ks x.2)) := by
  unfold clearFaultsUnit
  rw [if_neg (by rw [hgood]; exact Bool.false_ne_true)]
  dsimp only
  rw [hx, hks]
  rfl

theorem clearFaultsUnit_bad {ps : List Byte} (sf : Byte) (s : State) (hbad : clearFaultsBad ps = true) :
    clearFaultsUnit sf ps s = (⟨.eArg, [0xFF]⟩, s) := if_pos hbad

theorem clearFaultsBad_iff (ps : List Byte) :
    clearFaultsBad ps = true ↔
      ps.length ≠ 3 ∨ 1 < val1 ps 0 ∨ (val1 ps 0 = 0 ∧ val1 ps 1 ≠ 0xFF) ∨ (val1 ps 0 ≠ 0 ∧ 23 < val1 ps 1) ∨
        63 < val1 ps 2 := by
  unfold clearFaultsBad
  rw [Bool.or_eq_true, Bool.or_eq_true, Bool.or_eq_true, decide_eq_true_iff, decide_eq_true_iff, decide_eq_true_iff]
  by_cases hform : val1 ps 0 = 0
  · rw [if_pos hform, decide_eq_true_iff]
    tauto
  · rw [if_neg hform, decide_eq_true_iff]
    tauto

theorem val1_third (p q : Byte) (ks : KindSet) : val1 [p, q, byteOf ks.toNat] 2 = ks.toNat :=
  toNat_byteOf_of_lt (Nat.lt_of_lt_of_le ks.isLt (by decide))

theorem tableParams_good (ks : KindSet) : clearFaultsBad [0, 0xFF, byteOf ks.toNat] = false := by
  have hlt := ks.isLt
  have hthird := val1_third 0 0xFF ks
  have hform : val1 [0, 0xFF, byteOf ks.toNat] 0 = 0 := rfl
  rw [← Bool.not_eq_true, clearFaultsBad_iff, hthird, hform]
  rintro (hlen | hbig | ⟨-, hall⟩ | ⟨hbank, -⟩ | hkinds)
  · exact hlen rfl
  · omega
  · exact hall rfl
  · exact hbank rfl
  · omega

theorem bankParams_good (b : BankId) (ks : KindSet) : clearFaultsBad [1, byteOf b.1, byteOf ks.toNat] = false := by
  have hlt := ks.isLt
  have hthird := val1_third 1 (byteOf b.1) ks
  have hbank : val1 [1, byteOf b.1, byteOf ks.toNat] 1 = b.1 := val1_of_fin (by decide) b []
  have hform : val1 [1, byteOf b.1, byteOf ks.toNat] 0 = 1 := rfl
  rw [← Bool.not_eq_true, clearFaultsBad_iff, hthird, hbank, hform]
  rintro (hlen | hbig | ⟨htable, -⟩ | ⟨-, hall⟩ | hkinds)
  · exact hlen rfl
  · omega
  · omega
  · omega
  · omega

theorem clearFaultsOf_table (ks : KindSet) (s : State) :
    clearFaultsOf [0, 0xFF, byteOf ks.toNat] s =
      (clearOrder s ks).foldl (fun x k => clearKindAll k x) (0, s) := by
  unfold clearFaultsOf
  dsimp only
  rw [val1_third, BitVec.ofNat_toNat, BitVec.setWidth_eq]
  exact if_pos rfl

theorem clearFaultsOf_bank (b : BankId) (ks : KindSet) (s : State) :
    clearFaultsOf [1, byteOf b.1, byteOf ks.toNat] s =
      (clearOrder s ks).foldl (fun x k => clearNoting b k x) (0, s) := by
  have hbank : val1 [1, byteOf b.1, byteOf ks.toNat] 1 = b.1 := val1_of_fin (by decide) b []
  have hform : ¬ val1 [1, byteOf b.1, byteOf ks.toNat] 0 = 0 := by
    show ¬ (1 : Byte).toNat = 0
    decide
  unfold clearFaultsOf
  dsimp only
  rw [val1_third, BitVec.ofNat_toNat, BitVec.setWidth_eq, if_neg hform, hbank, Fin.ofNat_val_eq_self]

theorem summaries_table {ks : KindSet} (h : TableCleared s coilFirst ks x) :
    x.2.sup.summaries =
      s.sup.summaries &&& ~~~(if ks.getLsbD 1 = true ∧ ∃ b, DriftRefused s b then ks &&& ~~~2#6 else ks) := by
  refine kindSet_ext fun j => ?_
  rw [h.summaries, kindIn_and_not, kindIn_spared]

end Answer

/-- Settles O48, by what stands after the pairs of the request, cleared one after another (`ClearedSoFar`). -/
theorem clearFaultsClears : Obligations.ClearFaultsClears := by
  unfold Obligations.ClearFaultsClears
  intro f s h
  refine ⟨fun ks hps => ?_, fun b ks hps => ?_, fun hbad => ?_⟩
  · have hks : BitVec.ofNat 6 (val1 f.params 2) = ks := by
      rw [hps, val1_third, BitVec.ofNat_toNat, BitVec.setWidth_eq]
    have hof := clearFaultsOf_table ks s
    rw [← hps] at hof
    have hunit := clearFaultsUnit_good f.station s (by rw [hps]; exact tableParams_good ks) hof hks
    have hall := tableCleared s ks
    generalize (clearOrder s ks).foldl (fun x k => clearKindAll k x) (0, s) = x at hunit hall
    rw [funext fun b : BankId => hall.pairs.kept b] at hunit
    exact ⟨clearedState ks x.2, s.arb.coilFirst, exec_answers rfl h hunit,
      hall.pairs.faultsCleared (on := fun _ => true) (summaries_table hall)⟩
  · have hks : BitVec.ofNat 6 (val1 f.params 2) = ks := by
      rw [hps, val1_third, BitVec.ofNat_toNat, BitVec.setWidth_eq]
    have hof := clearFaultsOf_bank b ks s
    rw [← hps] at hof
    have hunit := clearFaultsUnit_good f.station s (by rw [hps]; exact bankParams_good b ks) hof hks
    have hall := bankKindsCleared s b ks
    have hsum := summaries_foldl (fun y k => summaries_clearNoting b k y) (clearOrder s ks) (0, s)
    generalize (clearOrder s ks).foldl (fun x k => clearNoting b k x) (0, s) = x at hunit hall hsum
    have hkept : (fun c : BankId => x.1.getLsbD c.1) =
        fun c => decide (c = b ∧ ks.getLsbD 1 = true ∧ DriftRefused s b) := funext fun c => by
      rw [hall.kept c, decide_eq_decide]
      by_cases hc : c = b
      · rw [if_pos hc, hc]
        exact (and_iff_right rfl).symm
      · rw [if_neg hc]
        exact ⟨fun hboth => absurd hboth.1 Bool.false_ne_true, fun hboth => absurd hboth.1 hc⟩
    rw [hkept, (clearedState_parts ks x.2).2.1, hsum] at hunit
    have hon : (fun c => if c = b then ks else 0) = fun c => if decide (c = b) = true then ks else 0 :=
      funext fun c => if_congr decide_eq_true_iff.symm rfl rfl
    rw [hon] at hall
    exact ⟨clearedState ks x.2, s.arb.coilFirst, exec_answers rfl h hunit, hall.faultsCleared hsum⟩
  · refine exec_answers rfl h (clearFaultsUnit_bad f.station s ((clearFaultsBad_iff _).mpr ?_))
    rcases hbad with hlen | hform | htable | ⟨hform, hbank⟩ | hkinds
    · exact .inl hlen
    · exact .inr (.inl hform)
    · exact .inr (.inr (.inl htable))
    · exact .inr (.inr (.inr (.inl ⟨by omega, hbank⟩)))
    · exact .inr (.inr (.inr (.inr hkinds)))

end Sys2Proof.Machine
end
